-- ==== Sys2Proof/Word.lean ====
section
/-! DEFINITION. The word types of the SK9 model and nothing else: bytes, 16-, 32- and 64-bit words. Addresses and counts are
natural numbers; a 128-bit layer-program operation is a `BitVec 128`. -/
namespace Sys2Proof

/-- One byte. -/
abbrev Byte := BitVec 8
/-- A 16-bit word: tags, status codes, ordered sequence numbers. -/
abbrev W16 := BitVec 16
/-- A 32-bit word: epochs, FP32 values, doorbell counts. -/
abbrev W32 := BitVec 32
/-- A 64-bit word: registers, session IDs. -/
abbrev W64 := BitVec 64
/-- One layer-program operation (06 R161). -/
abbrev OpWord := BitVec 128

end Sys2Proof
end

