-- ==== Sys2Proof/Syntax.lean ====
section
/-! DEFINITION. The commands of the SK9 block: one constructor of `Instr` per row of the command table, with the operand
types they carry. Commands are what reaches the block from outside (descriptors, register accesses, packets, pins) and the
device's own indivisible steps, as the table lists them. -/
namespace Sys2Proof

/-- A fetched 64-byte descriptor without its OPCODE byte, which the command's row names (03 R69, Table 3-4), and the ring
that carried it. `body` is bytes 16 to 63. -/
structure Desc where
  ring : Nat
  flags : Byte
  tag : W16
  epoch : W32
  session : W64
  body : List Byte
  deriving DecidableEq, Repr

/-- A fabric packet (13 R339, Table 13-1). `ptype` 0 request, 1 response, 2 sequence NACK. -/
structure Packet where
  ptype : Nat
  rev : Nat
  op : Nat
  unordered : Bool
  kindRecord : Bool
  last : Bool
  hops : Nat
  queue : Nat
  dst : Nat
  src : Nat
  issuer : Nat
  tag : W32
  drove : W32
  epoch : W32
  session : W64
  addr : Nat
  oseq : W16
  len : Nat
  frag : Nat
  status : W16
  oparg : W64
  pmask : W64
  payload : List Byte
  deriving DecidableEq, Repr

/-- One token of a commit record: its ID and whether forcing emitted it (SRC 3) (09 R248 step 3). -/
structure DryToken where
  token : Nat
  forced : Bool
  deriving DecidableEq, Repr

/-- One sequence's part of a commit record (09 R248): DSEQ, proposals k, accepted a, the dry tokens and the ending. `ending`
is the END_REASON of Table 4-10 when the turn ends, `stopIndex` the stop string's index. -/
structure SeqVerdict where
  dseq : Nat
  k : Nat
  a : Nat
  dry : List DryToken
  ending : Option Nat
  stopIndex : Nat
  poisoned : Bool
  deriving DecidableEq, Repr

/-- How the data path of a migration ended (02 R43 to R45, R49, R453). -/
inductive MigEnd where
  | written
  | sourcePoisoned
  | badForm
  | writeFailed
  | readOnly
  deriving DecidableEq, Repr

/-- What a fabric port finds in training (13 R332, R333, R335, R363): lanes trained, the neighbour's announcements, and the credits it grants for
each of the four virtual channels (log entry 65). -/
structure PortTrain where
  lanes : BitVec 4
  rev : Nat
  minRev : Nat
  device : Nat
  port : Nat
  credits : List Nat
  deriving DecidableEq, Repr

/-- A port whose next packet is selected, with the credits that the neighbour has given back since for each of the four virtual channels (13 R333,
R358; log entry 65). -/
structure Egress where
  port : Nat
  returned : List Nat
  deriving DecidableEq, Repr

/-- What the patrol scrub finds on one channel (19 R482): corrected units, uncorrectable 64-byte units of sheet space (by
local offset ÷ 64), the sessions whose working copy or whose home record's H fields were hit in a system slot, and whether an
uncontainable structure was (18 Table 18-2). -/
structure ScrubFinding where
  channel : Nat
  corrected : Nat
  bad : List Nat
  copies : List W64
  records : List W64
  structural : Bool
  deriving DecidableEq, Repr

/-- How one LDPC codeword was decoded (12 R316): it held no error, was corrected in step 1, by retry entry `entry` in step 2 or in step 3, or could not be. -/
inductive CwOutcome where
  | clean
  | hard
  | retry (entry : Nat)
  | soft
  | uncorrectable
  deriving DecidableEq, Repr

/-- A failed self-test check (16 Table 16-4): its order and the unit it concerns. Orders 2 and 4 number the units of the die: pens 0 to 63, HBM
stacks 64 to 71, I/O chiplets 72 and 73, the flash controller 74; order 7 numbers ports 0 to 17 and link lane groups 18 and 19 (log entry 67). -/
structure SelfTestFailure where
  order : Nat
  unit : Nat
  deriving DecidableEq, Repr

/-- The factory configuration record as the boot ROM accepts it (15 R393, Table 15-3). -/
structure FactoryRecord where
  version : Nat
  pens : W64
  ports : Nat
  hbmStacks : Nat
  flash : Nat
  coreMv : Nat
  serial : Nat
  deriving DecidableEq, Repr

/-- One boot stage as loaded (15 R394): the copy that verified (1 A, 2 B, none when both failed), SVN, version, digest. -/
structure StageLoad where
  copy : Option Nat
  svn : Nat
  version : Nat
  digest : List Byte
  deriving DecidableEq, Repr

/-- What firmware and the media profile loaded from the boot flash fix (04 R124, 12 R308, NFC_MEDIA): image formats read and
written, bits per cell, LUNs per chip enable, planes per LUN, blocks per plane, native pages per block, retry entries, rated
erase cycles, and whether the profile has a temperature feature. -/
structure Firmware where
  fmtMin : Nat
  fmtMax : Nat
  bits : Nat
  luns : Nat
  planes : Nat
  nsb : Nat
  ppb : Nat
  retry : Nat
  endurance : Nat
  deriving DecidableEq, Repr

/-- What a cold start meets outside the logic (16 R415 to R421): pins, self-test outcomes, the boot flash and the parts. -/
structure BootInputs where
  strap : Nat
  comparatorHot : Bool
  failures : List SelfTestFailure
  durationUs : Nat
  flashReadable : Bool
  seed : Option (List Byte)
  factory : Option FactoryRecord
  stages : List StageLoad
  firmware : Firmware
  chipEnables : List Nat
  chipEnablesFenced : List Nat
  linkLanes : Byte
  chain : List (List Byte)
  deriving DecidableEq, Repr

/-- A member's report of its shard, as the root has received it (14 R378): member, device, DATA_SHEETS, DIGEST, status. -/
structure ShardReport where
  member : Nat
  device : Nat
  dataSheets : Nat
  digest : List Byte
  status : W16
  deriving DecidableEq, Repr

/-- A shard in another member's store as the issuer of a restore finds it (14 R381): its step, whether its header names the drove and the
member, its DIGEST. -/
structure ShardSeen where
  step : Nat
  valid : Bool
  digest : List Byte
  deriving DecidableEq, Repr

/-- Another member's store: the member, whether it is lost without a replica, its shards. -/
structure MemberStore where
  member : Nat
  lost : Bool
  shards : List ShardSeen
  deriving DecidableEq, Repr

/-- The TAP instructions reached without a token, and TRST_N low (20 R489). -/
inductive TapOp where
  | reset
  | bypass
  | idcode
  | sample
  | extest
  deriving DecidableEq, Repr

/-- The commands, one per row of the command table. -/
inductive Instr where
  /-- SESSION_OPEN (R101). -/
  | sessionOpen (d : Desc)
  /-- SESSION_CLOSE (R101). -/
  | sessionClose (d : Desc)
  /-- TURN_SUBMIT (R260). -/
  | turnSubmit (d : Desc)
  /-- TOOL_RESULT (R101). -/
  | toolResult (d : Desc)
  /-- TURN_CANCEL (R102). -/
  | turnCancel (d : Desc)
  /-- STREAM_RESEND (R84). -/
  | streamResend (d : Desc)
  /-- SESSION_PARK (R104). -/
  | sessionPark (d : Desc)
  /-- SESSION_REVIVE (R107). -/
  | sessionRevive (d : Desc)
  /-- SESSION_RECOVER (R116). -/
  | sessionRecover (d : Desc)
  /-- SESSION_MOVE_OFFER (R113). -/
  | sessionMoveOffer (d : Desc)
  /-- SESSION_MOVE_ACCEPT (R113). -/
  | sessionMoveAccept (d : Desc)
  /-- MOVE_PULL_COMPLETE (R113). -/
  | movePullComplete (session : W64)
  /-- LEASE_POLL (R113). -/
  | leasePoll (session : W64)
  /-- OFFER_DEADLINE_EXPIRY (R114). -/
  | offerDeadlineExpiry (session : W64)
  /-- PARK_AFTER_CHECK (R103). -/
  | parkAfterCheck
  /-- PARK_COMPLETE (R104). -/
  | parkComplete (session : W64)
  /-- REVIVE_COMPLETE (R107). -/
  | reviveComplete (session : W64)
  /-- REVIVE_LAYER_REPORT (R108). -/
  | reviveLayerReport (session : W64) (layer : Nat)
  /-- MODEL_REGISTER (R200). -/
  | modelRegister (d : Desc)
  /-- MODEL_ACTIVATE (R201). -/
  | modelActivate (d : Desc)
  /-- ACTIVATE_LOAD_COMPLETE (R201). -/
  | activateLoadComplete (fold : Nat) (status : W16)
  /-- MODEL_RETIRE (R203). -/
  | modelRetire (d : Desc)
  /-- RECALL_QUERY (R294). -/
  | recallQuery (d : Desc)
  /-- QUERY_ADMIT (R294). -/
  | queryAdmit (fold : Nat)
  /-- RECALL_INSERT (R292). -/
  | recallInsert (d : Desc)
  /-- RECALL_DELETE (R293). -/
  | recallDelete (d : Desc)
  /-- RECALL_MERGE (R297). -/
  | recallMerge (d : Desc)
  /-- MERGE_ROUND_COMMIT (R300). -/
  | mergeRoundCommit (fold : Nat)
  /-- SNAPSHOT_CUT (R366). -/
  | snapshotCut (d : Desc)
  /-- SNAPSHOT_DRAIN_SHEET (R370). -/
  | snapshotDrainSheet (fold : Nat)
  /-- SHARD_COMPLETE (R376). -/
  | shardComplete (fold : Nat)
  /-- MANIFEST_BUILD (R378). -/
  | manifestBuild (fold : Nat) (reports : List ShardReport)
  /-- SNAPSHOT_RESTORE (R381). -/
  | snapshotRestore (d : Desc) (others : List MemberStore) (manifests : List (List Byte))
  /-- DROVE_JOIN (R462). -/
  | droveJoin (d : Desc)
  /-- JOIN_REPORT (R463). -/
  | joinReport (fold index : Nat) (status : W16)
  /-- JOIN_COMMIT (R463). -/
  | joinCommit (fold : Nat)
  /-- JOIN_LIMIT_EXPIRY (R463). -/
  | joinLimitExpiry (fold : Nat)
  /-- DROVE_LEAVE (R464). -/
  | droveLeave (d : Desc)
  /-- DROVE_SHRINK (R384). -/
  | droveShrink (d : Desc)
  /-- SHRINK_COMPLETE (R385). -/
  | shrinkComplete (fold : Nat)
  /-- DROVE_REBALANCE (R388). -/
  | droveRebalance (d : Desc)
  /-- KEY_INSTALL_OWNER (R401). -/
  | keyInstallOwner (d : Desc)
  /-- KEY_INSTALL_IMAGE (R401). -/
  | keyInstallImage (d : Desc)
  /-- KEY_REMOVE (R401). -/
  | keyRemove (d : Desc)
  /-- KEY_ROTATE (R405). -/
  | keyRotate (d : Desc)
  /-- KEY_RECORD_DURABLE (R405). -/
  | keyRecordDurable (fold : Nat) (status : W16)
  /-- KEY_SWEEP_STEP (R405). -/
  | keySweepStep (fold : Nat)
  /-- SWEEP_PASS_RETRY (R406). -/
  | sweepPassRetry (fold : Nat)
  /-- ATTEST (R397). -/
  | attest (d : Desc)
  /-- ATTEST_EPHEMERAL (R399). -/
  | attestEphemeral (d : Desc)
  /-- ATTEST_CHAIN (R396). -/
  | attestChain (d : Desc)
  /-- EPHEMERAL_KEY_EXPIRY (R399). -/
  | ephemeralKeyExpiry (fold : Nat)
  /-- QUOTA_SET (R40). -/
  | quotaSet (d : Desc)
  /-- GATE_LIST_LOAD (R361). -/
  | gateListLoad (d : Desc)
  /-- GATE_LIST_CANCEL (R361). -/
  | gateListCancel (d : Desc)
  /-- GATE_LIST_TAKEOVER (R362). -/
  | gateListTakeover (port : Nat)
  /-- GATE_ENTRY_ADVANCE (R360). -/
  | gateEntryAdvance (port : Nat)
  /-- ROLE_SET (R121). -/
  | roleSet (d : Desc)
  /-- DRAIN_LIMIT_EXPIRY (R121). -/
  | drainLimitExpiry (fold : Nat)
  /-- FLASH_DISCARD (R326). -/
  | flashDiscard (d : Desc)
  /-- HEALTH_READ (R329). -/
  | healthRead (d : Desc)
  /-- HEALTH_READ_GROWN_BAD (R329). -/
  | healthReadGrownBad (d : Desc)
  /-- FENCE (R91). -/
  | fence (d : Desc)
  /-- SQ_TAIL_DOORBELL (R67). -/
  | sqTailDoorbell (ring requester offset size : Nat) (value : W32)
  /-- DESCRIPTOR_FETCH (R67). -/
  | descriptorFetch (ring : Nat)
  /-- EQ_HEAD_POLL (R73). -/
  | eqHeadPoll (queue : Nat)
  /-- STREAM_CHUNK_WRITE (R82). -/
  | streamChunkWrite (pen : Nat)
  /-- STREAM_HEAD_REREAD (R83). -/
  | streamHeadReread (pen : Nat)
  /-- STREAM_HEAD_POLL (R507). -/
  | streamHeadPoll (session : W64)
  /-- STREAM_BANK_SWAP (R87). -/
  | streamBankSwap (pen : Nat)
  /-- ACCOUNTING_PAGE (R142). -/
  | accountingPage (fold : Nat)
  /-- STEP_START (R162). -/
  | stepStart (fold : Nat)
  /-- EMPTY_STEP (R509). -/
  | emptyStep (fold : Nat)
  /-- VERIFICATION_JUDGEMENT (R245). -/
  | verificationJudgement (fold : Nat)
  /-- VERIFICATION_COMMIT (R248). -/
  | verificationCommit (fold : Nat) (record : List SeqVerdict)
  /-- TRANSCRIPT_WRITE_ACK (R100). -/
  | transcriptWriteAck (session : W64) (status : W16)
  /-- OP_LAYER (R174). -/
  | opLayer (pen : Nat) (op : OpWord)
  /-- OP_END (R163). -/
  | opEnd (pen : Nat) (op : OpWord)
  /-- OP_MMA (R169). -/
  | opMma (pen : Nat) (op : OpWord)
  /-- VEW_ADD (R171). -/
  | vewAdd (pen : Nat) (op : OpWord)
  /-- VEW_SUBTRACT (R171). -/
  | vewSubtract (pen : Nat) (op : OpWord)
  /-- VEW_MULTIPLY (R171). -/
  | vewMultiply (pen : Nat) (op : OpWord)
  /-- VEW_MAXIMUM (R171). -/
  | vewMaximum (pen : Nat) (op : OpWord)
  /-- VEW_MINIMUM (R171). -/
  | vewMinimum (pen : Nat) (op : OpWord)
  /-- VEW_MULTIPLY_CONSTANT (R171). -/
  | vewMultiplyConstant (pen : Nat) (op : OpWord)
  /-- VEW_ADD_CONSTANT (R171). -/
  | vewAddConstant (pen : Nat) (op : OpWord)
  /-- VEW_CONVERT (R171). -/
  | vewConvert (pen : Nat) (op : OpWord)
  /-- VEW_EXP (R171). -/
  | vewExp (pen : Nat) (op : OpWord)
  /-- VEW_RECIPROCAL (R171). -/
  | vewReciprocal (pen : Nat) (op : OpWord)
  /-- VEW_RECIPROCAL_SQUARE_ROOT (R171). -/
  | vewReciprocalSquareRoot (pen : Nat) (op : OpWord)
  /-- VRED_SUM (R171). -/
  | vredSum (pen : Nat) (op : OpWord)
  /-- VRED_MAXIMUM (R171). -/
  | vredMaximum (pen : Nat) (op : OpWord)
  /-- VRED_SUM_OF_SQUARES (R171). -/
  | vredSumOfSquares (pen : Nat) (op : OpWord)
  /-- VRED_ARGMAX (R171). -/
  | vredArgmax (pen : Nat) (op : OpWord)
  /-- VRED_COMBINE (R171). -/
  | vredCombine (pen : Nat) (op : OpWord)
  /-- NORM_RMSNORM (R171). -/
  | normRmsnorm (pen : Nat) (op : OpWord)
  /-- NORM_LAYERNORM (R171). -/
  | normLayernorm (pen : Nat) (op : OpWord)
  /-- ACT_SILU (R171). -/
  | actSilu (pen : Nat) (op : OpWord)
  /-- ACT_GELU_ERF (R171). -/
  | actGeluErf (pen : Nat) (op : OpWord)
  /-- ACT_GELU_TANH (R171). -/
  | actGeluTanh (pen : Nat) (op : OpWord)
  /-- ACT_SWIGLU (R171). -/
  | actSwiglu (pen : Nat) (op : OpWord)
  /-- ROPE_HALF_PAIRS (R172). -/
  | ropeHalfPairs (pen : Nat) (op : OpWord)
  /-- ROPE_ADJACENT_PAIRS (R172). -/
  | ropeAdjacentPairs (pen : Nat) (op : OpWord)
  /-- OP_ATTN (R214). -/
  | opAttn (pen : Nat) (op : OpWord)
  /-- ROUTE_TOPK_SOFTMAX (R173). -/
  | routeTopkSoftmax (pen : Nat) (op : OpWord)
  /-- ROUTE_SOFTMAX_TOPK (R173). -/
  | routeSoftmaxTopk (pen : Nat) (op : OpWord)
  /-- ROUTE_SOFTMAX_TOPK_NORM (R173). -/
  | routeSoftmaxTopkNorm (pen : Nat) (op : OpWord)
  /-- OP_RACC (R175). -/
  | opRacc (pen : Nat) (op : OpWord)
  /-- OP_NOTIFY (R175). -/
  | opNotify (pen : Nat) (op : OpWord)
  /-- OP_BAR (R178). -/
  | opBar (pen : Nat) (op : OpWord)
  /-- BAR_COMPLETE (R178). -/
  | barComplete (pen : Nat)
  /-- BAR_TIMEOUT (R178). -/
  | barTimeout (pen : Nat)
  /-- OP_GATHER (R168). -/
  | opGather (pen : Nat) (op : OpWord)
  /-- OP_COPY (R168). -/
  | opCopy (pen : Nat) (op : OpWord)
  /-- OP_LOGITS (R255). -/
  | opLogits (pen : Nat) (op : OpWord)
  /-- SCROLL_LAYER_LOAD (R190). -/
  | scrollLayerLoad (pen : Nat)
  /-- MIGRATION_START (R43). -/
  | migrationStart (fold index : Nat)
  /-- MIGRATION_COMMIT (R43). -/
  | migrationCommit (fold index : Nat) (result : MigEnd)
  /-- MIGRATION_RELEASE (R43). -/
  | migrationRelease (fold index : Nat)
  /-- FAB_PACKET_RECEIVE (R340). -/
  | fabPacketReceive (port : Nat) (p : Packet)
  /-- FAB_READ (R343). -/
  | fabRead (p : Packet)
  /-- FAB_WRITE (R343). -/
  | fabWrite (p : Packet)
  /-- FAB_AREAD (R222). -/
  | fabAread (p : Packet)
  /-- FAB_FADD (R344). -/
  | fabFadd (p : Packet)
  /-- FAB_CAS (R344). -/
  | fabCas (p : Packet)
  /-- FAB_ACC (R345). -/
  | fabAcc (p : Packet)
  /-- FAB_NOTIFY (R347). -/
  | fabNotify (p : Packet)
  /-- FAB_FENCE (R348). -/
  | fabFence (p : Packet)
  /-- FAB_RESPONSE (R352). -/
  | fabResponse (p : Packet)
  /-- FAB_SEQUENCE_NACK (R350). -/
  | fabSequenceNack (p : Packet)
  /-- FAB_RETRY_EXPIRY (R353). -/
  | fabRetryExpiry (tag : W32)
  /-- WATCH_PROBE (R354). -/
  | watchProbe (device : Nat)
  /-- WATCH_SILENCE (R354). -/
  | watchSilence (device : Nat)
  /-- EGRESS_SELECT (R358). -/
  | egressSelect (port : Egress)
  /-- PORT_TRAINING (R332). -/
  | portTraining (port : Nat) (t : PortTrain)
  /-- PORT_TRAINING_RETRY (R332). -/
  | portTrainingRetry (port : Nat) (t : PortTrain)
  /-- PORT_FLIT_NAK (R332). -/
  | portFlitNak (port : Nat) (again : Bool)
  /-- PORT_DOWN (R332). -/
  | portDown (port : Nat)
  /-- LINK_TRAINING (R57). -/
  | linkTraining (lanes : Byte)
  /-- LINK_TRAINING_RETRY (R57). -/
  | linkTrainingRetry (lanes : Byte)
  /-- LINK_FLIT_NAK (R58). -/
  | linkFlitNak (again : Bool)
  /-- LINK_DOWN_LIMIT_EXPIRY (R60). -/
  | linkDownLimitExpiry
  /-- THERMAL_TRIP (R424). -/
  | thermalTrip (sensor : Nat)
  /-- WATCHDOG_EXPIRY (R457). -/
  | watchdogExpiry (cpu : Nat)
  /-- PLL_LOCK_LOSS (R457). -/
  | pllLockLoss (pll : Nat)
  /-- HBM_STACK_FAILURE (R457). -/
  | hbmStackFailure (stack : Nat)
  /-- SEC_SELF_CHECK_FAILURE (R457). -/
  | secSelfCheckFailure
  /-- HBM_SCRUB_PASS (R482). -/
  | hbmScrubPass (findings : List ScrubFinding)
  /-- COLD_RESET (R415). -/
  | coldReset (b : BootInputs)
  /-- WARM_RESET (R426). -/
  | warmReset (widthNs : Nat)
  /-- WARM_RESET_RESUME (R426). -/
  | warmResetResume
  /-- SELFTEST_REPORT (R430). -/
  | selftestReport
  /-- SCAN_UNLOCK (R412). -/
  | scanUnlock (token : List Byte)
  /-- SCAN_CHALLENGE_READ (R412). -/
  | scanChallengeRead (requester : Nat)
  /-- DRBG_RESEED (R411). -/
  | drbgReseed
  /-- ENTROPY_HEALTH_FAIL (R411). -/
  | entropyHealthFail
  /-- COMMIT_GO (R472). -/
  | commitGo (block : Nat)
  /-- COMMIT_APPLY (R472). -/
  | commitApply (block : Nat)
  /-- COMMIT_DISCARD (R473). -/
  | commitDiscard (block : Nat)
  /-- RING_ENABLE (R68). -/
  | ringEnable (ring : Nat)
  /-- RING_DISABLE (R68). -/
  | ringDisable (ring : Nat)
  /-- RING_RESET (R68). -/
  | ringReset (ring : Nat)
  /-- FOLD_FORM (R477). -/
  | foldForm (fold : Nat)
  /-- FOLD_ADD_RESOURCES (R477). -/
  | foldAddResources (fold : Nat)
  /-- FOLD_REMOVE_WAYS (R477). -/
  | foldRemoveWays (fold : Nat)
  /-- FOLD_REMOVE_PENS (R477). -/
  | foldRemovePens (fold : Nat)
  /-- FOLD_RELEASE (R408). -/
  | foldRelease (fold : Nat)
  /-- FOLD_RELEASE_DONE (R477). -/
  | foldReleaseDone (fold : Nat)
  /-- NAMESPACE_FORM (R313). -/
  | namespaceForm (fold : Nat)
  /-- NAMESPACE_FORMATION_DONE (R311). -/
  | namespaceFormationDone (fold : Nat)
  /-- NAMESPACE_RELEASE (R313). -/
  | namespaceRelease (fold : Nat)
  /-- NAMESPACE_RELEASE_DONE (R313). -/
  | namespaceReleaseDone (fold : Nat)
  /-- NAMESPACE_REBUILD (R317). -/
  | namespaceRebuild (fold : Nat)
  /-- FLASH_WRITE (R318). -/
  | flashWrite (fold index : Nat)
  /-- NAND_PROGRAM_COMPLETE (R317). -/
  | nandProgramComplete (fold : Nat)
  /-- NAND_PROGRAM_FAIL (R323). -/
  | nandProgramFail (fold unit : Nat)
  /-- NAND_ERASE_FAIL (R323). -/
  | nandEraseFail (fold superblock unit : Nat)
  /-- FLASH_READ (R316). -/
  | flashRead (fold lpn : Nat) (codewords : List CwOutcome)
  /-- GC_VICTIM_COPY (R322). -/
  | gcVictimCopy (fold : Nat)
  /-- GC_COMMIT (R322). -/
  | gcCommit (fold : Nat)
  /-- SLC_FOLD (R319). -/
  | slcFold (fold : Nat)
  /-- FOLD_IDLE_TIMER (R319). -/
  | foldIdleTimer (fold : Nat)
  /-- NAND_TEMP_SAMPLE (R327). -/
  | nandTempSample (fold : Nat) (celsius : Int)
  /-- LADDER_L1_ENTRY (R437). -/
  | ladderL1Entry (block : Nat)
  /-- LADDER_IDLE_EXPIRY (R437). -/
  | ladderIdleExpiry (block : Nat)
  /-- LADDER_WAKE (R439). -/
  | ladderWake (block : Nat)
  /-- THROTTLE_EVALUATION (R442). -/
  | throttleEvaluation (pestWatts : Nat)
  /-- CORE_UNDERVOLTAGE (R445). -/
  | coreUndervoltage (millivolts : Nat)
  /-- SENSOR_SAMPLE (R441). -/
  | sensorSample (junction stackTemps : List Int)
  /-- TEMP_HISTORY_SAMPLE (R449). -/
  | tempHistorySample
  /-- TALLY_DATA_READ (R147). -/
  | tallyDataRead (requester : Nat)
  /-- BIST_WARM_WRITE (R423). -/
  | bistWarmWrite (requester : Nat) (value : W64)
  /-- FAB_LOST_CLEAR (R355). -/
  | fabLostClear (device : Nat)
  /-- FAB_HWM_CLEAR (R359). -/
  | fabHwmClear (port : Nat) (queues : W16)
  /-- TLM_HIST_CLEAR (R447). -/
  | tlmHistClear (hists : Nat)
  /-- TLM_HWM_CLEAR (R448). -/
  | tlmHwmClear (marks : Nat)
  /-- REGISTER_WRITE (R469). -/
  | registerWrite (requester offset size : Nat) (value : W64)
  /-- I3C_PRIVATE_WRITE (R498). -/
  | i3cPrivateWrite (frame : List Byte)
  /-- I3C_PRIVATE_READ (R498). -/
  | i3cPrivateRead (frame : List Byte)
  /-- I3C_ENTDAA (R497). -/
  | i3cEntdaa (address : Nat)
  /-- I3C_SETDASA (R497). -/
  | i3cSetdasa (staticAddress address : Nat)
  /-- I3C_RSTDAA (R497). -/
  | i3cRstdaa
  /-- I3C_GETPID (R497). -/
  | i3cGetpid
  /-- I3C_GETBCR (R497). -/
  | i3cGetbcr
  /-- I3C_GETDCR (R497). -/
  | i3cGetdcr
  /-- I3C_GETSTATUS (R497). -/
  | i3cGetstatus
  /-- I3C_ENEC_DISEC (R497). -/
  | i3cEnecDisec (enable : Bool)
  /-- COLD_RESET_ASSERT (R423). -/
  | coldResetAssert (widthNs : Nat)
  /-- LINK_DOWN (R60). -/
  | linkDown
  /-- NAND_ERASE_COMPLETE (R322). -/
  | nandEraseComplete (fold superblock : Nat)
  /-- CORE_TARGET_CHANGE (R445). -/
  | coreTargetChange (millivolts : Nat)
  /-- TAP_INSTRUCTION (R489). -/
  | tapInstruction (op : TapOp)
  deriving DecidableEq, Repr

end Sys2Proof
end

