-- ==== Sys2Proof/Decode.lean ====
section
/-! DEFINITION. The command a word of the command table spells. The table gives no row of this block any bits: a command reaches
the block as a descriptor, a register access, a packet or an event, never as an instruction word. -/
namespace Sys2Proof

/-- The command a word of `nbits` bits spells by the command table's bits: none, since no row has bits. -/
def decodeTableWord (_nbits _w : Nat) : Option Instr := none

end Sys2Proof
end

