-- ==== Sys2Proof/Machine/State.lean ====
section
/-! DEFINITION. The state of the SK9 block as plain data: every register, table, queue, buffer, mode and pin the spec gives
it, and the queue of waiting commands. Times are local-timer values in µs. Fields the model adds for itself say so. -/
namespace Sys2Proof.Machine

/-- Sparse data by number, in one canonical form: keys strictly rising. -/
abbrev NMap (α : Type) := List (Nat × α)

/-- Why a step stops with a fault. -/
inductive Fault where
  /-- Raised by COLD_RESET_ASSERT and WARM_RESET for a pulse from 20 ns to 1 µs: the board must not produce one (20 R496,
  Table 20-7) and the spec gives it no effect. Safe: the model stops where the device may do anything. -/
  | boardPulse
  deriving DecidableEq, Repr

/-- Why a command has no meaning. -/
inductive Refusal where
  /-- Raised by an arm of `exec` whose command is not modelled. Safe. -/
  | notModelled (mnemonic : String)
  deriving DecidableEq, Repr

/-! ### Registers (19 R469 to R473) -/

/-- The commit registers of one block (Table 19-2): VIEW.ACTIVE, COMMIT_STATUS. -/
structure CommitReg where
  view : Bool
  state : Nat
  overrun : Bool
  reason : Nat
  offset : Nat
  seq : W32
  deriving DecidableEq, Repr

/-- The register file, by register key (window offset; ring r's own registers, reached through RING_SEL, have keys above
the window). `active` also holds the RW, LIVE and counter registers; `shadow` and `pend` hold SH registers only, where they
differ from the active copy. -/
structure RegFile where
  active : NMap W64
  shadow : NMap W64
  pend : NMap W64
  commit : NMap CommitReg
  deriving DecidableEq, Repr

/-! ### Link, rings, events, streams (03) -/

/-- The device's reads of host memory (R59, Table 3-1): how many are outstanding, and the bytes of completion space reserved for them. -/
structure LinkReads where
  reads : Nat
  space : Nat
  deriving DecidableEq, Repr

/-- The host link (R56 to R61): training result, when training last failed, replays of the current flit, when it went down, FATAL flits sent,
reads outstanding. -/
structure Link where
  up : Bool
  training : Bool
  width : Nat
  group : Nat
  everUp : Bool
  downSince : Option Nat
  failedReplays : Nat
  fatalFlits : List Nat
  trainedAt : Option Nat
  credit : LinkReads
  deriving DecidableEq, Repr

/-- A submission ring's running state (R67, R68): RING_STATE, a disable or reset under way, head, last T, descriptors
fetched and not yet begun, begun and not yet completed, and a FENCE that waits (R91). -/
structure Ring where
  state : Nat
  closing : Bool
  head : W32
  lastT : W32
  fetched : List (Nat × Desc)
  inflight : List (Nat × Desc)
  fence : Option Desc
  deriving DecidableEq, Repr

/-- An event record (R74, Table 3-6). -/
structure EventRec where
  type : Nat
  fold : Nat
  device : Bool
  overrun : Bool
  status : W16
  flags : W16
  ring : Option Nat
  session : W64
  tag : W16
  opcode : Nat
  count : Nat
  specific : List Byte
  deriving DecidableEq, Repr

/-- An event queue's running state (R72, R73, R79). -/
structure EventQueue where
  producer : W32
  cachedHead : W32
  backlog : List EventRec
  overrun : Bool
  headAt : Option Nat := none
  deriving DecidableEq, Repr

/-- One word of a stream queue (R86): data, even parity, poison tag. -/
structure StreamWord where
  data : W64
  parity : Bool
  poison : Bool
  deriving DecidableEq, Repr

/-- A packet of a stream queue (R86) with its packet-table entry: session, turn, words, byte count; the offset of its first
byte, and whether it ends the turn (END) and follows discarded text (DROPPED). -/
structure StreamPkt where
  session : W64
  turn : Nat
  words : List StreamWord
  bytes : Nat
  offset : Nat
  endOfTurn : Bool
  dropped : Bool
  deriving DecidableEq, Repr

/-- One bank of a stream queue (R86 to R89). -/
structure StreamBank where
  packets : List StreamPkt
  closed : Bool
  since : Option Nat
  levelDone : Bool
  deriving DecidableEq, Repr

/-! ### Sessions (04) -/

/-- The lease word (Table 4-5). LSTATE 0 HELD, 1 OFFERED, 2 ACCEPTED, 3 VOID. -/
structure Lease where
  holder : Nat
  lstate : Nat
  epoch : Nat
  deriving DecidableEq, Repr

/-- The peer word (Table 4-5). -/
structure Peer where
  device : Nat
  fold : Nat
  epoch : Nat
  deriving DecidableEq, Repr

/-- TEXT_STATE (10 R281, Table 10-6). -/
structure TextState where
  stopMatch : List Nat
  banNode : Nat
  forceSrc : Nat
  forceIndex : Nat
  forceNext : Nat
  scarry : List Byte
  uncountedTurn : Bool
  paramArmed : Bool
  countUsed : Nat
  replayNext : Nat
  replayEnd : Nat
  hold : List Byte
  deriving DecidableEq, Repr

/-- DRAFT_STATE (09 R252, Table 9-4). -/
structure DraftState where
  len : Nat
  probing : Bool
  rejectRun : Nat
  probeWait : Nat
  draftPos : Nat
  proposed : W64
  accepted : W64
  deriving DecidableEq, Repr

/-- The session record (04 R97, Table 4-1), field by field. -/
structure Record where
  sessionId : W64
  state : Nat
  priorState : Nat
  latencyCritical : Bool
  turnHeld : Bool
  turnCarried : Bool
  notReplayable : Bool
  imagePoisoned : Bool
  imgFmt : Nat
  lease : Lease
  peer : Peer
  offerDeadline : Nat
  lastActive : Nat
  parkAfter : Nat
  parkTier : Nat
  imageSlot : Nat
  ownerFold : Nat
  streamBase : Nat
  streamLog2 : Nat
  streamHead : Nat
  sessionRing : Nat
  streamProducer : W32
  turn : Nat
  textOffset : Nat
  context : Nat
  turnStart : Nat
  turnGen : Nat
  txBase : Nat
  tailSheets : Nat
  txHead : Nat
  txFirst : Nat
  imageRoot : Nat
  imageSheets : Nat
  snapStep : W64
  paramSheet : Nat
  seed : W64
  carry : List Byte
  created : Nat
  text : TextState
  draft : DraftState
  deriving DecidableEq, Repr

/-- How a turn ends: its status, END_REASON, stop index, bytes discarded inside a token, completion flags (R123, 10 R278). -/
structure TurnEnd where
  status : W16
  reason : Nat
  stopIndex : Nat
  discarded : Nat
  flags : W16
  deriving DecidableEq, Repr

/-- A turn that has been accepted and has not ended: the descriptor whose COMPLETION it owes, its limits and flags. `place` 0
queued for admission, 1 in the sequence table, 2 held (displaced). `detEnd` is the offset just past the determined text, hold
included; `cancel` a TURN_CANCEL that waits for the decision of the step; `rebuild` marks the re-prefill of a recovery that finds no turn in
progress (R116, R117). -/
structure Turn where
  opcode : Nat
  desc : Desc
  maxNew : Nat
  toolMask : Nat
  noGenerate : Bool
  handoff : Option (Nat × Nat)
  replaced : Nat
  flags : W16
  place : Nat
  detEnd : Nat
  cancel : Option Desc
  rebuild : Bool := false
  deriving DecidableEq, Repr

/-- A turn that has ended and waits for its END chunk (R91): its COMPLETION, the stop index of a SESSION_WAITING, and the
TURN_CANCEL that ended it. -/
structure Ending where
  turn : Nat
  opcode : Nat
  desc : Desc
  status : W16
  flags : W16
  spec : List Byte
  waiting : Option Nat
  cancel : Option Desc
  deriving DecidableEq, Repr

/-- A session that ends once its turn's END chunk is out (R101, R123): reason and status of SESSION_ENDED, and the
SESSION_CLOSE that asked for it. -/
structure Closing where
  reason : Nat
  status : W16
  desc : Option Desc
  deriving DecidableEq, Repr

/-- What waits for the home's acknowledgement of a transcript write (R100): the text to release and which of its bytes come from poisoned ones, the turn's end, the tokens written, and
the pen whose stream queue takes the text. -/
structure TxWait where
  text : List Byte
  bad : List Bool
  ending : Option TurnEnd
  tokens : Nat
  pen : Nat
  deriving DecidableEq, Repr

/-- A park under way (R104): target tier, the sheets that move, its descriptor (none for a policy park or a displacement).
`stopping` once R106 has stopped it, with the descriptor that did; `fell` once R105 has sent it on to T4. `asked` are the share holders whose
count is still to come, `holders` those that still move sheets. -/
structure Park where
  target : Nat
  left : List Nat
  desc : Option Desc
  stopping : Bool
  fell : Bool
  after : Option (Nat × Desc)
  asked : List Nat := []
  holders : List Nat := []
  deriving DecidableEq, Repr

/-- A revive under way (R107, R108): the sheets to promote by layer group (group 0 the page table, parameter and count sheets,
group l + 1 layer l), the layers this device has reported, its SESSION_REVIVE if it has one, whether it is a turn-out, and the parked state it began in. -/
structure Revive where
  groups : List (List Nat)
  layers : Nat
  desc : Option Desc
  turnOut : Bool
  source : Nat
  deriving DecidableEq, Repr

/-- A move or recovery under way (R113, R116): `stage` of the giver 0 swap pending, 1 offered; of the receiver 2 record being
read, 3 pulling, 4 swap pending; of a recovery 5 record being read, 6 swap pending, 7 transcript being read. Peer, epoch e+1, the
descriptor, the last lease poll, the giver's sheets pulled so far (its map index, the own one). `op` is a recovery's opcode, `step` the snapshot
step a restore has chosen. -/
structure Move where
  stage : Nat
  device : Nat
  fold : Nat
  epoch : Nat
  desc : Option Desc
  continueTurn : Bool
  lastPoll : Nat
  pulled : NMap Nat
  op : Nat := 0x0A
  step : Option Nat := none
  deriving DecidableEq, Repr

/-- A session this device is home of, owner of, or holds a share of: its record (one copy serves the home's record and the owner's working copy when
both are here) and what is under way for it. `fenceEpoch` is the sheet fence's epoch (R111); `kvNext` the first position without
KV entries; `restPrior` the PRIOR_STATE that an offer of a parked session has put by (log entry 35); `started` whether a turn has begun; `txCache` the transcript entries an owner away from the home has at hand;
`turnText` where the text of each turn it has run begins;
`history` the n-gram history sheet and `wet` the reserved wet sheets (09 R242, R244); `overflow` the first byte dropped (03 R83);
`resend` the next offset of a running resend (03 R84); `endWait` END chunks that wait for room (03 R507); `headAt` when the head word was last re-read (R84); `heldPoison` whether text held back comes from poisoned
bytes (R88); `share` whether this device holds sheets of the session on another member's behalf (R96); `away` the home's record while `record` is the
working copy of sheets that another owner's record does not tell of (R94, R96, R113). -/
structure Sess where
  record : Record
  isHome : Bool
  isOwner : Bool
  fenceEpoch : Nat
  fold : Nat
  turn : Option Turn
  endings : List Ending
  closing : Option Closing
  park : Option Park
  revive : Option Revive
  move : Option Move
  cachedHead : W32
  overflow : Option Nat
  resend : Option Nat
  endWait : List StreamPkt
  txWait : Option TxWait
  txCache : NMap W64
  history : Option Nat
  wet : Option (List Nat)
  parkTried : Nat
  restPrior : Nat
  kvNext : Nat
  started : Bool
  turnText : NMap Nat
  headAt : Option Nat := none
  heldPoison : Bool := false
  share : Bool := false
  away : Option Record := none
  restored : Option Nat := none
  deriving DecidableEq, Repr

/-! ### Shepherd (05) -/

/-- A sequence-table entry (R127, Table 5-1). PHASE 0 FREE, 1 PREFILL, 2 GENERATE, 3 SUSPENDED, 4 LEAVING; READY none while
not waiting. `heldLayer` is the layer a turn-out is held at (04 R108). -/
structure SeqEntry where
  session : W64
  phase : Nat
  lc : Bool
  reviving : Bool
  movePending : Bool
  pen : Nat
  layerLimit : Nat
  resumeLayer : Nat
  epoch : Nat
  prefillNext : Nat
  lastStep : Nat
  ready : Option Nat
  heldLayer : Option Nat
  deriving DecidableEq, Repr

/-- A request for admission (R129, R130): `granted` when a free slot is promised to it at the next commit point, else it stands in
the admission queue; `owner` the member it comes from, none for this device's own (R126). -/
structure AdmitReq where
  session : W64
  lc : Bool
  arrival : Nat
  granted : Bool
  owner : Option Nat := none
  deriving DecidableEq, Repr

/-- The counters of one class (R141, Table 5-5). -/
structure ClassCounters where
  waitTotal : W64
  waitMax : Nat
  preemptions : W64
  steps : W64
  tokens : W64
  prefillTokens : W64
  admissions : W64
  deferrals : W64
  deriving DecidableEq, Repr

/-- One entry of a work list (R134): a generation entry with its proposal limit, a prefill chunk of n tokens, or a resumed
chunk from a layer. -/
structure WorkItem where
  dseq : Nat
  chunk : Nat
  first : Nat
  limit : Nat
  resume : Option Nat
  deriving DecidableEq, Repr

/-- A row of the row table (06 R162): DSEQ, position, token, wet, the logits assembled for it. -/
structure Row where
  dseq : Nat
  position : Nat
  token : Nat
  wet : Bool
  poisoned : Bool
  logits : NMap W32
  deriving DecidableEq, Repr

/-- An ATTN that waits for attending reads (08 R222): the operation, the answers still out, and those come in, by DSEQ, KV head, first
row and member. -/
structure AttnWait where
  op : OpWord
  left : Nat
  got : List ((Nat × Nat × Nat × Nat) × List Byte)
  deriving DecidableEq, Repr

/-- A step in progress (R18, 06 R180): its number and attempt, the list it runs, the rows of all passes, the layer limits it began
with, an ATTN that waits, the proposals of each sequence, the judgement once made, ABORT and SUSPEND, the sequences whose rows are
poisoned or discarded for quota, and the attending reads answered in it: request payload, status, response payload (08 R222). -/
structure Step where
  number : Nat
  attempt : Nat
  items : List WorkItem
  rows : List Row
  limits : NMap Nat
  attn : Option AttnWait
  proposals : NMap (List Nat)
  verdicts : Option (List SeqVerdict)
  abort : Bool
  suspend : Bool
  poisonedSeqs : List Nat
  quotaSeqs : List Nat
  served : List (List Byte × W16 × List Byte) := []
  deriving DecidableEq, Repr

/-- A drain of a fold (R132): kind 0 ROLE_SET, 1 MODEL_ACTIVATE, 2 DROVE_REBALANCE, 3 leave; its deadline, its descriptor and
its argument (role or slot); `loading` once the boundary of R201 step 3 has passed, `depth` the window depth read when it was accepted (07 R188).
`issuer` is the member that its descriptor came to, where that is another one; `led` says that the root runs it for this member (04 R121). -/
structure Drain where
  kind : Nat
  deadline : Nat
  desc : Desc
  arg : Nat
  loading : Bool
  boundary : Nat
  depth : Nat := 0
  issuer : Option Nat := none
  led : Bool := false
  deriving DecidableEq, Repr

/-! ### Tiers (02) -/

/-- What Scroll holds of a weight tile sheet beside its map entry (07 R185, Table 7-1): transform, part, image slot, pen, role, first tile. -/
structure TileHead where
  transform : Nat
  part : Nat
  slot : Nat
  pen : Nat
  role : Nat
  first : Nat
  deriving DecidableEq, Repr

/-- A backed sheet's map entry (R31, Table 2-3) and the two ages the placement rules use: last access (R37) and the drove
step of the last read (08 R225). FOLD is the fold that holds the map. `tile` is given for weight tiles only (07 R185). -/
structure Sheet where
  tier : Nat
  keygen : Nat
  snap : Bool
  wet : Bool
  migrating : Bool
  comp : Nat
  shuf : Nat
  kind : Nat
  refs : Nat
  len : Nat
  loc : Nat
  lastAccess : Nat
  lastRead : Nat
  tile : Option TileHead := none
  deriving DecidableEq, Repr

/-- A migration (R43): its phase (1 requested, 2 to 5 under way, 7 committed and waiting for the old accesses), target
tier and location, writes met (R45), the old location, the new form's length. -/
structure Mig where
  phase : Nat
  target : Nat
  targetPen : Option Nat
  writes : Nat
  newLoc : Nat
  oldTier : Nat
  oldLoc : Nat
  len : Nat
  deriving DecidableEq, Repr

/-! ### Model images (07) -/

/-- One layer of an image's layer table (Table 7-4, 08 R236). -/
structure LayerInfo where
  qHeads : Nat
  kvHeads : Nat
  hdim : Nat
  moe : Bool
  sliding : Bool
  experts : Nat
  topk : Nat
  window : Nat
  streamTiles : Nat
  scale : W32
  kScale : W32
  vScale : W32
  deriving DecidableEq, Repr

/-- A registered image (R194 to R200): digest and layer-table preamble, layers, programs, tables, the addresses of its
payload as stored, its sheets. -/
structure Image where
  digest : List Byte
  members : Nat
  pensFor : Nat
  vocab : Nat
  modelWidth : Nat
  ffWidth : Nat
  cpt : Nat
  rowCap : Nat
  fixedSlots : Nat
  groupSlots : Nat
  draftWays : Nat
  draftLayers : Nat
  draftCpt : Nat
  draftModel : Bool
  layers : List LayerInfo
  program : List OpWord
  draftProgram : List OpWord
  binding : List W64
  constants : List W32
  descriptors : List (List Byte)
  payload : List Byte
  store : Nat
  ownSheets : List Nat
  understudySheets : List Nat
  hbmBase : Nat
  deriving DecidableEq, Repr

/-- A weight sheet of a registration that stores in flash (07 R200 step 7): its map index, tile header, content, and the T3 slot and length once its
write has been accepted. -/
structure RegSheet where
  index : Nat
  tile : Option TileHead
  content : List Byte
  slot : Option (Nat × Nat)
  deriving DecidableEq, Repr

/-- A MODEL_REGISTER that waits (07 R200): its descriptor, the container as read, the image with the sheets written so far, the sheets still to be
written or not yet durable, how many sheets it writes in all; `begun` once the namespace no longer rebuilds (step 5). -/
structure Registration where
  desc : Desc
  container : List Byte
  image : Image
  begun : Bool
  left : List RegSheet
  total : Nat
  deriving DecidableEq, Repr

/-! ### Recall (11): the index itself lies in the fold's sheets -/

/-- A merge under way (R297): M_SEQ, side entries still to fold, placed and freed so far, its descriptor. -/
structure Merge where
  mSeq : Nat
  left : Nat
  placed : Nat
  freed : Nat
  desc : Desc
  deriving DecidableEq, Repr

/-- The Recall engine's queues of one fold (R291, R294): waiting queries in fetch order, the merge. -/
structure Recall where
  waiting : List Desc
  merge : Option Merge
  deriving DecidableEq, Repr

/-! ### Flash (12) -/

/-- A superblock (R311): mode 0 free, 1 buffer (SLC), 2 native open, 3 native closed, 4 buffer closed, 5 being copied or
erased; erase count; WSEQ when it closed; units retired; marked for refresh; pages programmed. -/
structure SuperBlock where
  mode : Nat
  erases : Nat
  closedAt : Nat
  badUnits : List Nat
  refresh : Bool
  written : Nat
  deriving DecidableEq, Repr

/-- What a rebuild reads of a page on the NAND (R315, R317): the metadata of its codewords, its PPN, and the LPNs that a TRIM page lists, as ranges
(first, count). -/
structure NandPage where
  info : List Byte
  ppn : Nat
  trims : List (Nat × Nat)
  deriving DecidableEq, Repr

/-- A flash write accepted and not yet durable (R317): the LPNs and PPNs programmed, and the sheet it stores, none for a
copy. -/
structure FlashOp where
  index : Option Nat
  pages : List (Nat × Nat)
  deriving DecidableEq, Repr

/-- A garbage-collection or folding copy (R319, R322): victim, target, pages copied (LPN, old PPN, new PPN). -/
structure GcCopy where
  victim : Nat
  target : Nat
  copied : List (Nat × Nat × Nat)
  fold : Bool
  deriving DecidableEq, Repr

/-- The last complete checkpoint (R317): the map, state, WSEQ covered. -/
structure Checkpoint where
  map : NMap Nat
  state : Nat
  wseq : Nat
  deriving DecidableEq, Repr

/-- A namespace (R310 to R329). State 0 ABSENT, 1 FORMING, 2 NORMAL, 3 REBUILDING, 4 READ_ONLY, 5 RELEASING. `map` holds
the mapped LPNs (0xFFFF_FFFE poisoned); `log` the data and TRIM pages programmed since the checkpoint, which survive a cold reset on the NAND.
`sealedState` is a READ_ONLY recorded during a rebuild; `sealedG` and `sealedKeys` are the sealed key record (15 R404): generation, sealing key,
current key, old key if any. -/
structure Namespace where
  state : Nat
  mask : Nat
  units : Nat
  places : List Nat
  good : Nat
  spareInitial : Nat
  spareLeft : Nat
  factoryBad : Nat
  grownBad : Nat
  slots : Nat
  slotsUsed : List Nat
  map : NMap Nat
  blocks : NMap SuperBlock
  openBuffer : Option Nat
  openNative : Option Nat
  openGc : Option Nat
  writes : List FlashOp
  gc : Option GcCopy
  gcRunning : Bool
  wseq : Nat
  sinceCheckpoint : Nat
  checkpoint : Option Checkpoint
  log : List NandPage
  lastWrite : Nat
  hostPages : W64
  nandPages : W64
  cwHard : W64
  cwSoft : W64
  readRetries : W64
  cwBad : W64
  programFails : Nat
  eraseFails : Nat
  gcRestarts : Nat
  tempHist : NMap W64
  tempLast : List Int
  tempMax : Option Int
  armed : Nat
  badLog : List W64
  lastTemp : Nat
  discards : List Desc
  sealedState : Nat
  sealedG : Nat
  sealedKeys : List (List Byte)
  deriving DecidableEq, Repr

/-! ### Snapshots, joins, keys (14, 15, 18) -/

/-- The snapshot engine of one fold (14). STATE as in SNAP_STATUS. `marked` are the capture-set sheets not yet drained, `copies`
second-copy slots (sheet index, content), `fail` the status a shard or cut that failed ends with, `dir` the directory entries, `sessions` and
`data` the sessions captured and their records at the cut. `written` counts the store sheets written, `digest` is the shard's once its header is
out, `reported` says that this member has reported. `job` is the descriptor of a shrink or restore under way. `lostMember` is the
member a shrink takes over, `absorbed` (lost index, its predecessor), `share` where the lost member's captured sheets are here. `restores` holds, by session (0 for all of them), the step a restore has chosen, its status and its report
entries; `kept` where the shared sheets it has restored are. `reports` are, at the root, the shards that other members have reported, `poisonedCopies` the
second copies whose sheet was poisoned. -/
structure Snap where
  state : Nat
  slot : Nat
  step : Nat
  marked : List Nat
  copies : NMap (List Byte)
  fail : Option W16
  dir : List (List Byte)
  sessions : List W64
  data : List (List Byte)
  drainedMs : Nat × Nat
  written : Nat
  digest : Option (List Byte)
  reported : Bool
  lastStep : W64
  halted : Bool
  job : Option Desc
  lostMember : Option Nat
  absorbed : List (Nat × Nat)
  share : NMap Nat
  restores : NMap (W64 × W16 × Nat)
  kept : NMap Nat
  reports : List ShardReport := []
  poisonedCopies : List Nat := []
  deriving DecidableEq, Repr

/-- A join pending on this fold (18 R463). -/
structure Join where
  desc : Desc
  drove : W32
  members : List Nat
  index : Nat
  deadline : Nat
  reports : NMap W16
  deriving DecidableEq, Repr

/-- A fold's ephemeral key pair with its nonce (15 R399). -/
structure Ephemeral where
  secret : List Byte
  pub : List Byte
  nonce : List Byte
  created : Nat
  deriving DecidableEq, Repr

/-- A fold's key state and key store (15 R401 to R406). State 0 NONE, 1 LIVE, 2 SWEEPING. -/
structure FoldKey where
  state : Nat
  g : W32
  current : List Byte
  old : List Byte
  next : Option (List Byte × Desc)
  sweepLeft : Nat
  sweepAt : Nat
  passEnd : Option Nat
  sweptMs : Nat × Nat
  oldSlots : Nat
  imageKeys : List (List Byte × List Byte)
  ownerKeys : List (List Byte × List Byte)
  ephemeral : Option Ephemeral
  scrubLeft : Nat
  deriving DecidableEq, Repr

/-- A prefix-index entry (08 R231): 128 tokens, parent, image slot, last use, child count, and this member's pages of the block. A member that is not
the root keeps the pages alone. -/
structure PrefixEntry where
  tokens : List Nat
  parent : Option Nat
  slot : Nat
  lastUse : Nat
  children : Nat
  pages : List Nat
  deriving DecidableEq, Repr

/-- What a work list says of the prefix index (08 R231): block `block` of a session registered as an entry, an entry's block shared to a sequence, an
entry dropped. -/
inductive PrefixOp where
  | register (session : W64) (block entry : Nat)
  | share (dseq entry : Nat)
  | drop (entry : Nat)
  deriving DecidableEq, Repr

/-- A work list as the root publishes it (05 R126, R134): the step, the attempt, whether it is an empty step; a pending cut's step and slot (14 R367);
the entries, every sequence that holds a slot, the layer limit of each reviving one (04 R108), the changes of the prefix index (08 R231); the sessions
displaced, with what stands ahead of each (05 R131); the drain whose boundary the step was: kind, argument, its step, window depth (04 R121, 07 R201). -/
structure Posting where
  number : Nat
  attempt : Nat
  empty : Bool
  cut : Option (Nat × Nat)
  items : List WorkItem
  roster : List (Nat × W64)
  limits : List (Nat × Nat)
  ops : List PrefixOp
  displaced : List (W64 × Nat)
  drained : Option (Nat × Nat × Nat × Nat)
  deriving DecidableEq, Repr

/-- The slices that one LOGITS operation of another member has handed to the root (10 R255): the device, the step and its attempt, and for each row its
number in the step, the first token ID, whether it is poisoned, the logits. -/
structure LogitNews where
  source : Nat
  step : Nat
  attempt : Nat
  rows : List (Nat × Nat × Bool × List W32)
  deriving DecidableEq, Repr

/-- What an owner gives the other members of a session whose turn it has accepted (04 R96, 05 R126): its working copy, the first position without KV
entries, whether the turn is a recovery's re-prefill and whether it is to be handed off, the step of the snapshot that the owner's image comes from where
it does, the parameter sheet, the count table, the transcript entries from TX_FIRST on. -/
structure Seat where
  record : Record
  kvNext : Nat
  rebuild : Bool
  handoff : Bool
  params : List Byte
  counts : List Byte
  entries : List W64
  step : Option Nat := none
  deriving DecidableEq, Repr

/-- A compaction under way (08 R230): session, layer, list, the run of pages, and the new ones. -/
structure Compact where
  session : W64
  layer : Nat
  list : Nat
  run : List Nat
  fresh : List Nat
  deriving DecidableEq, Repr

/-- A fold (00 R6). STATUS 0 NONE, 1 forming, 2 FORMED, 3 RELEASING. `pens` and `ways` are the resources bound;
`quotaOut` lists the sheets that leave a tier for a lower quota, with that tier (02 R39), and `expanded` the expanded sheets of each
streamed layer of each pen of the share (07 R193), by layer × 64 + pen. Of the exchange between the members of a drove it keeps: `seats` that wait for
their session's last entry to go; at the root, the sessions displaced and the drain's boundary that the next list tells of, and whether an empty step
waits for its acknowledgements; at the others, the sequences that the last list names, and a list that is ahead of the step number; `reserved` the
draft reservations reported (at the root by session and member, elsewhere the own ones, 09 R244); `layersIn` the layers that each other holder of a
reviving session has reported (04 R108): session, turn, member, layers; at the root `slices` the logits that other members have handed in (10 R255), and
`joinOver` how a join came to nothing: drove, status, the index named (18 Table 18-7). -/
structure Fold where
  status : Nat
  releaseStep : Nat
  pens : W64
  ways : W64
  sheets : NMap Sheet
  migs : NMap Mig
  requests : List (Nat × Nat)
  quotaOut : NMap Nat
  moveFail : NMap W16
  quota : NMap Nat
  quotaEvent : NMap Nat
  role : Nat
  drain : Option Drain
  seqs : NMap SeqEntry
  queue : List AdmitReq
  victims : List (Nat × Nat)
  nextWork : List WorkItem
  stepNo : Nat
  step : Option Step
  attempts : Nat
  lcCount : ClassCounters
  beCount : ClassCounters
  acctPage : Nat
  acctFrom : Nat
  images : NMap Image
  registering : NMap Registration
  active : Option Nat
  streamed : Bool
  faulted : Bool
  depthUsed : Nat
  pinned : Nat
  draftWaysUsed : Nat
  cacheWays : Nat
  prefix_ : NMap PrefixEntry
  prefixNews : List PrefixOp
  rcl : Recall
  ns : Namespace
  snap : Snap
  key : FoldKey
  join : Option Join
  members : List Nat
  cutAt : Option (Nat × Nat)
  compacts : List Compact
  expanded : NMap (List Nat)
  seats : List Seat := []
  displaced : List (W64 × Nat) := []
  drained : Option (Nat × Nat × Nat × Nat) := none
  awaiting : Bool := false
  roster : List (Nat × W64) := []
  posted : Option Posting := none
  reserved : List (W64 × Nat) := []
  layersIn : List (W64 × Nat × Nat × Nat) := []
  slices : List LogitNews := []
  joinOver : Option (W32 × W16 × Nat) := none
  deriving DecidableEq, Repr

/-! ### Pens (06, 07) -/

/-- A barrier that waits (06 R178). -/
structure BarWait where
  ctr : Nat
  count : Nat
  since : Nat
  deriving DecidableEq, Repr

/-- A window group of a streamed image (07 R188 to R191): the layer it holds and whether it is ready. -/
structure Group where
  layer : Option Nat
  ready : Bool
  deriving DecidableEq, Repr

/-- The step control word (06 R177). -/
structure StepWord where
  abort : Bool
  suspend : Bool
  limits : NMap Nat
  deriving DecidableEq, Repr

/-- Accumulation progress of one round at this pen (13 R345): contributions applied, by fragment. -/
structure AccRound where
  applied : NMap Nat
  attempt : Nat
  deriving DecidableEq, Repr

/-- A pen (06 R151) with its stream queue (03 R86). `pass` counts the row passes done and `opIndex` the operations of the running one, `layer` is the
last LAYER issued, `route` the route list last written in the pass (address, K), `stallSince` when a LAYER began to wait for its group, `waiting` packets released
to a full stream queue (03 R87). `program` and `binding` are the main program and the resolved binding table that an activation has put into the pen
(06 R161), `section_` the layer whose section runs (07 R189), `dropped` says that an abandoned step's window waits for a published step (07 R192). -/
structure Pen where
  fillBank : Nat
  bank0 : StreamBank
  bank1 : StreamBank
  reread : Option StreamPkt
  notify : NMap W32
  saturated : List Nat
  bar : Option BarWait
  running : Bool
  pass : Nat
  opIndex : Nat
  layer : Nat
  excluded : List Nat
  route : Option (Nat × Nat)
  groups : List Group
  nextLayer : Nat
  stallSince : Option Nat
  raccCount : Nat
  raccMark : Nat
  accs : NMap AccRound
  hold : List Packet
  word : Option StepWord
  waiting : List StreamPkt
  program : List OpWord := []
  binding : List (Option Nat) := []
  section_ : Option Nat := none
  dropped : Bool := false
  deriving DecidableEq, Repr

/-! ### Fabric (13) -/

/-- One entry of a gate list (R360): open mask and duration in ns. -/
structure GateEntry where
  mask : W16
  ns : Nat
  deriving DecidableEq, Repr

/-- A fabric port (R332, R335, R358 to R362): training result, egress queues with each packet's entry time, WFQ state,
high-water marks by queue, gate lists, the packet last put on the wire, the credits held for each virtual channel of the neighbour (R333), and
when training last failed. -/
structure Port where
  state : Nat
  cause : Nat
  nrev : Nat
  width : Nat
  neighbour : Nat
  nport : Nat
  failedReplays : Nat
  queues : NMap (List (Packet × Nat))
  v : Nat
  finish : NMap Nat
  head : NMap Nat
  depthMark : NMap Nat
  sojournMark : NMap Nat
  gates : Option (List GateEntry)
  gateIndex : Nat
  pendingGates : Option (List GateEntry × Nat)
  wire : Option Packet
  credits : List Nat
  trainedAt : Option Nat
  deriving DecidableEq, Repr

/-- A packet that waits for room in a full egress queue (R357): the input port it holds a buffer of (none: it is the device's own), its output
port. -/
structure Withheld where
  input : Option Nat
  out : Nat
  packet : Packet
  deriving DecidableEq, Repr

/-- What an outstanding request message is for (R341): the engine that waits for its response. -/
inductive Purpose where
  | other
  | probe
  | leaseOffer (session : W64)
  | leaseAccept (session : W64)
  | leaseConfirm (session : W64)
  | leasePoll (session : W64)
  | examine (session : W64)
  | leaseRecover (session : W64)
  | pull (session : W64)
  | append (session : W64)
  | transcript (session : W64)
  | attend (fold dseq head row member : Nat)
  | reduction (pen : Nat)
  | replica (fold : Nat)
  | joinReport (fold : Nat)
  | record (session : W64)
  | askSlot (session : W64)
  | posting (fold : Nat)
  | parkAsk (session : W64)
  | drain (fold : Nat)
  deriving DecidableEq, Repr

/-- A request message (R341, R353): the packet with its whole payload, `sent` unless it still waits at the source (R341, R350), and
the response's fragments received. `bad` are the poisoned 64-byte units of the payload. -/
structure OutMsg where
  packet : Packet
  bad : List Nat
  purpose : Purpose
  fold : Option Nat
  desc : Option (Nat × Desc)
  sent : Bool
  firstSent : Nat
  lastSent : Nat
  response : NMap Packet
  deriving DecidableEq, Repr

/-- The fabric unit: outstanding messages by tag, ordered streams by destination and by source, saved responses by source, sequence NACKs sent,
devices declared lost, when each device was last heard and probed, packets delivered and not yet performed, request fragments performed whose
message has more to come. -/
structure Fabric where
  outstanding : NMap OutMsg
  nextTag : Nat
  txSeq : NMap W16
  rxSeq : NMap W16
  saved : NMap (List Packet)
  nackAt : NMap Nat
  lost : List Nat
  heard : NMap Nat
  probed : NMap Nat
  ports : NMap Port
  inbox : List Packet
  gather : List Packet
  withheld : List Withheld
  deriving DecidableEq, Repr

/-! ### Security, boot, power, telemetry, I3C, TAP (15, 16, 17, 18, 20) -/

/-- SEC (15 R390 to R412): `stages` in the order of Table 15-4, `chain` the factory certificates and `aliasCert` the alias certificate. -/
structure Sec where
  seed : Option (List Byte)
  identityOk : Bool
  factoryOk : Bool
  tainted : Bool
  drbgOk : Bool
  entropyFail : Bool
  stages : List StageLoad
  measurement : List Byte
  ak : Bool
  requests : Nat
  lastReseed : Nat
  challenge : List W64
  challengeRead : Nat
  chain : List (List Byte)
  aliasCert : List Byte
  deriving DecidableEq, Repr

/-- The self-test and boot record and the pins (16 R417 to R431, 20 R488). `warmPin` is the level of WARM_RST_N's request. -/
structure Boot where
  status : Nat
  cause : Nat
  lbistTaint : Bool
  strap : Nat
  warmCount : W32
  fencePens : W64
  fencePorts : Nat
  fenceStacks : Nat
  fenceLink : Nat
  fenceFlash : Nat
  checksFailed : Nat
  lbist : Nat
  durationUs : Nat
  report : Option Nat
  factory : Option FactoryRecord
  firmware : Firmware
  chipEnables : List Nat
  chipEnablesFenced : List Nat
  faultN : Bool
  thermTripN : Bool
  evidenceWarm : Bool
  deriving DecidableEq, Repr

/-- A ladder block (17 R436): L0 to L4 and when its last work was. -/
structure Ladder where
  level : Nat
  since : Nat
  deriving DecidableEq, Repr

/-- Power, sensors and telemetry (17). -/
structure Power where
  ladder : NMap Ladder
  duty : Nat
  dutyAt : Nat
  tmax : Int
  pest : Nat
  undervolt : Bool
  coreTarget : Nat
  samples : NMap Int
  stackTemps : NMap Int
  refresh2x : List Nat
  halfRate : List Nat
  hist : NMap W64
  marks : NMap Int
  markSensor : Nat
  tempBins : NMap W64
  tempLast : List Int
  throttle : NMap W64
  pllLock : Nat
  deriving DecidableEq, Repr

/-- Corrected errors of one unit (18 R455): corrections since its last record, and when that was written. -/
structure CeUnit where
  since : Nat
  last : Option Nat
  deriving DecidableEq, Repr

/-- The I3C target (20 R497, R498): dynamic address, the held result, and a malformed frame to report once; `out` is what
the last transfer or common command code returned. -/
structure I3c where
  dynamic : Option Nat
  result : Option (Byte × W64)
  malformed : Bool
  out : List Byte
  deriving DecidableEq, Repr

/-- The state of the block. `readData` is the value last returned on the link's read path; `freeCount` is the model's own
field: it numbers the free values drawn (Config). `tap` is the TAP instruction in force. -/
structure State where
  pending : List Instr
  freeCount : Nat
  timer : W64
  regs : RegFile
  mem : List Host.Cell
  hostMem : List Host.Cell
  poison : List Nat
  link : Link
  rings : NMap Ring
  eqs : NMap EventQueue
  undelivered : List EventRec
  readData : W64
  sessions : NMap Sess
  folds : NMap Fold
  pens : NMap Pen
  tally : NMap (BitVec 24)
  fab : Fabric
  sec : Sec
  boot : Boot
  power : Power
  errors : NMap CeUnit
  dropped : NMap W64
  i3c : I3c
  tap : TapOp
  deriving DecidableEq, Repr

/-! ### Reset values -/

/-- A ring after reset: DISABLED (03 R68). -/
def Ring.reset : Ring := ⟨0, false, 0, 0, [], [], none⟩
/-- An event queue after reset: disabled (19 Table 19-9), producer 0 (03 R72). -/
def EventQueue.reset : EventQueue := ⟨0, 0, [], false, none⟩
/-- An empty stream bank. -/
def StreamBank.reset : StreamBank := ⟨[], false, none, false⟩
/-- A pen after reset: empty stream queue, counters 0, no program (06, 19 Table 19-14). -/
def Pen.reset : Pen :=
  { fillBank := 0, bank0 := StreamBank.reset, bank1 := StreamBank.reset, reread := none, notify := [],
    saturated := [], bar := none, running := false, pass := 0, opIndex := 0, layer := 0, excluded := [], route := none,
    groups := [], nextLayer := 0, stallSince := none, raccCount := 0, raccMark := 0, accs := [], hold := [], word := none,
    waiting := [] }
/-- Counters at the fold's creation (05 R141). -/
def ClassCounters.reset : ClassCounters := ⟨0, 0, 0, 0, 0, 0, 0, 0⟩
/-- No recall query, no merge. -/
def Recall.reset : Recall := ⟨[], none⟩
/-- ABSENT (12 Table 12-7). -/
def Namespace.reset : Namespace :=
  { state := 0, mask := 0, units := 0, places := [], good := 0, spareInitial := 0, spareLeft := 0, factoryBad := 0, grownBad := 0, slots := 0,
    slotsUsed := [], map := [], blocks := [], openBuffer := none, openNative := none, openGc := none, writes := [], gc := none,
    gcRunning := false, wseq := 0, sinceCheckpoint := 0, checkpoint := none, log := [], lastWrite := 0, hostPages := 0,
    nandPages := 0, cwHard := 0, cwSoft := 0, readRetries := 0, cwBad := 0, programFails := 0, eraseFails := 0, gcRestarts := 0,
    tempHist := [], tempLast := [], tempMax := none, armed := 15, badLog := [], lastTemp := 0, discards := [], sealedState := 0,
    sealedG := 0, sealedKeys := [] }
/-- Idle, SNAP_LAST_STEP all ones (14 Table 14-7). -/
def Snap.reset : Snap :=
  { state := 0, slot := 0, step := 0, marked := [], copies := [], fail := none, dir := [], sessions := [], data := [],
    drainedMs := (0, 0), written := 0, digest := none, reported := false, lastStep := BitVec.allOnes 64, halted := false
    job := none, lostMember := none, absorbed := [], share := [], restores := [], kept := [] }
/-- NONE (15 Table 15-11). -/
def FoldKey.reset : FoldKey :=
  { state := 0, g := 0, current := [], old := [], next := none, sweepLeft := 0, sweepAt := 0, passEnd := none, sweptMs := (0, 0),
    oldSlots := 0, imageKeys := [], ownerKeys := [], ephemeral := none, scrubLeft := 0 }
/-- A fold that is not formed: STATUS NONE, nothing bound, quotas 0, role decode (19 R477). -/
def Fold.reset : Fold :=
  { status := 0, releaseStep := 0, pens := 0, ways := 0, sheets := [], migs := [], requests := [], quotaOut := [], moveFail := [], quota := [], quotaEvent := [],
    role := 0, drain := none, seqs := [], queue := [], victims := [], nextWork := [], stepNo := 0, step := none,
    attempts := 0, lcCount := ClassCounters.reset, beCount := ClassCounters.reset, acctPage := 0, acctFrom := 0, images := [], registering := [],
    active := none, streamed := false, faulted := false, depthUsed := 0, pinned := 0, draftWaysUsed := 0, cacheWays := 0,
    prefix_ := [], rcl := Recall.reset, ns := Namespace.reset, snap := Snap.reset, key := FoldKey.reset, join := none,
    members := [], cutAt := none, compacts := [], expanded := [], prefixNews := [] }
/-- A port after reset: down, no lists, every gate open (13 Table 13-5). -/
def Port.reset : Port :=
  { state := 0, cause := 0, nrev := 0, width := 0, neighbour := 0, nport := 0, failedReplays := 0, queues := [], v := 0,
    finish := [], head := [], depthMark := [], sojournMark := [], gates := none, gateIndex := 0, pendingGates := none,
    wire := none, credits := [0, 0, 0, 0], trainedAt := none }
/-- No commit yet (19 Table 19-2). -/
def CommitReg.reset : CommitReg := ⟨false, 0, false, 0, 0, 0⟩
/-- The fabric after reset. -/
def Fabric.reset : Fabric := ⟨[], 0, [], [], [], [], [], [], [], [], [], [], []⟩
/-- SEC after reset (15 Table 15-11). -/
def Sec.reset : Sec := ⟨none, false, false, false, false, false, [], [], false, 0, 0, [], 0, [], []⟩
/-- The boot record with COLD_RST_N low: STATUS 0x0, outputs in their reset state (16 Table 16-5, 20 Table 20-2). -/
def Boot.reset : Boot :=
  { status := 0, cause := 0, lbistTaint := false, strap := 0, warmCount := 0, fencePens := 0, fencePorts := 0, fenceStacks := 0,
    fenceLink := 0, fenceFlash := 0, checksFailed := 0, lbist := 0, durationUs := 0, report := none, factory := none, firmware := ⟨0, 0, 0, 0, 0, 0, 0, 0, 0⟩,
    chipEnables := [], chipEnablesFenced := [], faultN := true, thermTripN := true, evidenceWarm := false }
/-- Power and telemetry after reset: duty 8/8 (19 Table 19-12), histograms and marks empty. -/
def Power.reset : Power :=
  { ladder := [], duty := 8, dutyAt := 0, tmax := 0, pest := 0, undervolt := false, coreTarget := 0, samples := [],
    stackTemps := [], refresh2x := [], halfRate := [], hist := [], marks := [], markSensor := 0, tempBins := [], tempLast := [],
    throttle := [], pllLock := 0 }

/-- The block while COLD_RST_N is low: every register at its reset value, nothing queued (16, 19). -/
def State.reset : State :=
  { pending := [], freeCount := 0, timer := 0, regs := ⟨[], [], [], []⟩, mem := [], hostMem := [], poison := [],
    link := ⟨false, false, 0, 0, false, none, 0, [], none, ⟨0, 0⟩⟩, rings := [], eqs := [], undelivered := [], readData := 0,
    sessions := [], folds := [], pens := [], tally := [], fab := Fabric.reset, sec := Sec.reset, boot := Boot.reset,
    power := Power.reset, errors := [], dropped := [], i3c := ⟨none, none, false, []⟩, tap := .reset }

end Sys2Proof.Machine
end

