-- ==== Sys2Proof/Machine/Bits.lean ====
section
/-! DEFINITION. Plain helpers: sparse maps by number, byte strings in little-endian order (00 R11), bit fields. -/
namespace Sys2Proof.Machine

/-! ### Sparse maps: keys strictly rising -/

/-- The value at key `k`. -/
def getN {α : Type} : NMap α → Nat → Option α
  | [], _ => none
  | (i, v) :: m, k => if i = k then some v else getN m k

/-- The value at key `k`, or `d` where none is listed. -/
def getND {α : Type} (m : NMap α) (k : Nat) (d : α) : α := (getN m k).getD d

/-- The map with `v` at key `k`. -/
def setN {α : Type} : NMap α → Nat → α → NMap α
  | [], k, v => [(k, v)]
  | (i, w) :: m, k, v =>
    if k < i then (k, v) :: (i, w) :: m else if k = i then (k, v) :: m else (i, w) :: setN m k v

/-- The map without key `k`. -/
def delN {α : Type} (m : NMap α) (k : Nat) : NMap α := m.filter (fun p => p.1 != k)

/-- The map with `f` applied at key `k`, if listed. -/
def modN {α : Type} (m : NMap α) (k : Nat) (f : α → α) : NMap α := m.map (fun p => if p.1 = k then (p.1, f p.2) else p)

/-- Whether `k` is a key. -/
def hasN {α : Type} (m : NMap α) (k : Nat) : Bool := (getN m k).isSome

/-- The keys. -/
def keysN {α : Type} (m : NMap α) : List Nat := m.map (·.1)

/-! ### Numbers and bytes -/

/-- n divided by d, rounded up. -/
def ceilDiv (n d : Nat) : Nat := (n + d - 1) / d

/-- Bits hi:lo of `v` (00 R10). -/
def bitsOf (v hi lo : Nat) : Nat := v / 2 ^ lo % 2 ^ (hi + 1 - lo)

/-- Bit `i` of `v`. -/
def bitOf (v i : Nat) : Bool := v.testBit i

/-- 1 for true. -/
def b2n (b : Bool) : Nat := if b then 1 else 0

/-- `v` as `n` little-endian bytes. -/
def leBytes : Nat → Nat → List Byte
  | 0, _ => []
  | n + 1, v => BitVec.ofNat 8 v :: leBytes n (v / 256)

/-- The number little-endian bytes hold. -/
def ofLe : List Byte → Nat
  | [] => 0
  | b :: t => b.toNat + 256 * ofLe t

/-- Bytes off … off + n − 1 of `l`, zero past its end. -/
def sliceB (l : List Byte) (off n : Nat) : List Byte := (List.range n).map (fun i => l.getD (off + i) 0)

/-- The little-endian number in bytes off … off + n − 1 of `l`. -/
def leAt (l : List Byte) (off n : Nat) : Nat := ofLe (sliceB l off n)

/-- `v` as `n` big-endian bytes, and the number big-endian bytes hold. -/
def beBytes (n v : Nat) : List Byte := (leBytes n v).reverse
def ofBe (l : List Byte) : Nat := ofLe l.reverse

/-- The bytes of an ASCII string. -/
def ascii (t : String) : List Byte := t.toList.map (fun c => BitVec.ofNat 8 c.toNat)

/-- `l` cut or padded with zeros to `n` bytes. -/
def padTo (n : Nat) (l : List Byte) : List Byte := sliceB l 0 n

/-- `n` zero bytes. -/
def zerosB (n : Nat) : List Byte := List.replicate n 0

/-- `l` with `v` put over its bytes from `off` on. -/
def patchB (l : List Byte) (off : Nat) (v : List Byte) : List Byte :=
  padTo off l ++ v ++ l.drop (off + v.length)

/-- The least of `n`, `n+1`, … (at most `fuel` of them) that `p` accepts. -/
def firstFrom (p : Nat → Bool) : Nat → Nat → Option Nat
  | 0, _ => none
  | fuel + 1, n => if p n then some n else firstFrom p fuel (n + 1)

/-- Set bits of a mask below `n`, rising. -/
def bitsSet (n v : Nat) : List Nat := (List.range n).filter (fun i => v.testBit i)

/-- How many bits of `v` below `n` are set. -/
def popc (n v : Nat) : Nat := (bitsSet n v).length

/-- A 64-bit value as a signed number. -/
def toSigned (bits v : Nat) : Int := if v < 2 ^ (bits - 1) then (v : Int) else (v : Int) - (2 ^ bits : Nat)

/-- A signed number as a two's complement field. -/
def ofSigned (bits : Nat) (v : Int) : Nat := (v % (2 ^ bits : Nat)).toNat

/-- The element of `l` that is least under `f`, the first of equals. -/
def minOn {α : Type} (f : α → Nat) : List α → Option α
  | [] => none
  | a :: t => match minOn f t with
    | none => some a
    | some b => if f a ≤ f b then some a else some b

/-- The element of `l` that is greatest under `f`, the first of equals. -/
def maxOn {α : Type} (f : α → Nat) : List α → Option α
  | [] => none
  | a :: t => match maxOn f t with
    | none => some a
    | some b => if f b ≤ f a then some a else some b

/-- The sum of `f` over `l`. -/
def sumOn {α : Type} (f : α → Nat) (l : List α) : Nat := l.foldl (fun n a => n + f a) 0

/-- Insertion into a list sorted by `le`, after its equals. -/
def insertBy {α : Type} (le : α → α → Bool) (a : α) : List α → List α
  | [] => [a]
  | b :: t => if le b a then b :: insertBy le a t else a :: b :: t

/-- A stable sort by `le`. -/
def sortBy {α : Type} (le : α → α → Bool) (l : List α) : List α := l.foldl (fun acc a => insertBy le a acc) []

end Sys2Proof.Machine
end

