-- ==== Sys2Proof/Machine/Flags.lean ====
section
/-! DEFINITION. Status codes (03 Table 3-8), completion flags (03 Table 3-9), event types (03 Table 3-7), descriptor opcodes
(03 Table 3-5), session states and end reasons (04). -/
namespace Sys2Proof.Machine

/-! ### Status codes (03 R77) -/
def stOk : W16 := 0x0000
def stDeferred : W16 := 0x0001
def stBadDescriptor : W16 := 0x0002
def stBadText : W16 := 0x0003
def stSeqFull : W16 := 0x0004
def stQuota : W16 := 0x0005
def stNoCandidate : W16 := 0x0006
def stCancelled : W16 := 0x0007
def stStopped : W16 := 0x0008
def stLength : W16 := 0x0009
def stFlashReadOnly : W16 := 0x000A
def stStaleEpoch : W16 := 0x000B
def stNotOwner : W16 := 0x000C
def stPeerLost : W16 := 0x000D
def stVersion : W16 := 0x000E
def stAuthFail : W16 := 0x000F
def stBusy : W16 := 0x0010
def stPoison : W16 := 0x0011
def stSnapshotMixed : W16 := 0x0012
def stInternal : W16 := 0x0013

/-! ### Completion flags (03 R78) -/
def flRestarted : W16 := 0x0001
def flStopMidtoken : W16 := 0x0002
def flTextReplaced : W16 := 0x0004
def flCountTableFull : W16 := 0x0008
def flPoisoned : W16 := 0x0010

/-! ### Event types (03 R75) -/
def evCompletion : Nat := 0x01
def evStreamLevel : Nat := 0x02
def evStreamReady : Nat := 0x03
def evSessionWaiting : Nat := 0x04
def evSessionEnded : Nat := 0x05
def evAdmitDeferred : Nat := 0x06
def evOwnershipChanged : Nat := 0x07
def evSnapshotDone : Nat := 0x08
def evFlashHealth : Nat := 0x09
def evTierQuota : Nat := 0x0A
def evKeySweepDone : Nat := 0x0B
def evErrorCorrected : Nat := 0x0C
def evErrorUncorrected : Nat := 0x0D
def evPeerLost : Nat := 0x0E
def evAccountingPage : Nat := 0x0F
def evSelftestReport : Nat := 0x10

/-! ### Descriptor opcodes (03 R71) -/
def opSessionOpen : Nat := 0x01
def opSessionClose : Nat := 0x02
def opTurnSubmit : Nat := 0x03
def opToolResult : Nat := 0x04
def opTurnCancel : Nat := 0x05
def opStreamResend : Nat := 0x06
def opSessionPark : Nat := 0x08
def opSessionRevive : Nat := 0x09
def opSessionMove : Nat := 0x0A
def opModelRegister : Nat := 0x10
def opModelActivate : Nat := 0x11
def opModelRetire : Nat := 0x12
def opRecallQuery : Nat := 0x18
def opRecallInsert : Nat := 0x19
def opRecallDelete : Nat := 0x1A
def opRecallMerge : Nat := 0x1B
def opSnapshotCut : Nat := 0x20
def opSnapshotRestore : Nat := 0x21
def opDroveJoin : Nat := 0x22
def opDroveShrink : Nat := 0x23
def opDroveRebalance : Nat := 0x24
def opKeyInstall : Nat := 0x28
def opKeyRotate : Nat := 0x29
def opAttest : Nat := 0x2A
def opQuotaSet : Nat := 0x30
def opGateListLoad : Nat := 0x31
def opRoleSet : Nat := 0x32
def opFlashDiscard : Nat := 0x38
def opHealthRead : Nat := 0x39
def opFence : Nat := 0x3F

/-- Whether an opcode is in Table 3-5 (03 R70 check 1). -/
def isOpcode (op : Nat) : Bool :=
  [0x01, 0x02, 0x03, 0x04, 0x05, 0x06, 0x08, 0x09, 0x0A, 0x10, 0x11, 0x12, 0x18, 0x19, 0x1A, 0x1B].contains op ||
  [0x20, 0x21, 0x22, 0x23, 0x24, 0x28, 0x29, 0x2A, 0x30, 0x31, 0x32, 0x38, 0x39, 0x3F].contains op

/-- Opcodes marked "management" in Table 3-5. -/
def isManagementOp (op : Nat) : Bool := [0x22, 0x23, 0x24, 0x30, 0x31, 0x32].contains op

/-- Requester and owner number of the management path (03 R62). -/
def mgmtPath : Nat := 0x7F

end Sys2Proof.Machine
end

