-- ==== Sys2Proof/Machine/Operands.lean ====
section
/-! DEFINITION. Reading the operand forms: descriptor headers and bodies (03 R69), fields of a 128-bit operation (06 R161). -/
namespace Sys2Proof.Machine

/-! ### Descriptors -/

/-- Byte `i` of the descriptor's body, 16 ≤ i < 64 (03 Table 3-4). -/
def descByte (d : Desc) (i : Nat) : Nat := (d.body.getD (i - 16) 0).toNat

/-- The little-endian field in bytes i … i + n − 1 of the descriptor. -/
def descNum (d : Desc) (i n : Nat) : Nat := leAt d.body (i - 16) n

/-- Bytes i … i + n − 1 of the descriptor. -/
def descBytes (d : Desc) (i n : Nat) : List Byte := sliceB d.body (i - 16) n

/-- SUPPRESS_OK (03 Table 3-4). -/
def suppressOk (d : Desc) : Bool := d.flags.getLsbD 0

/-- Whether every body byte outside the byte ranges `used` (first, last) is zero (00 R13). -/
def bodyReserved (d : Desc) (used : List (Nat × Nat)) : Bool :=
  (List.range 48).all (fun k => used.any (fun r => decide (r.1 ≤ k + 16) && decide (k + 16 ≤ r.2)) || descByte d (k + 16) == 0)

/-- Reserved FLAGS bits are zero (03 Table 3-4). -/
def flagsReserved (d : Desc) : Bool := d.flags.toNat < 2

/-- The header bytes 4 to 15 of an opcode that names no session are zero (03 R69). -/
def noSession (d : Desc) : Bool := d.epoch == 0 && d.session == 0

/-! ### Operations of a layer program -/

/-- Bits hi:lo of an operation. -/
def opBits (op : OpWord) (hi lo : Nat) : Nat := bitsOf op.toNat hi lo

/-! ### Session IDs (04 R93) -/

/-- Home device, bits 63:46. -/
def sidDevice (x : W64) : Nat := x.toNat / 2 ^ 46
/-- Home fold, bits 45:40. -/
def sidFold (x : W64) : Nat := bitsOf x.toNat 45 40
/-- Serial of a session ID. -/
def sidSerial (x : W64) : Nat := bitsOf x.toNat 39 0

end Sys2Proof.Machine
end

