-- ==== Sys2Proof/Config.lean ====
section
/-! DEFINITION. What an implementation fixes and what the spec leaves open: constants and functions with no body, so that a
claim about them holds for every value. -/
namespace Sys2Proof.Config

/-- The n-th free value: whatever the spec leaves undefined and no other constant names (log entry 3). -/
opaque freeValue : Nat → Nat

/-! ### Vector-unit functions and corners of the formats (06 R158, R159, R171) -/

/-- exp, reciprocal, reciprocal square root: one determined FP32 value for each input (06 R171), which the vector unit holds to the spec's bound. -/
opaque exp : W32 → W32
opaque recip : W32 → W32
opaque rsqrt : W32 → W32
/-- SiLU, GELU in its erf and tanh forms (06 Table 6-7). -/
opaque silu : W32 → W32
opaque geluErf : W32 → W32
opaque geluTanh : W32 → W32
/-- Sine and cosine of an angle reduced modulo 2π, in units of 2^−320, and how many ulp they lie at most from the exact ones: the spec gives no bound
(06 R171, R172, log entry 165). -/
opaque sine : Int → W32
opaque cosine : Int → W32
opaque trigUlp : Nat
/-- The same of a pair under a base θ that is no positive finite number: position, pair, ROT, θ. -/
opaque ropeSin : Nat → Nat → Nat → W32 → W32
opaque ropeCos : Nat → Nat → Nat → W32 → W32
/-- Maximum and minimum of two zeros of unlike sign. -/
opaque maxOfZeros : W32 → W32 → W32
opaque minOfZeros : W32 → W32 → W32
/-- The INT8 element a NaN becomes. -/
opaque int8OfNan : Byte
/-- The element bits under a NaN block scale, by format. -/
opaque nanBlockElem : Nat → Nat
/-- The scale byte and elements of a block whose scale 06 R159 does not give. -/
opaque openBlock : Nat → List Nat → Nat × List Nat

/-- The index that VRED argmax gives for a row with a NaN, and a ROUTE's slots for such a row: SUB, K, the row, the slot (log entry 20). -/
opaque argmaxOfNan : List W32 → W32
opaque routeOfNan : Nat → Nat → List W32 → Nat → Nat × W32

/-- The logit of a token whose slice two pens hand with unlike values for one operation (log entry 75). -/
opaque logitOfPens : W32 → W32 → W32

/-- Slate offset of the fold's reduction buffers in each pen's pinned slots (07 R195): the spec gives them no address. -/
opaque reductionBase : Nat → Nat

/-! ### The Zstandard encoder's choice and the compressed blocks of RFC 8878 (02 R48, Table 2-6) -/

/-- The blocks an encoder makes of a content. -/
opaque zstdBlocks : List Byte → List Byte
/-- The content of a compressed block: the blocks before it in the frame, what they hold, the block's bytes; none where it fails to decode. -/
opaque zstdBlock : List Byte → List Byte → List Byte → Option (List Byte)

/-- The parity bytes of a codeword under the device's own LDPC code (12 R315). -/
opaque ldpcParity : List Byte → List Byte

/-- Trained timing mode and transfer rate of a flash channel (12 R309, NFC_CH_STATUS). -/
opaque flashTiming : Nat → Nat
opaque flashRate : Nat → Nat

/-! ### Cryptographic functions the spec names (07 R194 to R198, 14 R378, 15): what they compute is not the model's -/

/-- SHA-384 of a byte string. -/
opaque sha384 : List Byte → List Byte
/-- AES-256-GCM decryption: key, nonce, additional data, ciphertext and tag; none where the tag fails. -/
opaque gcmOpen : List Byte → List Byte → List Byte → List Byte → Option (List Byte)
/-- ECDSA on brainpoolP384r1 with SHA-384: public key, message, signature. -/
opaque ecdsaOk : List Byte → List Byte → List Byte → Bool
/-- The signature of a message: private key, message, the random value drawn. -/
opaque ecdsaSign : List Byte → List Byte → Nat → List Byte
/-- The public point of a private scalar; whether 97 bytes are a point of the curve other than infinity; the shared secret. -/
opaque ecPublic : List Byte → List Byte
opaque ecPointOk : List Byte → Bool
opaque ecdh : List Byte → List Byte → List Byte
/-- HKDF with SHA-384: secret, salt, info, length. -/
opaque hkdf : List Byte → List Byte → List Byte → Nat → List Byte

/-- The debug key's public point (15 R412), which the spec does not print. -/
opaque debugPub : List Byte

/-- The attestation public key of another device (14 R381): the spec does not say where a member has it from. -/
opaque memberAk : Nat → List Byte

/-! ### Text (10 R256) -/

/-- The general category code, 0 to 29, of a code point in the device's Unicode 15.1 table; the spec names the table and does not
print it. -/
opaque category : Nat → Nat

end Sys2Proof.Config
end

