-- ==== Sys2Proof/Machine/RegMap.lean ====
section
/-! DEFINITION. The register map: key, instances, access code, writable bits and reset of every register that holds a value
(19 R469 to R485 and the chapters' own tables). A key is the offset in the register window; ring r's own registers, which the
window shows through RING_SEL (19 R470), have keys from 0x0200_0000 on. Registers whose value is read out of the state have no
row here. -/
namespace Sys2Proof.Machine

/-- Access codes (00 R15). `ro` rows are counters and status words the device writes. -/
inductive RegKind where
  | sh
  | rw
  | live
  | ro
  deriving DecidableEq, Repr

/-- One register, or one array of them. -/
structure RegRow where
  base : Nat
  stride : Nat
  count : Nat
  kind : RegKind
  mask : Nat
  reset : Nat
  deriving DecidableEq, Repr

/-- Key of the first ring register (model's own numbering, above the window). -/
def ringKeyBase : Nat := 0x02000000

/-- SysErrCeInterval (19 R478, 18 R468). -/
def rSysErrCeInterval : Nat := 0x400
/-- SysErrCeTotal (19 R478, 18 R468). -/
def rSysErrCeTotal : Nat := 0x410
/-- SysErrUeTotal (19 R478, 18 R468). -/
def rSysErrUeTotal : Nat := 0x418
/-- SysErrFatal (19 R478, 18 R468). -/
def rSysErrFatal : Nat := 0x408
/-- SysFoldPens of instance i (19 R478, 18 R468). -/
def rSysFoldPens (i : Nat) : Nat := 0x1000 + i * 0x20
/-- SysFoldWays of instance i (19 R478, 18 R468). -/
def rSysFoldWays (i : Nat) : Nat := 0x1008 + i * 0x20
/-- SysFoldCtrl of instance i (19 R478, 18 R468). -/
def rSysFoldCtrl (i : Nat) : Nat := 0x1010 + i * 0x20
/-- LnkReplayCount (19 R479). -/
def rLnkReplayCount : Nat := 0x10010
/-- LnkRetrainCount (19 R479). -/
def rLnkRetrainCount : Nat := 0x10018
/-- LnkDownLimit (19 R479). -/
def rLnkDownLimit : Nat := 0x10020
/-- LnkReqRejected (19 R479). -/
def rLnkReqRejected : Nat := 0x10028
/-- LnkWinBase of instance i (19 R479). -/
def rLnkWinBase (i : Nat) : Nat := 0x11000 + i * 0x40
/-- LnkWinSize of instance i (19 R479). -/
def rLnkWinSize (i : Nat) : Nat := 0x11008 + i * 0x40
/-- LnkWinHost of instance i (19 R479). -/
def rLnkWinHost (i : Nat) : Nat := 0x11010 + i * 0x40
/-- LnkWinOwner of instance i (19 R479). -/
def rLnkWinOwner (i : Nat) : Nat := 0x11018 + i * 0x40
/-- LnkWinKind of instance i (19 R479). -/
def rLnkWinKind (i : Nat) : Nat := 0x11020 + i * 0x40
/-- RingSel (19 R480). -/
def rRingSel : Nat := 0x20008
/-- RingEqDsel (19 R480). -/
def rRingEqDsel : Nat := 0x20010
/-- RingEqBase of instance i (19 R480). -/
def rRingEqBase (i : Nat) : Nat := 0x22000 + i * 0x40
/-- RingEqCfg of instance i (19 R480). -/
def rRingEqCfg (i : Nat) : Nat := 0x22008 + i * 0x40
/-- RingEqHeadAddr of instance i (19 R480). -/
def rRingEqHeadAddr (i : Nat) : Nat := 0x22010 + i * 0x40
/-- RingSqBase of instance i (19 R480). -/
def rRingSqBase (i : Nat) : Nat := 0x2000000 + i * 0x40
/-- RingSqCfg of instance i (19 R480). -/
def rRingSqCfg (i : Nat) : Nat := 0x2000008 + i * 0x40
/-- RingHeadWb of instance i (19 R480). -/
def rRingHeadWb (i : Nat) : Nat := 0x2000010 + i * 0x40
/-- RingSqHead of instance i (19 R480). -/
def rRingSqHead (i : Nat) : Nat := 0x2000018 + i * 0x40
/-- RingCtrl of instance i (19 R480). -/
def rRingCtrl (i : Nat) : Nat := 0x2000020 + i * 0x40
/-- RingDbRejected of instance i (19 R480). -/
def rRingDbRejected (i : Nat) : Nat := 0x2000030 + i * 0x40
/-- SessOfferLimit (04 R124). -/
def rSessOfferLimit : Nat := 0x30008
/-- SessPoll (04 R124). -/
def rSessPoll : Nat := 0x30010
/-- SessStranded (04 R124). -/
def rSessStranded : Nat := 0x30018
/-- SessOfferExpired (04 R124). -/
def rSessOfferExpired : Nat := 0x30020
/-- SessAutoparkRefused (04 R124). -/
def rSessAutoparkRefused : Nat := 0x30028
/-- SessDirRecords of instance i (04 R124). -/
def rSessDirRecords (i : Nat) : Nat := 0x30100 + i * 0x20
/-- SessWriteCompat of instance i (04 R124). -/
def rSessWriteCompat (i : Nat) : Nat := 0x30108 + i * 0x20
/-- SessSerialNext of instance i (04 R124). -/
def rSessSerialNext (i : Nat) : Nat := 0x30118 + i * 0x20
/-- SchBudget of instance i (05 R149). -/
def rSchBudget (i : Nat) : Nat := 0x41000 + i * 0x80
/-- SchPrefill of instance i (05 R149). -/
def rSchPrefill (i : Nat) : Nat := 0x41008 + i * 0x80
/-- SchGenLimit of instance i (05 R149). -/
def rSchGenLimit (i : Nat) : Nat := 0x41010 + i * 0x80
/-- SchDisplace of instance i (05 R149). -/
def rSchDisplace (i : Nat) : Nat := 0x41018 + i * 0x80
/-- SchMidstep of instance i (05 R149). -/
def rSchMidstep (i : Nat) : Nat := 0x41020 + i * 0x80
/-- SchAdmitQueue of instance i (05 R149). -/
def rSchAdmitQueue (i : Nat) : Nat := 0x41028 + i * 0x80
/-- SchAcctAddr of instance i (05 R149). -/
def rSchAcctAddr (i : Nat) : Nat := 0x41030 + i * 0x80
/-- SchAcctInterval of instance i (05 R149). -/
def rSchAcctInterval (i : Nat) : Nat := 0x41038 + i * 0x80
/-- SchMove of instance i (05 R149). -/
def rSchMove (i : Nat) : Nat := 0x41040 + i * 0x80
/-- TallySel (05 R150). -/
def rTallySel : Nat := 0x50000
/-- TierMigAbandoned (19 R481). -/
def rTierMigAbandoned : Nat := 0x60008
/-- TierMigRestarted (19 R481). -/
def rTierMigRestarted : Nat := 0x60010
/-- TierFoldBase of instance i (19 R481). -/
def rTierFoldBase (i : Nat) : Nat := 0x61000 + i * 0x80
/-- TierFoldLimit of instance i (19 R481). -/
def rTierFoldLimit (i : Nat) : Nat := 0x61008 + i * 0x80
/-- TierSpillTier of instance i (19 R481). -/
def rTierSpillTier (i : Nat) : Nat := 0x61010 + i * 0x80
/-- TierQuotaThresh of instance i (19 R481). -/
def rTierQuotaThresh (i : Nat) : Nat := 0x61018 + i * 0x80
/-- TierShuffle of instance i (19 R481). -/
def rTierShuffle (i : Nat) : Nat := 0x61020 + i * 0x80
/-- TierKvLossy of instance i (19 R481). -/
def rTierKvLossy (i : Nat) : Nat := 0x61028 + i * 0x80
/-- TierQuotaRefused of instance i (19 R481). -/
def rTierQuotaRefused (i : Nat) : Nat := 0x61050 + i * 0x80
/-- HbmSel (19 R482). -/
def rHbmSel : Nat := 0x70008
/-- HbmScrub (19 R482). -/
def rHbmScrub : Nat := 0x71000
/-- HbmScrubPasses (19 R482). -/
def rHbmScrubPasses : Nat := 0x71008
/-- NfcService (12 R330). -/
def rNfcService : Nat := 0x80008
/-- NfcNsChannels of instance i (12 R330). -/
def rNfcNsChannels (i : Nat) : Nat := 0x81000 + i * 0x80
/-- NfcNsReserve of instance i (12 R330). -/
def rNfcNsReserve (i : Nat) : Nat := 0x81008 + i * 0x80
/-- NfcGcWeights of instance i (12 R330). -/
def rNfcGcWeights (i : Nat) : Nat := 0x81010 + i * 0x80
/-- NfcGcAgeScale of instance i (12 R330). -/
def rNfcGcAgeScale (i : Nat) : Nat := 0x81018 + i * 0x80
/-- NfcGcThresh of instance i (12 R330). -/
def rNfcGcThresh (i : Nat) : Nat := 0x81020 + i * 0x80
/-- NfcReadPolicy of instance i (12 R330). -/
def rNfcReadPolicy (i : Nat) : Nat := 0x81028 + i * 0x80
/-- NfcHealthWarn of instance i (12 R330). -/
def rNfcHealthWarn (i : Nat) : Nat := 0x81030 + i * 0x80
/-- NfcTempPeriod of instance i (12 R330). -/
def rNfcTempPeriod (i : Nat) : Nat := 0x81038 + i * 0x80
/-- NfcDirectWrites of instance i (12 R330). -/
def rNfcDirectWrites (i : Nat) : Nat := 0x81058 + i * 0x80
/-- NfcCheckpoint of instance i (12 R330). -/
def rNfcCheckpoint (i : Nat) : Nat := 0x81060 + i * 0x80
/-- FabSelf (13 R364). -/
def rFabSelf : Nat := 0x90008
/-- FabE2eLimit (13 R364). -/
def rFabE2eLimit : Nat := 0x90018
/-- FabRetry (13 R364). -/
def rFabRetry : Nat := 0x90020
/-- FabWatchPeriod (13 R364). -/
def rFabWatchPeriod : Nat := 0x90028
/-- FabLostCount (13 R364). -/
def rFabLostCount : Nat := 0x90038
/-- FabNoRoute (13 R364). -/
def rFabNoRoute : Nat := 0x90040
/-- FabHopDrops (13 R364). -/
def rFabHopDrops : Nat := 0x90048
/-- FabHdrDrops (13 R364). -/
def rFabHdrDrops : Nat := 0x90050
/-- FabLostOps (13 R364). -/
def rFabLostOps : Nat := 0x90058
/-- FabPortCtrl of instance i (13 R364). -/
def rFabPortCtrl (i : Nat) : Nat := 0x90100 + i * 0x40
/-- FabPortReplay of instance i (13 R364). -/
def rFabPortReplay (i : Nat) : Nat := 0x90110 + i * 0x40
/-- FabPortRetrain of instance i (13 R364). -/
def rFabPortRetrain (i : Nat) : Nat := 0x90118 + i * 0x40
/-- FabWfqLo of instance i (13 R364). -/
def rFabWfqLo (i : Nat) : Nat := 0x90120 + i * 0x40
/-- FabWfqHi of instance i (13 R364). -/
def rFabWfqHi (i : Nat) : Nat := 0x90128 + i * 0x40
/-- FabHwm of instance i (13 R364). -/
def rFabHwm (i : Nat) : Nat := 0x90130 + i * 0x40
/-- FabRouteGroup of instance i (13 R364). -/
def rFabRouteGroup (i : Nat) : Nat := 0x92000 + i * 0x8
/-- FabRouteLocal of instance i (13 R364). -/
def rFabRouteLocal (i : Nat) : Nat := 0x93000 + i * 0x8
/-- FabFoldDrove of instance i (13 R364). -/
def rFabFoldDrove (i : Nat) : Nat := 0x94000 + i * 0x20
/-- FabFoldMember of instance i (13 R364). -/
def rFabFoldMember (i : Nat) : Nat := 0x94008 + i * 0x20
/-- FabFoldQueue of instance i (13 R364). -/
def rFabFoldQueue (i : Nat) : Nat := 0x94010 + i * 0x20
/-- TokVcache of instance i (10 R282). -/
def rTokVcache (i : Nat) : Nat := 0xa1000 + i * 0x40
/-- TokCacheHits of instance i (10 R282). -/
def rTokCacheHits (i : Nat) : Nat := 0xa2000 + i * 0x40
/-- TokCacheMisses of instance i (10 R282). -/
def rTokCacheMisses (i : Nat) : Nat := 0xa2008 + i * 0x40
/-- TokInputReplaced of instance i (10 R282). -/
def rTokInputReplaced (i : Nat) : Nat := 0xa2010 + i * 0x40
/-- TokBadText of instance i (10 R282). -/
def rTokBadText (i : Nat) : Nat := 0xa2018 + i * 0x40
/-- TokNanLogits of instance i (10 R282). -/
def rTokNanLogits (i : Nat) : Nat := 0xa2020 + i * 0x40
/-- TokStopMidtoken of instance i (10 R282). -/
def rTokStopMidtoken (i : Nat) : Nat := 0xa2028 + i * 0x40
/-- TokNoCandidate of instance i (10 R282). -/
def rTokNoCandidate (i : Nat) : Nat := 0xa2030 + i * 0x40
/-- TokUncounted of instance i (10 R282). -/
def rTokUncounted (i : Nat) : Nat := 0xa2038 + i * 0x40
/-- BellMode of instance i (09 R253). -/
def rBellMode (i : Nat) : Nat := 0xb1000 + i * 0x40
/-- BellLen of instance i (09 R253). -/
def rBellLen (i : Nat) : Nat := 0xb1008 + i * 0x40
/-- BellNgram of instance i (09 R253). -/
def rBellNgram (i : Nat) : Nat := 0xb1010 + i * 0x40
/-- BellProposed of instance i (09 R253). -/
def rBellProposed (i : Nat) : Nat := 0xb2000 + i * 0x40
/-- BellAccepted of instance i (09 R253). -/
def rBellAccepted (i : Nat) : Nat := 0xb2008 + i * 0x40
/-- BellDraftSteps of instance i (09 R253). -/
def rBellDraftSteps (i : Nat) : Nat := 0xb2010 + i * 0x40
/-- BellFloorEntries of instance i (09 R253). -/
def rBellFloorEntries (i : Nat) : Nat := 0xb2018 + i * 0x40
/-- BellProbes of instance i (09 R253). -/
def rBellProbes (i : Nat) : Nat := 0xb2020 + i * 0x40
/-- BellNoSheet of instance i (09 R253). -/
def rBellNoSheet (i : Nat) : Nat := 0xb2028 + i * 0x40
/-- RclBase of instance i (11 R306). -/
def rRclBase (i : Nat) : Nat := 0xc1000 + i * 0x40
/-- RclConfig of instance i (11 R306). -/
def rRclConfig (i : Nat) : Nat := 0xc1008 + i * 0x40
/-- RclCap of instance i (11 R306). -/
def rRclCap (i : Nat) : Nat := 0xc1010 + i * 0x40
/-- RclQuery of instance i (11 R306). -/
def rRclQuery (i : Nat) : Nat := 0xc1018 + i * 0x40
/-- RclBuild of instance i (11 R306). -/
def rRclBuild (i : Nat) : Nat := 0xc1020 + i * 0x40
/-- RclQueries of instance i (11 R306). -/
def rRclQueries (i : Nat) : Nat := 0xc2000 + i * 0x40
/-- RclExpansions of instance i (11 R306). -/
def rRclExpansions (i : Nat) : Nat := 0xc2008 + i * 0x40
/-- RclTruncated of instance i (11 R306). -/
def rRclTruncated (i : Nat) : Nat := 0xc2010 + i * 0x40
/-- RclCommits of instance i (11 R306). -/
def rRclCommits (i : Nat) : Nat := 0xc2018 + i * 0x40
/-- RclCommitWait of instance i (11 R306). -/
def rRclCommitWait (i : Nat) : Nat := 0xc2020 + i * 0x40
/-- SnapStoreBase of instance i (14 R389). -/
def rSnapStoreBase (i : Nat) : Nat := 0xd1000 + i * 0x40
/-- SnapStore of instance i (14 R389). -/
def rSnapStore (i : Nat) : Nat := 0xd1008 + i * 0x40
/-- SnapSlotSheets of instance i (14 R389). -/
def rSnapSlotSheets (i : Nat) : Nat := 0xd1010 + i * 0x40
/-- SnapCowSheets of instance i (14 R389). -/
def rSnapCowSheets (i : Nat) : Nat := 0xd1018 + i * 0x40
/-- SnapDrainRate of instance i (14 R389). -/
def rSnapDrainRate (i : Nat) : Nat := 0xd1020 + i * 0x40
/-- SnapManifestAddr of instance i (14 R389). -/
def rSnapManifestAddr (i : Nat) : Nat := 0xd1028 + i * 0x40
/-- SnapCowStalls of instance i (14 R389). -/
def rSnapCowStalls (i : Nat) : Nat := 0xd2000 + i * 0x40
/-- SnapCowStallNs of instance i (14 R389). -/
def rSnapCowStallNs (i : Nat) : Nat := 0xd2008 + i * 0x40
/-- SnapShardsDone of instance i (14 R389). -/
def rSnapShardsDone (i : Nat) : Nat := 0xd2010 + i * 0x40
/-- SnapShrinks of instance i (14 R389). -/
def rSnapShrinks (i : Nat) : Nat := 0xd2018 + i * 0x40
/-- SecDrbgReseeds (15 R414). -/
def rSecDrbgReseeds : Nat := 0xe0010
/-- SecEphLife (15 R414). -/
def rSecEphLife : Nat := 0xe0018
/-- SecSweepRate of instance i (15 R414). -/
def rSecSweepRate (i : Nat) : Nat := 0xe1010 + i * 0x40
/-- SecAuthFails of instance i (15 R414). -/
def rSecAuthFails (i : Nat) : Nat := 0xe1028 + i * 0x40
/-- PwrPenWakes (19 R483). -/
def rPwrPenWakes : Nat := 0x100018
/-- PwrLadderSel (19 R483). -/
def rPwrLadderSel : Nat := 0x100020
/-- PwrPenPolicy (19 R483). -/
def rPwrPenPolicy : Nat := 0x101000
/-- PwrHbmPolicy (19 R483). -/
def rPwrHbmPolicy : Nat := 0x101008
/-- PwrPortPolicy (19 R483). -/
def rPwrPortPolicy : Nat := 0x101010
/-- PwrFlashPolicy (19 R483). -/
def rPwrFlashPolicy : Nat := 0x101018
/-- PwrThermal (19 R483). -/
def rPwrThermal : Nat := 0x101020
/-- ClkSscEnable (19 R483). -/
def rClkSscEnable : Nat := 0x111000
/-- TlmHistSel (19 R484). -/
def rTlmHistSel : Nat := 0x120008
/-- TlmHwmSel (19 R484). -/
def rTlmHwmSel : Nat := 0x120020
/-- TlmTempPeriod (19 R484). -/
def rTlmTempPeriod : Nat := 0x120038
/-- TlmSensorSel (19 R484). -/
def rTlmSensorSel : Nat := 0x120040
/-- TlmThrottleSel (19 R484). -/
def rTlmThrottleSel : Nat := 0x120058
/-- ScrWindowDepth of instance i (07 R205). -/
def rScrWindowDepth (i : Nat) : Nat := 0x131000 + i * 0x40
/-- ScrStalls of instance i (07 R205). -/
def rScrStalls (i : Nat) : Nat := 0x131018 + i * 0x40
/-- ScrStallCycles of instance i (07 R205). -/
def rScrStallCycles (i : Nat) : Nat := 0x131020 + i * 0x40
/-- InkKvFormat of instance i (08 R237). -/
def rInkKvFormat (i : Nat) : Nat := 0x141000 + i * 0x40
/-- InkCtxMax of instance i (08 R237). -/
def rInkCtxMax (i : Nat) : Nat := 0x141008 + i * 0x40
/-- InkWindow of instance i (08 R237). -/
def rInkWindow (i : Nat) : Nat := 0x141010 + i * 0x40
/-- InkEvict of instance i (08 R237). -/
def rInkEvict (i : Nat) : Nat := 0x141018 + i * 0x40
/-- InkSpill of instance i (08 R237). -/
def rInkSpill (i : Nat) : Nat := 0x141020 + i * 0x40
/-- InkPrefetch of instance i (08 R237). -/
def rInkPrefetch (i : Nat) : Nat := 0x141028 + i * 0x40
/-- InkPrefix of instance i (08 R237). -/
def rInkPrefix (i : Nat) : Nat := 0x141030 + i * 0x40
/-- InkPagesSkipped of instance i (08 R237). -/
def rInkPagesSkipped (i : Nat) : Nat := 0x142000 + i * 0x40
/-- InkEvicted of instance i (08 R237). -/
def rInkEvicted (i : Nat) : Nat := 0x142008 + i * 0x40
/-- InkCompacted of instance i (08 R237). -/
def rInkCompacted (i : Nat) : Nat := 0x142010 + i * 0x40
/-- InkPrefetchStalls of instance i (08 R237). -/
def rInkPrefetchStalls (i : Nat) : Nat := 0x142018 + i * 0x40
/-- InkSat of instance i (08 R237). -/
def rInkSat (i : Nat) : Nat := 0x142020 + i * 0x40
/-- InkPrefixHits of instance i (08 R237). -/
def rInkPrefixHits (i : Nat) : Nat := 0x142028 + i * 0x40
/-- InkAreadServed of instance i (08 R237). -/
def rInkAreadServed (i : Nat) : Nat := 0x142030 + i * 0x40
/-- PenProgFault of instance i (19 R485, 06 R182). -/
def rPenProgFault (i : Nat) : Nat := 0x1000100 + i * 0x10000
/-- PenBarLimit of instance i (19 R485, 06 R182). -/
def rPenBarLimit (i : Nat) : Nat := 0x1000108 + i * 0x10000
/-- PenRowPasses of instance i (19 R485, 06 R182). -/
def rPenRowPasses (i : Nat) : Nat := 0x1000110 + i * 0x10000
/-- PenNotifySel of instance i (19 R485, 06 R182). -/
def rPenNotifySel (i : Nat) : Nat := 0x1000120 + i * 0x10000
/-- PenStreamLevel of instance i (19 R485, 06 R182). -/
def rPenStreamLevel (i : Nat) : Nat := 0x1000200 + i * 0x10000
/-- PenStreamSwapWait of instance i (19 R485, 06 R182). -/
def rPenStreamSwapWait (i : Nat) : Nat := 0x1000208 + i * 0x10000
/-- PenStreamParity of instance i (19 R485, 06 R182). -/
def rPenStreamParity (i : Nat) : Nat := 0x1000210 + i * 0x10000

/-- The SYS rows (19 R478, 18 R468). -/
def regRowsSys : List RegRow :=
  [⟨0x400, 0x8, 1, .live, 0xffffffff, 0x3e8⟩,
   ⟨0x410, 0x8, 1, .ro, 0xffffffffffffffff, 0⟩,
   ⟨0x418, 0x8, 1, .ro, 0xffffffffffffffff, 0⟩,
   ⟨0x408, 0x8, 1, .ro, 0xffffffff0000000f, 0⟩,
   ⟨0x1000, 0x20, 64, .sh, 0xffffffffffffffff, 0⟩,
   ⟨0x1008, 0x20, 64, .sh, 0xffffffffffffffff, 0⟩,
   ⟨0x1010, 0x20, 64, .sh, 0x1, 0⟩]
/-- The LNK rows (19 R479). -/
def regRowsLnk : List RegRow :=
  [⟨0x10010, 0x8, 1, .ro, 0xffffffffffffffff, 0⟩,
   ⟨0x10018, 0x8, 1, .ro, 0xffffffff, 0⟩,
   ⟨0x10020, 0x8, 1, .live, 0xffffffff, 0x186a0⟩,
   ⟨0x10028, 0x8, 1, .ro, 0xffffffffffffffff, 0⟩,
   ⟨0x11000, 0x40, 256, .sh, 0x3fffffe00000, 0⟩,
   ⟨0x11008, 0x40, 256, .sh, 0x1f, 0⟩,
   ⟨0x11010, 0x40, 256, .sh, 0xffffffffffe00000, 0⟩,
   ⟨0x11018, 0x40, 256, .sh, 0x7f, 0⟩,
   ⟨0x11020, 0x40, 256, .sh, 0x101, 0⟩]
/-- The RING rows (19 R480). -/
def regRowsRing : List RegRow :=
  [⟨0x20008, 0x8, 1, .rw, 0xfff, 0⟩,
   ⟨0x20010, 0x8, 1, .rw, 0x1fff, 0⟩,
   ⟨0x22000, 0x40, 256, .sh, 0xffffffffffff, 0⟩,
   ⟨0x22008, 0x40, 256, .sh, 0x17f1f, 4⟩,
   ⟨0x22010, 0x40, 256, .sh, 0xffffffffffff, 0⟩]
/-- The EXT rows (19 R480). -/
def regRowsExt : List RegRow :=
  [⟨0x2000000, 0x40, 4096, .sh, 0xffffffffffff, 0⟩,
   ⟨0x2000008, 0x40, 4096, .sh, 0xffff7f1f, 4⟩,
   ⟨0x2000010, 0x40, 4096, .sh, 0xffffffffffff, 0⟩,
   ⟨0x2000018, 0x40, 4096, .sh, 0xffffffff, 0⟩,
   ⟨0x2000020, 0x40, 4096, .sh, 0x3, 0⟩,
   ⟨0x2000030, 0x40, 4096, .ro, 0xffffffff, 0⟩]
/-- The SESS rows (04 R124). -/
def regRowsSess : List RegRow :=
  [⟨0x30008, 0x8, 1, .live, 0xffffffff, 0x186a0⟩,
   ⟨0x30010, 0x8, 1, .live, 0xffff, 0xa⟩,
   ⟨0x30018, 0x8, 1, .ro, 0xffffffff, 0⟩,
   ⟨0x30020, 0x8, 1, .ro, 0xffffffff, 0⟩,
   ⟨0x30028, 0x8, 1, .ro, 0xffffffff, 0⟩,
   ⟨0x30100, 0x20, 64, .sh, 0x1ffffff, 0⟩,
   ⟨0x30108, 0x20, 64, .sh, 0xff, 0⟩,
   ⟨0x30118, 0x20, 64, .ro, 0xffffffffff, 0⟩]
/-- The SCH rows (05 R149). -/
def regRowsSch : List RegRow :=
  [⟨0x41000, 0x80, 64, .sh, 0xfffff, 0xea60⟩,
   ⟨0x41008, 0x80, 64, .sh, 0x1fff1fff, 0x100⟩,
   ⟨0x41010, 0x80, 64, .sh, 0x3ff, 0x200⟩,
   ⟨0x41018, 0x80, 64, .live, 0x1, 0⟩,
   ⟨0x41020, 0x80, 64, .live, 0x1, 0⟩,
   ⟨0x41028, 0x80, 64, .sh, 0x1fff, 0x400⟩,
   ⟨0x41030, 0x80, 64, .sh, 0xffffffffffff, 0⟩,
   ⟨0x41038, 0x80, 64, .sh, 0xffffffff, 0⟩,
   ⟨0x41040, 0x80, 64, .sh, 0xff03ff, 0x100020⟩]
/-- The TALLY rows (05 R150). -/
def regRowsTally : List RegRow :=
  [⟨0x50000, 0x8, 1, .rw, 0x1f, 0⟩]
/-- The TIER rows (19 R481). -/
def regRowsTier : List RegRow :=
  [⟨0x60008, 0x8, 1, .ro, 0xffffffffffffffff, 0⟩,
   ⟨0x60010, 0x8, 1, .ro, 0xffffffffffffffff, 0⟩,
   ⟨0x61000, 0x80, 64, .sh, 0x3fffc0000000, 0⟩,
   ⟨0x61008, 0x80, 64, .sh, 0x3fffc0000000, 0⟩,
   ⟨0x61010, 0x80, 64, .sh, 0x7, 4⟩,
   ⟨0x61018, 0x80, 64, .sh, 0xf, 0xf⟩,
   ⟨0x61020, 0x80, 64, .sh, 0xfff, 0x884⟩,
   ⟨0x61028, 0x80, 64, .sh, 0x1, 0⟩,
   ⟨0x61050, 0x80, 64, .ro, 0xffffffffffffffff, 0⟩]
/-- The HBM rows (19 R482). -/
def regRowsHbm : List RegRow :=
  [⟨0x70008, 0x8, 1, .rw, 0xff, 0⟩,
   ⟨0x71000, 0x8, 1, .sh, 0xffffffff, 0x5265c00⟩,
   ⟨0x71008, 0x8, 1, .ro, 0xffffffffffffffff, 0⟩]
/-- The NFC rows (12 R330). -/
def regRowsNfc : List RegRow :=
  [⟨0x80008, 0x8, 1, .live, 0x3, 0⟩,
   ⟨0x81000, 0x80, 64, .sh, 0xffff, 0⟩,
   ⟨0x81008, 0x80, 64, .sh, 0xf3f, 0x30c⟩,
   ⟨0x81010, 0x80, 64, .sh, 0xffffff, 0x81040⟩,
   ⟨0x81018, 0x80, 64, .sh, 0xffffffffff, 0x100000⟩,
   ⟨0x81020, 0x80, 64, .sh, 0xffffff, 0x41008⟩,
   ⟨0x81028, 0x80, 64, .sh, 0xf, 8⟩,
   ⟨0x81030, 0x80, 64, .sh, 0xffffff, 0x555a0a⟩,
   ⟨0x81038, 0x80, 64, .live, 0xffffffff, 0xf4240⟩,
   ⟨0x81058, 0x80, 64, .ro, 0xffffffffffffffff, 0⟩,
   ⟨0x81060, 0x80, 64, .sh, 0xffffffff, 0x100000⟩]
/-- The FAB rows (13 R364). -/
def regRowsFab : List RegRow :=
  [⟨0x90008, 0x8, 1, .sh, 0x8003ffff, 0⟩,
   ⟨0x90018, 0x8, 1, .live, 0xffffffff, 0x7d0⟩,
   ⟨0x90020, 0x8, 1, .live, 0xffff, 0x32⟩,
   ⟨0x90028, 0x8, 1, .live, 0xffffffff, 0xfa⟩,
   ⟨0x90038, 0x8, 1, .ro, 0xffffffff, 0⟩,
   ⟨0x90040, 0x8, 1, .ro, 0xffffffffffffffff, 0⟩,
   ⟨0x90048, 0x8, 1, .ro, 0xffffffffffffffff, 0⟩,
   ⟨0x90050, 0x8, 1, .ro, 0xffffffffffffffff, 0⟩,
   ⟨0x90058, 0x8, 1, .ro, 0xffffffffffffffff, 0⟩,
   ⟨0x90100, 0x40, 18, .sh, 0x1, 0⟩,
   ⟨0x90110, 0x40, 18, .ro, 0xffffffffffffffff, 0⟩,
   ⟨0x90118, 0x40, 18, .ro, 0xffffffff, 0⟩,
   ⟨0x90120, 0x40, 18, .sh, 0xffffffffffffffff, 0x1010101010101010⟩,
   ⟨0x90128, 0x40, 18, .sh, 0xffffffffffffffff, 0x1010101010101010⟩,
   ⟨0x90130, 0x40, 18, .rw, 0xf000000000000, 0⟩,
   ⟨0x92000, 0x8, 512, .sh, 0x8fffffff, 0x3ff⟩,
   ⟨0x93000, 0x8, 512, .sh, 0x8fffffff, 0x3ff⟩,
   ⟨0x94000, 0x20, 64, .ro, 0x1ffffffff, 0⟩,
   ⟨0x94008, 0x20, 64, .ro, 0xffffc01fffffffff, 0⟩,
   ⟨0x94010, 0x20, 64, .sh, 0xfff, 0x41⟩]
/-- The TOK rows (10 R282). -/
def regRowsTok : List RegRow :=
  [⟨0xa1000, 0x40, 64, .sh, 0x3f, 8⟩,
   ⟨0xa2000, 0x40, 64, .ro, 0xffffffffffffffff, 0⟩,
   ⟨0xa2008, 0x40, 64, .ro, 0xffffffffffffffff, 0⟩,
   ⟨0xa2010, 0x40, 64, .ro, 0xffffffffffffffff, 0⟩,
   ⟨0xa2018, 0x40, 64, .ro, 0xffffffffffffffff, 0⟩,
   ⟨0xa2020, 0x40, 64, .ro, 0xffffffffffffffff, 0⟩,
   ⟨0xa2028, 0x40, 64, .ro, 0xffffffffffffffff, 0⟩,
   ⟨0xa2030, 0x40, 64, .ro, 0xffffffffffffffff, 0⟩,
   ⟨0xa2038, 0x40, 64, .ro, 0xffffffffffffffff, 0⟩]
/-- The BELL rows (09 R253). -/
def regRowsBell : List RegRow :=
  [⟨0xb1000, 0x40, 64, .sh, 0x3, 0⟩,
   ⟨0xb1008, 0x40, 64, .sh, 0xf0f, 0x408⟩,
   ⟨0xb1010, 0x40, 64, .sh, 0x1fff00ff, 0x4000042⟩,
   ⟨0xb2000, 0x40, 64, .ro, 0xffffffffffffffff, 0⟩,
   ⟨0xb2008, 0x40, 64, .ro, 0xffffffffffffffff, 0⟩,
   ⟨0xb2010, 0x40, 64, .ro, 0xffffffffffffffff, 0⟩,
   ⟨0xb2018, 0x40, 64, .ro, 0xffffffffffffffff, 0⟩,
   ⟨0xb2020, 0x40, 64, .ro, 0xffffffffffffffff, 0⟩,
   ⟨0xb2028, 0x40, 64, .ro, 0xffffffffffffffff, 0⟩]
/-- The RCL rows (11 R306). -/
def regRowsRcl : List RegRow :=
  [⟨0xc1000, 0x40, 64, .sh, 0x3fffffff0000, 0⟩,
   ⟨0xc1008, 0x40, 64, .sh, 0x103, 0⟩,
   ⟨0xc1010, 0x40, 64, .sh, 0xffffffff, 0⟩,
   ⟨0xc1018, 0x40, 64, .sh, 0x1fff00ff, 0x4000000⟩,
   ⟨0xc1020, 0x40, 64, .sh, 0x1ff007f, 0x800020⟩,
   ⟨0xc2000, 0x40, 64, .ro, 0xffffffffffffffff, 0⟩,
   ⟨0xc2008, 0x40, 64, .ro, 0xffffffffffffffff, 0⟩,
   ⟨0xc2010, 0x40, 64, .ro, 0xffffffffffffffff, 0⟩,
   ⟨0xc2018, 0x40, 64, .ro, 0xffffffffffffffff, 0⟩,
   ⟨0xc2020, 0x40, 64, .ro, 0xffffffffffffffff, 0⟩]
/-- The SNAP rows (14 R389). -/
def regRowsSnap : List RegRow :=
  [⟨0xd1000, 0x40, 64, .sh, 0x3fffffff0000, 0⟩,
   ⟨0xd1008, 0x40, 64, .sh, 0x30f, 0x300⟩,
   ⟨0xd1010, 0x40, 64, .sh, 0xffffffff, 0⟩,
   ⟨0xd1018, 0x40, 64, .sh, 0xfffff, 0x1000⟩,
   ⟨0xd1020, 0x40, 64, .live, 0xffff, 0x40⟩,
   ⟨0xd1028, 0x40, 64, .sh, 0xffffffffffff, 0⟩,
   ⟨0xd2000, 0x40, 64, .ro, 0xffffffffffffffff, 0⟩,
   ⟨0xd2008, 0x40, 64, .ro, 0xffffffffffffffff, 0⟩,
   ⟨0xd2010, 0x40, 64, .ro, 0xffffffffffffffff, 0⟩,
   ⟨0xd2018, 0x40, 64, .ro, 0xffffffff, 0⟩]
/-- The SEC rows (15 R414). -/
def regRowsSec : List RegRow :=
  [⟨0xe0010, 0x8, 1, .ro, 0xffffffffffffffff, 0⟩,
   ⟨0xe0018, 0x8, 1, .live, 0xffffffff, 0x11e1a300⟩,
   ⟨0xe1010, 0x40, 64, .sh, 0xffff, 0x200⟩,
   ⟨0xe1028, 0x40, 64, .ro, 0xffffffffffffffff, 0⟩]
/-- The PWR rows (19 R483). -/
def regRowsPwr : List RegRow :=
  [⟨0x100018, 0x8, 1, .ro, 0xffffffffffffffff, 0⟩,
   ⟨0x100020, 0x8, 1, .rw, 0x7f, 0⟩,
   ⟨0x101000, 0x8, 1, .sh, 0xffffffffffffffff, 0x3e80000000a⟩,
   ⟨0x101008, 0x8, 1, .sh, 0xffffffffffffffff, 0x3e800000001⟩,
   ⟨0x101010, 0x8, 1, .sh, 0xffffffffffffffff, 0x3e80000000a⟩,
   ⟨0x101018, 0x8, 1, .sh, 0xffffffffffffffff, 0x3e80000000a⟩,
   ⟨0x101020, 0x8, 1, .sh, 0x7ffffff, 0x4e25f64⟩]
/-- The CLK rows (19 R483). -/
def regRowsClk : List RegRow :=
  [⟨0x111000, 0x8, 1, .sh, 0x1fffff, 0x1fffff⟩]
/-- The TLM rows (19 R484). -/
def regRowsTlm : List RegRow :=
  [⟨0x120008, 0x8, 1, .rw, 0x1ff, 0⟩,
   ⟨0x120020, 0x8, 1, .rw, 0x1f, 0⟩,
   ⟨0x120038, 0x8, 1, .live, 0xffffffff, 0xf4240⟩,
   ⟨0x120040, 0x8, 1, .rw, 0x7f, 0⟩,
   ⟨0x120058, 0x8, 1, .rw, 0x7, 0⟩]
/-- The SCR rows (07 R205). -/
def regRowsScr : List RegRow :=
  [⟨0x131000, 0x40, 64, .sh, 0xf, 2⟩,
   ⟨0x131018, 0x40, 64, .ro, 0xffffffffffffffff, 0⟩,
   ⟨0x131020, 0x40, 64, .ro, 0xffffffffffffffff, 0⟩]
/-- The INK rows (08 R237). -/
def regRowsInk : List RegRow :=
  [⟨0x141000, 0x40, 64, .sh, 0x1, 0⟩,
   ⟨0x141008, 0x40, 64, .sh, 0x1fffff, 0x8000⟩,
   ⟨0x141010, 0x40, 64, .sh, 0x1ffff0f, 0x20002⟩,
   ⟨0x141018, 0x40, 64, .sh, 0xffff001fffff, 0xf33300000000⟩,
   ⟨0x141020, 0x40, 64, .sh, 0xff, 0xec⟩,
   ⟨0x141028, 0x40, 64, .sh, 0xf, 4⟩,
   ⟨0x141030, 0x40, 64, .sh, 0x1ffff, 0⟩,
   ⟨0x142000, 0x40, 64, .ro, 0xffffffffffffffff, 0⟩,
   ⟨0x142008, 0x40, 64, .ro, 0xffffffffffffffff, 0⟩,
   ⟨0x142010, 0x40, 64, .ro, 0xffffffffffffffff, 0⟩,
   ⟨0x142018, 0x40, 64, .ro, 0xffffffffffffffff, 0⟩,
   ⟨0x142020, 0x40, 64, .ro, 0xffffffffffffffff, 0⟩,
   ⟨0x142028, 0x40, 64, .ro, 0xffffffffffffffff, 0⟩,
   ⟨0x142030, 0x40, 64, .ro, 0xffffffffffffffff, 0⟩]
/-- The PEN rows (19 R485, 06 R182). -/
def regRowsPen : List RegRow :=
  [⟨0x1000100, 0x10000, 64, .ro, 0xffffffffffffff07, 0⟩,
   ⟨0x1000108, 0x10000, 64, .live, 0xffffffff, 0x3e8⟩,
   ⟨0x1000110, 0x10000, 64, .ro, 0xffffffffffffffff, 0⟩,
   ⟨0x1000120, 0x10000, 64, .rw, 0x1f, 0⟩,
   ⟨0x1000200, 0x10000, 64, .live, 0x1ff, 0⟩,
   ⟨0x1000208, 0x10000, 64, .live, 0xffff, 0x3e8⟩,
   ⟨0x1000210, 0x10000, 64, .ro, 0xffffffffffffffff, 0⟩]
/-- Every row. -/
def regRows : List RegRow :=
  regRowsSys ++ regRowsLnk ++ regRowsRing ++ regRowsExt ++ regRowsSess ++ regRowsSch ++ regRowsTally ++ regRowsTier ++ regRowsHbm ++ regRowsNfc ++ regRowsFab ++ regRowsTok ++ regRowsBell
  ++ regRowsRcl ++ regRowsSnap ++ regRowsSec ++ regRowsPwr ++ regRowsClk ++ regRowsTlm ++ regRowsScr ++ regRowsInk ++ regRowsPen

/-- Whether row `r` holds the register with key `k`. -/
def RegRow.holds (r : RegRow) (k : Nat) : Bool :=
  decide (r.base ≤ k) && (k - r.base) % r.stride == 0 && decide ((k - r.base) / r.stride < r.count)

/-- The row of the register with key `k`; none where the register is undefined or read out of the state. -/
def regRow (k : Nat) : Option RegRow := regRows.find? (fun r => r.holds k)

/-- The reset value of the register with key `k`. -/
def regReset (k : Nat) : Nat := match regRow k with
  | some r => r.reset
  | none => 0

/-- The active value of the register with key `k`. -/
def State.act (s : State) (k : Nat) : Nat := match getN s.regs.active k with
  | some v => v.toNat
  | none => regReset k

/-- The shadow value: the active one where software has written none. -/
def State.shadowOf (s : State) (k : Nat) : Nat := match getN s.regs.shadow k with
  | some v => v.toNat
  | none => s.act k

/-- `s` with the active value `v` in register `k`. -/
def State.setAct (s : State) (k v : Nat) : State :=
  { s with regs := { s.regs with active := setN s.regs.active k (BitVec.ofNat 64 v) } }

/-- `s` with `n` added to the counter in register `k`, within its field (a 64-bit or 32-bit counter wraps). -/
def State.count (s : State) (k n : Nat) : State :=
  match regRow k with
  | some r => s.setAct k ((s.act k + n) % (r.mask + 1))
  | none => s.setAct k (s.act k + n)

end Sys2Proof.Machine
end

