-- ==== Sys2Proof/Machine/Ops.lean ====
section
/-! DEFINITION. The named operations over the state: memory in canonical form, access to tables, local time, free values, and
the checks of an address (02 R23 to R28, 03 R63, R64). -/
namespace Sys2Proof.Machine

/-! ### Memory: (address, byte) pairs, addresses strictly rising, no byte 0; an unlisted address reads 0 -/

/-- What address `a` reads. -/
def memGet : List Host.Cell → Nat → Byte
  | [], _ => 0
  | (c, v) :: t, a => if c = a then v else memGet t a

/-- The canonical form. -/
def Memory.wf (m : List Host.Cell) : Bool :=
  decide (m.Pairwise (fun p q => p.1 < q.1)) && m.all (fun p => p.2 != 0)

/-- `n` bytes from `a`, in one pass over a memory in canonical form. -/
def memGetN (m : List Host.Cell) (a : Nat) : Nat → List Byte
  | 0 => []
  | n + 1 =>
    match m.dropWhile (fun p => p.1 < a) with
    | [] => List.replicate (n + 1) 0
    | (c, v) :: t => if c = a then v :: memGetN t (a + 1) n else 0 :: memGetN ((c, v) :: t) (a + 1) n

/-- The cells of the bytes `l` from `a` on: the zeros are not listed. -/
def memCells (a : Nat) : List Byte → List Host.Cell
  | [] => []
  | b :: t => if b = 0 then memCells (a + 1) t else (a, b) :: memCells (a + 1) t

/-- Memory with the bytes `l` from `a` on. -/
def memSetN (m : List Host.Cell) (a : Nat) (l : List Byte) : List Host.Cell :=
  m.filter (fun p => p.1 < a) ++ memCells a l ++ m.filter (fun p => a + l.length ≤ p.1)

/-- Memory with every byte from `lo` up to, not including, `hi` zero. -/
def memClear (m : List Host.Cell) (lo hi : Nat) : List Host.Cell := m.filter (fun p => p.1 < lo || hi ≤ p.1)

/-- The little-endian number in `n` bytes at `a`. -/
def memNum (m : List Host.Cell) (a n : Nat) : Nat := ofLe (memGetN m a n)

/-! ### Tables of the state -/

/-- Fold `f`. -/
def State.fold (s : State) (f : Nat) : Fold := getND s.folds f Fold.reset
/-- `s` with fold `f` replaced. -/
def State.setFold (s : State) (f : Nat) (x : Fold) : State := { s with folds := setN s.folds f x }
/-- `s` with `g` applied to fold `f`. -/
def State.modFold (s : State) (f : Nat) (g : Fold → Fold) : State := s.setFold f (g (s.fold f))
/-- Pen `n`. -/
def State.pen (s : State) (n : Nat) : Pen := getND s.pens n Pen.reset
/-- `s` with `g` applied to pen `n`. -/
def State.modPen (s : State) (n : Nat) (g : Pen → Pen) : State := { s with pens := setN s.pens n (g (s.pen n)) }
/-- Ring `r`. -/
def State.ring (s : State) (r : Nat) : Ring := getND s.rings r Ring.reset
/-- `s` with `g` applied to ring `r`. -/
def State.modRing (s : State) (r : Nat) (g : Ring → Ring) : State := { s with rings := setN s.rings r (g (s.ring r)) }
/-- Event queue `q`. -/
def State.eq (s : State) (q : Nat) : EventQueue := getND s.eqs q EventQueue.reset
/-- `s` with event queue `q` replaced. -/
def State.setEq (s : State) (q : Nat) (x : EventQueue) : State := { s with eqs := setN s.eqs q x }
/-- The session `x` as this device holds it. -/
def State.sess (s : State) (x : W64) : Option Sess := getN s.sessions x.toNat
/-- `s` with session `x` replaced. -/
def State.setSess (s : State) (x : W64) (y : Sess) : State := { s with sessions := setN s.sessions x.toNat y }
/-- `s` with `g` applied to session `x`, if held. -/
def State.modSess (s : State) (x : W64) (g : Sess → Sess) : State := { s with sessions := modN s.sessions x.toNat g }
/-- `s` with `g` applied to session `x`'s record, if held. -/
def State.modRec (s : State) (x : W64) (g : Record → Record) : State := s.modSess x (fun y => { y with record := g y.record })
/-- Fabric port `p`. -/
def State.port (s : State) (p : Nat) : Port := getND s.fab.ports p Port.reset
/-- `s` with `g` applied to port `p`. -/
def State.modPort (s : State) (p : Nat) (g : Port → Port) : State :=
  { s with fab := { s.fab with ports := setN s.fab.ports p (g (s.port p)) } }
/-- `s` with `g` applied to the namespace of fold `f`. -/
def State.modNs (s : State) (f : Nat) (g : Namespace → Namespace) : State := s.modFold f (fun x => { x with ns := g x.ns })
/-- `s` with `g` applied to the snapshot engine of fold `f`. -/
def State.modSnap (s : State) (f : Nat) (g : Snap → Snap) : State := s.modFold f (fun x => { x with snap := g x.snap })
/-- `s` with `g` applied to the key state of fold `f`. -/
def State.modKey (s : State) (f : Nat) (g : FoldKey → FoldKey) : State := s.modFold f (fun x => { x with key := g x.key })

/-! ### Time, free values, service -/

/-- The local timer in µs (00 R4). -/
def State.now (s : State) : Nat := s.timer.toNat

/-- A value the spec leaves open: the next free value, and the state that has drawn it. -/
def State.draw (s : State) : Nat × State := (Config.freeValue s.freeCount, { s with freeCount := s.freeCount + 1 })

/-- Whether the device is in service: STATUS 0x5 (16 Table 16-5). -/
def State.ready (s : State) : Bool := s.boot.status == 5

/-- The effect `f` of a command the device performs only in service; out of service nothing changes (log entry 2). -/
def serve (s : State) (f : State → State) : State := if s.ready then f s else s

/-- `t` where `c` holds, else `s`: a step whose event cannot occur changes nothing (log entry 2). -/
def onlyIf (c : Bool) (s t : State) : State := if c then t else s

/-! ### Device and drove numbers -/

/-- The own device number: FAB_SELF with VALID (13 R335). -/
def State.self (s : State) : Option Nat := if bitOf (s.act rFabSelf) 31 then some (bitsOf (s.act rFabSelf) 17 0) else none

/-- The own device number as used in IDs and headers; 0 while FAB_SELF is not valid. -/
def State.selfNo (s : State) : Nat := bitsOf (s.act rFabSelf) 17 0

/-- The drove fold `f` is joined to (FAB_FOLD_DROVE). -/
def State.drove (s : State) (f : Nat) : Option Nat :=
  if bitOf (s.act (rFabFoldDrove f)) 32 then some (bitsOf (s.act (rFabFoldDrove f)) 31 0) else none

/-- The number of members of the fold's drove; a fold that is not joined counts as a drove of one (07 R199). -/
def State.droveSize (s : State) (f : Nat) : Nat := if (s.drove f).isSome then bitsOf (s.act (rFabFoldMember f)) 36 18 else 1

/-- The own member index. -/
def State.memberIndex (s : State) (f : Nat) : Nat := if (s.drove f).isSome then bitsOf (s.act (rFabFoldMember f)) 17 0 else 0

/-- The reduction root's device number. -/
def State.rootOf (s : State) (f : Nat) : Nat := if (s.drove f).isSome then s.act (rFabFoldMember f) / 2 ^ 46 else s.selfNo

/-- Whether this device is the drove's reduction root: member 0, or the member a shrink has made it (14 R385). -/
def State.isRoot (s : State) (f : Nat) : Bool := s.rootOf f == s.selfNo

/-! ### Resources of a fold -/

/-- A fold's pens, rising. -/
def Fold.penList (x : Fold) : List Nat := bitsSet 64 x.pens.toNat
/-- A fold's commons ways, rising. -/
def Fold.wayList (x : Fold) : List Nat := bitsSet 64 x.ways.toNat
/-- The fold's ways that are pinned: those of the draft model, then those of the vocabulary cache, lowest first (log entry 144). -/
def Fold.pinnedWays (x : Fold) : List Nat := x.wayList.take (x.draftWaysUsed + x.cacheWays)
/-- The fold whose pen `n` is, if any. -/
def State.penFold (s : State) (n : Nat) : Option Nat :=
  (s.folds.find? (fun p => p.2.status == 2 && p.2.pens.toNat.testBit n)).map (·.1)
/-- Whether fold `f` is FORMED (19 Table 19-6). -/
def State.formed (s : State) (f : Nat) : Bool := f < 64 && (s.fold f).status == 2

/-- The window of fold `f`: base and limit as local offsets (02 R25). -/
def State.winBase (s : State) (f : Nat) : Nat := s.act (rTierFoldBase f)
def State.winLimit (s : State) (f : Nat) : Nat := s.act (rTierFoldLimit f)

/-- The map index of offset `a` in fold `f`'s window, and the offset of map index `i` (02 R29). -/
def State.mapIndex (s : State) (f a : Nat) : Nat := (a - s.winBase f) / 65536
def State.sheetOffset (s : State) (f i : Nat) : Nat := s.winBase f + i * 65536
/-- Sheet number of map index `i`. -/
def State.sheetNo (s : State) (f i : Nat) : Nat := s.sheetOffset f i / 65536

/-- The sheets of the window. -/
def State.windowSheets (s : State) (f : Nat) : Nat := (s.winLimit f - s.winBase f) / 65536

/-- The map entry of an unbacked sheet (02 R31, R33). -/
def Sheet.unbacked : Sheet :=
  { tier := 7, keygen := 0, snap := false, wet := false, migrating := false, comp := 0, shuf := 0, kind := 0, refs := 0, len := 0,
    loc := 0, lastAccess := 0, lastRead := 0 }

/-- The map entry of index `i`; only backed sheets are listed. -/
def Fold.sheet (x : Fold) (i : Nat) : Sheet := getND x.sheets i Sheet.unbacked

/-- Whether map index `i` is backed. -/
def Fold.backed (x : Fold) (i : Nat) : Bool := hasN x.sheets i

/-- The sheets fold `x` holds in tier `t` (02 R41). -/
def Fold.use (x : Fold) (t : Nat) : Nat := (x.sheets.filter (fun p => p.2.tier == t)).length

/-! ### Poison (18 R452) -/

/-- Whether any 64-byte unit of the `n` bytes at local offset `a` is poisoned. -/
def State.poisoned (s : State) (a n : Nat) : Bool := s.poison.any (fun u => decide (a / 64 ≤ u) && decide (u * 64 < a + n))

/-- The poisoned 64-byte units of a region, counted from its start. -/
def badUnits (s : State) (a n : Nat) : List Nat := (List.range (ceilDiv n 64)).filter (fun u => s.poisoned (a + 64 * u) (min 64 (n - 64 * u)))

/-- `s` with the units of the `n` bytes at `a` poisoned. -/
def State.addPoison (s : State) (us : List Nat) : State :=
  { s with poison := us.foldl (fun p u => if p.contains u then p else insertBy (fun a b => a < b) u p) s.poison }

/-- `s` with the marks cleared of every unit that a write of `n` bytes at `a` replaces whole. -/
def State.clearPoison (s : State) (a n : Nat) : State :=
  { s with poison := s.poison.filter (fun u => !(decide (a ≤ u * 64) && decide (u * 64 + 64 ≤ a + n))) }

/-- A write of `l` at local offset `a` into the device's memory, poison marks with it. -/
def State.write (s : State) (a : Nat) (l : List Byte) : State :=
  { s with mem := memSetN s.mem a l }.clearPoison a l.length

/-- `n` bytes at local offset `a` of the device's memory. -/
def State.read (s : State) (a n : Nat) : List Byte := memGetN s.mem a n

/-- The little-endian number in `n` bytes at local offset `a`. -/
def State.num (s : State) (a n : Nat) : Nat := memNum s.mem a n

/-! ### Host windows (03 R63, R64) -/

/-- Whether window `n` is enabled (LNK_WIN_KIND.ENABLE). -/
def State.winOn (s : State) (n : Nat) : Bool := bitOf (s.act (rLnkWinKind n)) 8
/-- Size of window `n` in bytes: 2 MiB × 2^K. -/
def State.winSize (s : State) (n : Nat) : Nat := 0x200000 * 2 ^ s.act (rLnkWinSize n)
/-- The enabled window whose range holds offset `a`. -/
def State.winAt (s : State) (a : Nat) : Option Nat :=
  (List.range 256).find? (fun n => s.winOn n && decide (s.act (rLnkWinBase n) ≤ a) &&
    decide (a < s.act (rLnkWinBase n) + s.winSize n))
/-- Host physical address of offset `a` in window `n`. -/
def State.winPhys (s : State) (n a : Nat) : Nat := s.act (rLnkWinHost n) + (a - s.act (rLnkWinBase n))

/-- The check of an access through the host-window range, in the order of 03 R64: `kind` 0 general, 1 the T4 area. -/
def State.hostPhys (s : State) (owner a len kind : Nat) : Except W16 Nat :=
  match s.winAt a with
  | none => .error stBadDescriptor
  | some n =>
    if s.act (rLnkWinBase n) + s.winSize n < a + len then .error stBadDescriptor
    else if s.act (rLnkWinOwner n) != owner then .error stNotOwner
    else if bitsOf (s.act (rLnkWinKind n)) 0 0 != kind then .error stBadDescriptor
    else .ok (s.winPhys n a)

/-! ### The link's transfers (03 R59, Table 3-1) -/

/-- Completion space reserved for a read of `n` bytes: at most 4 KiB a read, 512 reads outstanding. -/
def LinkReads.reserve (n : Nat) (c : LinkReads) : Option LinkReads :=
  if n ≤ 4096 && c.reads < 512 then some { reads := c.reads + 1, space := c.space + n } else none

/-- The completion of a read of `n` bytes has come. -/
def LinkReads.arrive (n : Nat) (c : LinkReads) : LinkReads := { reads := c.reads - 1, space := c.space - n }

/-- The reads, (address, length), that `n` bytes at host address `p` are fetched by. -/
def readRequests : Nat → Nat → Nat → List (Nat × Nat)
  | 0, p, n => [(p, n)]
  | k + 1, p, n => if n ≤ 4096 then [(p, n)] else (p, 4096) :: readRequests k (p + 4096) (n - 4096)

/-- Reads issued one after the other, each with its completion space reserved first: the bytes, and the reads still outstanding. One that finds no
space brings nothing. -/
def issueReads (m : List Host.Cell) : List (Nat × Nat) → LinkReads → List Byte × LinkReads
  | [], c => ([], c)
  | r :: t, c => match c.reserve r.2 with
    | none => ([], c)
    | some d =>
      let q := issueReads m t (d.arrive r.2)
      (memGetN m r.1 r.2 ++ q.1, q.2)

/-- `n` bytes of host memory at host address `p`, over the link. -/
def State.linkRead (s : State) (p n : Nat) : List Byte := (issueReads s.hostMem (readRequests (n / 4096) p n) s.link.credit).1

/-- The writes, (address, bytes), that `l` goes out as: at most 4 KiB each, none across a 4 KiB host boundary. -/
def writeRequests : Nat → Nat → List Byte → List (Nat × List Byte)
  | 0, p, l => [(p, l)]
  | k + 1, p, l =>
    let n := 4096 - p % 4096
    if l.length ≤ n then [(p, l)] else (p, l.take n) :: writeRequests k (p + n) (l.drop n)

/-- Posted writes performed in order; the adapter grants a credit for each (log entry 152). -/
def postWrites (m : List Host.Cell) (l : List (Nat × List Byte)) : List Host.Cell := l.foldl (fun m r => memSetN m r.1 r.2) m

/-- `l` written to host memory at host address `p`, over the link; nothing after a fail-stop (03 R61). -/
def State.linkWrite (p : Nat) (l : List Byte) (s : State) : State :=
  if s.boot.status = 15 then s else { s with hostMem := postWrites s.hostMem (writeRequests (l.length / 4096 + 1) p l) }

/-- `n` bytes of host memory at window offset `a` for `owner`; the status that refuses the access otherwise. -/
def State.hostRead (s : State) (owner a n : Nat) : Except W16 (List Byte) :=
  match s.hostPhys owner a n 0 with
  | .ok p => .ok (s.linkRead p n)
  | .error e => .error e

/-- `s` with `l` written to host memory at window offset `a` for `owner`; nothing is sent where the access is refused. -/
def State.hostWrite (s : State) (owner a : Nat) (l : List Byte) : State :=
  match s.hostPhys owner a l.length 0 with
  | .ok p => s.linkWrite p l
  | .error _ => s

/-! ### Addresses (02 R23, R24, R26, R27, R28) -/

/-- Where an admitted access lands. -/
inductive Place where
  | cell (a : Nat)
  | host (phys : Nat)
  deriving DecidableEq, Repr

/-- The pinned-window check of 02 R27. -/
def State.pinnedOk (s : State) (f a len : Nat) : Option W16 :=
  if a < 0x390000000000 then
    let n := (a - 0x380000000000) / 0x1000000
    let o := (a - 0x380000000000) % 0x1000000
    if 64 ≤ n || 0x600000 < o + len then some stBadDescriptor
    else if (s.fold f).status = 2 && (s.fold f).pens.toNat.testBit n && decide (o + len ≤ (s.fold f).pinned * 65536) then none
    else some stNotOwner
  else
    let w := (a - 0x390000000000) / 0x100000
    let o := (a - 0x390000000000) % 0x100000
    if 64 ≤ w || 0xC0000 < o + len then some stBadDescriptor
    else if (s.fold f).status = 2 && (s.fold f).pinnedWays.contains w then none
    else some stNotOwner

/-- The check of a local access of `len` bytes at offset `a` on behalf of fold `f` (or of the management path), and where it
lands. `kind` is the window kind the access asks for (03 R64). -/
def State.place (s : State) (f a len kind : Nat) : Except W16 Place :=
  if a < 0x300000000000 then
    if f < 64 && decide (s.winBase f ≤ a) && decide (a + len ≤ s.winLimit f) then .ok (.cell a) else .error stNotOwner
  else if a < 0x380000000000 then
    match s.hostPhys f a len kind with
    | .ok p => .ok (.host p)
    | .error e => .error e
  else if a < 0x3C0000000000 then
    match s.pinnedOk f a len with
    | none => .ok (.cell a)
    | some e => .error e
  else .error stBadDescriptor

/-- Whether an offset lies in a reserved range of 02 Table 2-1. -/
def reservedOffset (a : Nat) : Bool :=
  (decide (0x3C0000000000 ≤ a) && decide (a < 0x3FF000000000)) || (decide (0x3FF002000000 ≤ a) && decide (a < 0x3FF100000000)) ||
    decide (0x3FF101000000 ≤ a)

/-- Local offset of slate byte `o` of pen `n`, and of byte `o` of commons way `w` (02 Table 2-2). -/
def slateAt (n o : Nat) : Nat := 0x380000000000 + n * 0x1000000 + o
def commonsAt (w o : Nat) : Nat := 0x390000000000 + w * 0x100000 + o

/-! ### Marks (17 R448): bits 0 to 18; temperatures in eighths of a degree -/

/-- A mark that keeps the largest value. -/
def markMax (k : Nat) (v : Int) (s : State) : State :=
  match getN s.power.marks k with
  | some w => if w < v then { s with power := { s.power with marks := setN s.power.marks k v } } else s
  | none => { s with power := { s.power with marks := setN s.power.marks k v } }

/-- Sequence-table entries not FREE, of all folds (05 R149). -/
def State.seqUsed (s : State) : Nat := sumOn (fun p : Nat × Fold => p.2.seqs.length) s.folds

end Sys2Proof.Machine
end

