-- ==== Sys2Proof/Machine/Events.lean ====
section
/-! DEFINITION. Event records and queues (03 R72 to R79), completions (03 R70, R74), error records and counts (18 R455, R456),
fail-stop (18 R457 to R459). -/
namespace Sys2Proof.Machine

/-! ### Records and queues -/

/-- The 32 bytes of a record (03 Table 3-6). -/
def eventBytes (e : EventRec) (overrun phase : Bool) : List Byte :=
  leBytes 1 e.type ++ leBytes 1 (e.fold % 64 + b2n e.device * 64 + b2n overrun * 128) ++ leBytes 2 e.status.toNat ++
  leBytes 2 e.flags.toNat ++ leBytes 2 (e.ring.getD 0 % 4096 + b2n e.ring.isNone * 32768) ++ leBytes 8 e.session.toNat ++
  leBytes 2 e.tag.toNat ++ leBytes 1 e.opcode ++ leBytes 1 e.count ++ padTo 11 e.specific ++ leBytes 1 (b2n phase * 128)

/-- Whether queue `q` is enabled, its owner, its log2 size, its size in records (19 Table 19-9). -/
def State.eqOn (s : State) (q : Nat) : Bool := q < 256 && bitOf (s.act (rRingEqCfg q)) 16
def State.eqOwner (s : State) (q : Nat) : Nat := bitsOf (s.act (rRingEqCfg q)) 14 8
def State.eqLog2 (s : State) (q : Nat) : Nat := bitsOf (s.act (rRingEqCfg q)) 4 0
def State.eqSize (s : State) (q : Nat) : Nat := 2 ^ s.eqLog2 q

/-- Whether a head word last re-read at `t` may be re-read: every 2 µs of the local timer (03 R73, R84, R507). -/
def pollDue (t : Option Nat) (now : Nat) : Bool := t.all (fun t => decide (t + 2 ≤ now))

/-- Whether the cached head shows queue `q` full (03 R73). -/
def State.eqFull (s : State) (q : Nat) : Bool := decide (s.eqSize q ≤ ((s.eq q).producer - (s.eq q).cachedHead).toNat)

/-- One record written to queue `q` in one 32-byte write (03 R72, R73). -/
def writeRecord (q : Nat) (e : EventRec) (s : State) : State :=
  let x := s.eq q
  let c := x.producer.toNat
  let phase := c / 2 ^ s.eqLog2 q % 2 == 0
  let s := s.hostWrite (s.eqOwner q) (s.act (rRingEqBase q) + c % s.eqSize q * 32) (eventBytes e (e.overrun || x.overrun) phase)
  s.setEq q { x with producer := x.producer + 1, overrun := false }

/-- Types that never merge (03 R79 rule 3). -/
def neverMerges (t : Nat) : Bool := t == evCompletion || t == evSessionEnded || t == evOwnershipChanged

/-- Whether the new record `e` merges into the backlog record `b`. -/
def mergesInto (e b : EventRec) : Bool :=
  !neverMerges e.type && b.type == e.type && b.fold == e.fold && b.device == e.device && b.ring == e.ring && b.session == e.session

/-- A backlog with `e` merged into the first record that takes it; none where none does (03 R79 rule 3). -/
def mergeRecord (e : EventRec) : List EventRec → Option (List EventRec)
  | [] => none
  | b :: t =>
    if mergesInto e b then
      some ({ b with status := e.status, specific := e.specific, flags := b.flags ||| e.flags, count := min 255 (b.count + 1) } :: t)
    else (mergeRecord e t).map (b :: ·)

/-- `e` kept for a full queue: merged, appended, or discarded and counted (03 R79 rules 3 and 4). -/
def keepRecord (q : Nat) (e : EventRec) (s : State) : State :=
  let x := s.eq q
  match mergeRecord e x.backlog with
  | some b => s.setEq q { x with backlog := b }
  | none =>
    if x.backlog.length < 8192 then s.setEq q { x with backlog := x.backlog ++ [e] }
    else
      { s with dropped := setN s.dropped (q * 32 + e.type) (getND s.dropped (q * 32 + e.type) 0 + 1) }.setEq q
        { x with overrun := true }

/-- `e` to queue `q`: written, or kept while the queue is full or its backlog is not empty. -/
def postTo (q : Nat) (e : EventRec) (s : State) : State :=
  if !s.eqOn q then { s with undelivered := s.undelivered ++ [e] }
  else if (s.eq q).backlog.isEmpty && !s.eqFull q then writeRecord q e s
  else keepRecord q e s

/-- Backlog records written in their order while space lasts (03 R79 rule 5). -/
def flushBacklog (q : Nat) : Nat → State → State
  | 0, s => s
  | n + 1, s =>
    match (s.eq q).backlog with
    | [] => s
    | e :: t => if s.eqFull q then s else flushBacklog q n (writeRecord q e (s.setEq q { s.eq q with backlog := t }))

/-- The lowest-numbered enabled queue of an owner: a fold's default queue, or the management queue (03 R75). -/
def State.defaultQueue (s : State) (owner : Nat) : Option Nat :=
  (List.range 256).find? (fun q => s.eqOn q && s.eqOwner q == owner)

/-- A record with no ring, session or tag. -/
def plainRecord (type fold : Nat) (device : Bool) (status flags : W16) (specific : List Byte) : EventRec :=
  { type := type, fold := fold, device := device, overrun := false, status := status, flags := flags, ring := none, session := 0,
    tag := 0, opcode := 0, count := 0, specific := specific }

/-- `e` to the default queue of `owner`; kept undelivered while the owner has no enabled queue (log entry 12). -/
def postOwner (owner : Nat) (e : EventRec) (s : State) : State :=
  match s.defaultQueue owner with
  | some q => postTo q e s
  | none => { s with undelivered := s.undelivered ++ [e] }

/-- A record of fold `f` to its default queue. -/
def postFold (type f : Nat) (status flags : W16) (specific : List Byte) (s : State) : State :=
  postOwner f (plainRecord type f false status flags specific) s

/-- A record that concerns no fold, to the management queue. -/
def postDevice (type : Nat) (status flags : W16) (specific : List Byte) (s : State) : State :=
  postOwner mgmtPath (plainRecord type 0 true status flags specific) s

/-! ### Rings -/

def State.ringOwner (s : State) (r : Nat) : Nat := bitsOf (s.act (rRingSqCfg r)) 14 8
def State.ringLog2 (s : State) (r : Nat) : Nat := bitsOf (s.act (rRingSqCfg r)) 4 0
def State.ringQueue (s : State) (r : Nat) : Nat := bitsOf (s.act (rRingSqCfg r)) 23 16
def State.ringClient (s : State) (r : Nat) : Nat := bitsOf (s.act (rRingSqCfg r)) 31 24

/-- The FOLD and DEVICE bits of a COMPLETION (03 R74): the ring's fold, or the fold a management body names. -/
def completionFold (s : State) (op : Nat) (d : Desc) : Nat × Bool :=
  if s.ringOwner d.ring < 64 then (s.ringOwner d.ring, false)
  else if [opQuotaSet, opRoleSet, opDroveJoin, opDroveShrink, opDroveRebalance].contains op && decide (descByte d 16 < 64) then
    (descByte d 16, false)
  else (0, true)

/-- A COMPLETION written to the ring's own queue (03 R74, R75). -/
def postCompletion (op : Nat) (d : Desc) (status flags : W16) (specific : List Byte) (s : State) : State :=
  let fd := completionFold s op d
  postTo (s.ringQueue d.ring)
    { type := evCompletion, fold := fd.1, device := fd.2, overrun := false, status := status, flags := flags, ring := some d.ring,
      session := d.session, tag := d.tag, opcode := op, count := 0, specific := specific } s

/-- The list without the first occurrence of `a`. -/
def dropFirst {α : Type} [DecidableEq α] (a : α) : List α → List α
  | [] => []
  | b :: t => if b = a then t else b :: dropFirst a t

/-- A ring whose last descriptor has completed: a disable or reset under way ends in DISABLED (03 Table 3-3). -/
def settleRing (r : Nat) (s : State) : State :=
  let x := s.ring r
  if x.inflight.isEmpty && x.fetched.isEmpty && x.fence.isNone && x.closing then s.modRing r (fun y => { y with state := 0, closing := false }) else s

/-- A waiting FENCE completes once nothing earlier is left (03 R91 rule 3). -/
def settleFence (r : Nat) (s : State) : State :=
  let x := s.ring r
  match x.fence with
  | some d =>
    if x.inflight.isEmpty && x.fetched.isEmpty then
      settleRing r (s.modRing r (fun y => { y with fence := none }) |> fun s =>
        if suppressOk d then s else postCompletion opFence d stOk 0 [] s)
    else s
  | none => s

/-- A descriptor completes, its record naming session `x`: exactly one COMPLETION, none for ST_OK under SUPPRESS_OK (03 R70), and
what waited for it. -/
def completeAs (op : Nat) (d : Desc) (x : W64) (status flags : W16) (specific : List Byte) (s : State) : State :=
  let s := s.modRing d.ring (fun y => { y with inflight := dropFirst (op, d) y.inflight })
  let s := if suppressOk d && status == stOk then s else postCompletion op { d with session := x } status flags specific s
  settleFence d.ring (settleRing d.ring s)

/-- A descriptor completes (03 R70). -/
def complete (op : Nat) (d : Desc) (status flags : W16) (specific : List Byte) (s : State) : State :=
  completeAs op d d.session status flags specific s

/-- A descriptor taken from its ring's fetched ones and begun (log entry 4: a descriptor the ring has not fetched is performed
as if it had been). -/
def beginDesc (op : Nat) (d : Desc) (s : State) : State :=
  s.modRing d.ring (fun x => { x with fetched := dropFirst (op, d) x.fetched, inflight := x.inflight ++ [(op, d)] })

/-- A result that may be refused with a status; the state of a refusal holds what the refusal itself leaves (events, counts). -/
abbrev Tried (α : Type) := Except (W16 × State) α

/-- `f` on the result of `t`. -/
def andThen {α β : Type} (t : Tried α) (f : α → Tried β) : Tried β := match t with
  | .ok a => f a
  | .error e => .error e

/-- Whether descriptor `d` may be performed: no descriptor fetched before it from its ring that names its session still waits (03 R91 rule 2). -/
def State.inOrder (s : State) (op : Nat) (d : Desc) : Bool :=
  d.session == 0 || !((s.ring d.ring).fetched.takeWhile (fun e => e != (op, d))).any (fun e => e.2.session == d.session)

/-- The common checks of 03 R70 in their order, then the opcode's own part `body`, which completes the descriptor itself when
it is performed. `reserved` says that the reserved body bytes and encodings are right, `session` that the opcode names a
session; `early` gives the SPECIFIC bytes of a refusal. -/
def descriptorAs (op : Nat) (reserved session : Bool) (early : State → List Byte) (d : Desc) (body : State → Tried State)
    (s : State) : State :=
  if !s.inOrder op d then s else
  let s := beginDesc op d s
  let owner := s.ringOwner d.ring
  if !flagsReserved d || !reserved || !(session || noSession d) then complete op d stBadDescriptor 0 (early s) s
  else if op != opFence && (isManagementOp op != decide (owner = mgmtPath)) then complete op d stNotOwner 0 (early s) s
  else match body s with
    | .ok s' => s'
    | .error e => complete op d e.1 0 (early e.2) e.2

/-- The common checks of an opcode whose refusals carry no SPECIFIC bytes. -/
def descriptor (op : Nat) (reserved session : Bool) (d : Desc) (body : State → Tried State) (s : State) : State :=
  descriptorAs op reserved session (fun _ => []) d body s

/-- The fold on whose behalf a descriptor of a fold's ring acts. -/
def State.descFold (s : State) (d : Desc) : Nat := s.ringOwner d.ring

/-! ### Error records (18) -/

/-- The SPECIFIC bytes of an error record (18 Table 18-3). -/
def errorSpecific (source unit detail sheet extra : Nat) : List Byte :=
  leBytes 1 source ++ leBytes 1 unit ++ leBytes 1 detail ++ [0] ++ leBytes 4 sheet ++ leBytes 3 extra

/-- ERROR_UNCORRECTED (18 R455, R456), to the fold concerned or, with DEVICE, to the management queue. -/
def errorUncorrected (fold : Option Nat) (source unit detail sheet extra : Nat) (s : State) : State :=
  let st := if 7 ≤ source && source ≤ 9 then stInternal else stPoison
  let s := s.count rSysErrUeTotal 1
  match fold with
  | some f => postFold evErrorUncorrected f st 0 (errorSpecific source unit detail sheet extra) s
  | none => postDevice evErrorUncorrected st 0 (errorSpecific source unit detail sheet extra) s

/-- `n` corrections at a unit: counted, and one ERROR_CORRECTED at the first after the unit's last record, never more often
than once per SYS_ERR_CE_INTERVAL (18 R455). -/
def errorCorrected (fold : Option Nat) (source unit detail n : Nat) (s : State) : State :=
  if n = 0 then s else
  let key := source * 256 + unit
  let u := getND s.errors key ⟨0, none⟩
  let s := s.count rSysErrCeTotal n
  let due := match u.last with
    | none => true
    | some t => decide (t + max 100 (s.act rSysErrCeInterval) ≤ s.now)
  if due then
    let spec := errorSpecific source unit detail 0xFFFFFFFF (min 0xFFFFFF (u.since + n))
    let s := { s with errors := setN s.errors key ⟨0, some s.now⟩ }
    match fold with
    | some f => postFold evErrorCorrected f stOk 0 spec s
    | none => postDevice evErrorCorrected stOk 0 spec s
  else { s with errors := setN s.errors key ⟨u.since + n, u.last⟩ }

/-! ### Fail-stop (18 R457 to R459, 03 R61) -/

/-- The fold without its keys (18 Table 18-5 step 5). -/
def FoldKey.zeroed (k : FoldKey) : FoldKey := { k with current := [], old := [], next := none, imageKeys := [], ownerKeys := [], ephemeral := none }

/-- Fail-stop for a cause of 18 Table 18-4: the first cause and the timer recorded, FATAL sent four times if the link is up,
FAULT_N low, STATUS 0xF, ports and link down, waiting host writes discarded, SEC zeroed. -/
def failStop (cause : Nat) (s : State) : State :=
  if s.boot.status = 15 then s else
  let s := if s.act rSysErrFatal = 0 then s.setAct rSysErrFatal (cause + s.now % 2 ^ 32 * 2 ^ 32) else s
  { s with
    link := { s.link with fatalFlits := if s.link.up then List.replicate 4 cause else [], up := false, training := false }
    boot := { s.boot with status := 15, faultN := false }
    fab := { s.fab with ports := s.fab.ports.map (fun p => (p.1, { p.2 with state := 0, wire := none })) }
    eqs := s.eqs.map (fun p => (p.1, { p.2 with backlog := [] }))
    pens := s.pens.map (fun p => (p.1, { p.2 with running := false, bank0 := StreamBank.reset, bank1 := StreamBank.reset,
                                                   reread := none }))
    sec := { s.sec with ak := false }
    folds := s.folds.map (fun p => (p.1, { p.2 with key := p.2.key.zeroed })) }

end Sys2Proof.Machine
end

