-- ==== Sys2Proof/Machine/Flash.lean ====
section
/-! DEFINITION. The flash tier (12): namespaces and their states, page programming, the SLC buffer, garbage collection,
retirement and read-only, reads, health. FLASH_DISCARD and HEALTH_READ stand in FlashHost. -/
namespace Sys2Proof.Machine

/-- Namespace states (12 Table 12-2). -/
def nsAbsent : Nat := 0
def nsForming : Nat := 1
def nsNormal : Nat := 2
def nsRebuilding : Nat := 3
def nsReadOnly : Nat := 4
def nsReleasing : Nat := 5

/-- Map values (12 R314). -/
def lpnPoisoned : Nat := 0xFFFFFFFE
def lpnUnmapped : Nat := 0xFFFFFFFF

/-! ### Geometry -/

/-- A superblock that no entry lists: free, never erased since formation. -/
def SuperBlock.fresh : SuperBlock := ⟨0, 0, 0, [], false, 0⟩
/-- Superblock `b`. -/
def Namespace.sb (x : Namespace) (b : Nat) : SuperBlock := getND x.blocks b SuperBlock.fresh
/-- `x` with `g` applied to superblock `b`. -/
def Namespace.modSb (x : Namespace) (b : Nat) (g : SuperBlock → SuperBlock) : Namespace :=
  { x with blocks := setN x.blocks b (g (x.sb b)) }
/-- The units of superblock `b` that are not bad. -/
def Namespace.goodUnits (x : Namespace) (b : Nat) : List Nat := (List.range x.units).filter (fun u => !(x.sb b).badUnits.contains u)

/-- The units of the channels in `mask` (12 R311), in order of channel, chip enable, LUN and plane (log entry 30): each chip
enable present and not fenced, as the place fields of a grown-bad entry (12 R329): bits 3:0 channel, 6:4 chip enable, 8:7 LUN,
10:9 plane. -/
def unitPlaces (s : State) (mask : Nat) : List Nat :=
  (bitsSet 16 mask).flatMap (fun c =>
    (bitsSet 8 ((s.boot.chipEnables.getD c 0) &&& (255 ^^^ (s.boot.chipEnablesFenced.getD c 0)))).flatMap (fun ce =>
      (List.range s.boot.firmware.luns).flatMap (fun l =>
        (List.range s.boot.firmware.planes).map (fun p => c + ce * 16 + l * 128 + p * 512))))

/-- Pages of superblock `b` in its mode: an SLC superblock holds one bit per cell (log entry 30). -/
def Namespace.pagesOf (x : Namespace) (fw : Firmware) (b : Nat) : Nat :=
  let n := (x.goodUnits b).length
  if (x.sb b).mode = 1 || (x.sb b).mode = 4 then n * (fw.ppb / max 1 fw.bits) else n * fw.ppb

/-- The PPN of the n-th page programmed in superblock `b` (12 R314), page by page across its good units. -/
def Namespace.ppnOf (x : Namespace) (fw : Firmware) (b n : Nat) : Nat :=
  let g := x.goodUnits b
  (b * fw.ppb + n / max 1 g.length) * x.units + g.getD (n % max 1 g.length) 0

/-- Superblock, page and unit of a PPN. -/
def ppnBlock (x : Namespace) (fw : Firmware) (p : Nat) : Nat := p / max 1 x.units / max 1 fw.ppb
def ppnPage (x : Namespace) (fw : Firmware) (p : Nat) : Nat := p / max 1 x.units % max 1 fw.ppb
/-- The channel and the chip enable of the unit that holds a PPN. -/
def ppnChannel (x : Namespace) (p : Nat) : Nat := bitsOf (x.places.getD (p % max 1 x.units) 0) 3 0
def ppnChipEnable (x : Namespace) (p : Nat) : Nat := bitsOf (x.places.getD (p % max 1 x.units) 0) 6 4

/-- Free superblocks (12 R320). -/
def Namespace.freeSb (x : Namespace) (fw : Firmware) : Nat := fw.nsb - (x.blocks.filter (fun p => p.2.mode != 0)).length
/-- Superblocks of the buffer. -/
def Namespace.bufferSb (x : Namespace) : Nat := (x.blocks.filter (fun p => p.2.mode == 1 || p.2.mode == 4)).length

/-- The free superblock with the lowest erase count, then the lowest number (12 R320). -/
def Namespace.pickFree (x : Namespace) (fw : Firmware) : Option Nat :=
  match firstFrom (fun b => !hasN x.blocks b) (x.blocks.length + 1) 0 with
  | some b => if b < fw.nsb then
      (match minOn (fun p : Nat × SuperBlock => p.2.erases) (x.blocks.filter (fun p => p.2.mode == 0)) with
        | some p => if p.2.erases = 0 && decide (p.1 < b) then some p.1 else some b
        | none => some b)
    else (minOn (fun p : Nat × SuperBlock => p.2.erases) (x.blocks.filter (fun p => p.2.mode == 0))).map (·.1)
  | none => none

/-- The buffer's size in superblocks (12 R318, Table 12-3). -/
def State.bufferTarget (s : State) (f : Nat) : Nat :=
  let x := (s.fold f).ns
  let nsb := s.boot.firmware.nsb
  if s.act rNfcService = 1 && x.state != nsRebuilding then ceilDiv (nsb * 4) 100
  else
    let free := x.slots - x.slotsUsed.length
    let pct := if 3 * x.slots ≤ 4 * free then 16 else if x.slots ≤ 2 * free then 10 else if x.slots ≤ 4 * free then 6
      else if x.slots ≤ 10 * free then 3 else 1
    max 1 (ceilDiv (nsb * pct) 100)

/-! ### Codewords and their metadata (12 R315) -/

/-- The 16 metadata bytes of codeword `i`: LPN or chunk, WSEQ, the codeword's index with TRIM, CHECKPOINT and SLC, the fold. -/
def codewordInfo (f lpn wseq i : Nat) (trim checkpoint slc : Bool) : List Byte :=
  leBytes 4 lpn ++ leBytes 6 wseq ++ leBytes 1 (i % 4 + 32 * b2n trim + 64 * b2n checkpoint + 128 * b2n slc) ++ leBytes 1 f ++ zerosB 4

def infoLpn (l : List Byte) : Nat := leAt l 0 4
def infoWseq (l : List Byte) : Nat := leAt l 4 6
def infoTrim (l : List Byte) : Bool := bitOf (leAt l 10 1) 5

/-- A 16 KiB page as its four codewords of 4,568 bytes: data, metadata, parity of the device's own code. `info` is codeword 0's metadata. -/
def pageCodewords (info data : List Byte) : List (List Byte) :=
  (List.range 4).map (fun i =>
    let c := sliceB data (4096 * i) 4096 ++ (info.take 10 ++ leBytes 1 (leAt info 10 1 / 4 * 4 + i) ++ info.drop 11)
    c ++ padTo 456 (Config.ldpcParity c))

/-! ### Programming pages -/

/-- One page for `lpn` programmed in superblock `b`: its PPN, with WSEQ and what a rebuild will read of it. -/
def programPage (f : Nat) (fw : Firmware) (b lpn : Nat) (x : Namespace) : Namespace × Nat :=
  let ppn := x.ppnOf fw b (x.sb b).written
  ({ x.modSb b (fun y => { y with written := y.written + 1 }) with
      wseq := x.wseq + 1, nandPages := x.nandPages + 1
      log := x.log ++ [⟨codewordInfo f lpn x.wseq 0 false false ((x.sb b).mode == 1), ppn, []⟩] }, ppn)

/-- Superblock `b` closed: native ones become candidates, buffer ones wait for folding. -/
def closeSb (b : Nat) (x : Namespace) : Namespace :=
  let x := x.modSb b (fun y => { y with mode := if y.mode = 1 then 4 else 3, closedAt := x.wseq })
  { x with openBuffer := if x.openBuffer = some b then none else x.openBuffer
           openNative := if x.openNative = some b then none else x.openNative
           openGc := if x.openGc = some b then none else x.openGc }

/-- `x` with the open superblock `o` closed if it is full. -/
def closeFull (fw : Firmware) (o : Option Nat) (x : Namespace) : Namespace :=
  match o with
  | some b => if x.pagesOf fw b ≤ (x.sb b).written then closeSb b x else x
  | none => x

/-- A superblock opened from the free pool in `mode`; none while only the RESERVE is free and `gc` is false (12 R320). -/
def openSb (fw : Firmware) (reserve mode : Nat) (gc : Bool) (x : Namespace) : Option (Namespace × Nat) :=
  if x.freeSb fw ≤ (if gc then 0 else reserve) then none else
  match x.pickFree fw with
  | some b => some (x.modSb b (fun y => { y with mode := mode, written := 0 }), b)
  | none => none

/-- The superblock the next page of a TIER write goes to (12 R318, R319): the open buffer superblock, a new one while the buffer
is below its size, else a native one; the flag says that the page is direct. None where the write waits. -/
def writeTarget (s : State) (f : Nat) (x : Namespace) : Option (Namespace × Nat × Bool) :=
  let fw := s.boot.firmware
  let reserve := bitsOf (s.act (rNfcGcThresh f)) 23 16
  let x := closeFull fw x.openNative (closeFull fw x.openBuffer x)
  match x.openBuffer with
  | some b => some (x, b, false)
  | none =>
    match (if x.bufferSb < s.bufferTarget f then openSb fw reserve 1 false x else none) with
    | some (y, b) => some ({ y with openBuffer := some b }, b, false)
    | none =>
      match x.openNative with
      | some b => some (x, b, true)
      | none =>
        match openSb fw reserve 2 false x with
        | some (y, b) => some ({ y with openNative := some b }, b, true)
        | none => none

/-- Pages of one TIER write programmed in turn: their (LPN, PPN), and how many were direct. -/
def programList (s : State) (f : Nat) : List Nat → Namespace → Option (Namespace × List (Nat × Nat) × Nat)
  | [], x => some (x, [], 0)
  | l :: t, x =>
    match writeTarget s f x with
    | none => none
    | some (x, b, direct) =>
      let r := programPage f s.boot.firmware b l x
      let x := { r.1 with map := setN r.1.map l r.2, hostPages := r.1.hostPages + 1, sinceCheckpoint := r.1.sinceCheckpoint + 1 }
      match programList s f t x with
      | none => none
      | some (x, ps, n) => some (x, (l, r.2) :: ps, n + b2n direct)

/-- A checkpoint (12 R317): the whole map and the state, covering what has been programmed; its own pages count as programmed. -/
def writeCheckpoint (x : Namespace) : Namespace :=
  let pages := ceilDiv (5 * x.slots * 4) 16384 + 1
  { x with checkpoint := some ⟨x.map, x.state, x.wseq⟩, log := [], sinceCheckpoint := 0, wseq := x.wseq + pages
           nandPages := x.nandPages + BitVec.ofNat 64 pages }

/-- A checkpoint every NFC_CHECKPOINT host pages. -/
def checkpointDue (s : State) (f : Nat) (x : Namespace) : Namespace :=
  if s.act (rNfcCheckpoint f) ≤ x.sinceCheckpoint then writeCheckpoint x else x

/-! ### Slots -/

/-- The lowest-numbered free slot (12 R312). -/
def Namespace.freeSlot (x : Namespace) : Option Nat :=
  match firstFrom (fun k => !x.slotsUsed.contains k) (x.slotsUsed.length + 1) 0 with
  | some k => if k < x.slots then some k else none
  | none => none

/-- The LPNs of the pages a stored form of `len` units takes in slot `k`. -/
def slotLpns (k len : Nat) : List Nat := (List.range (ceilDiv len 256)).map (fun i => 5 * k + i)

/-- LPNs `l`, `n` from there on, unmapped. -/
def unmapRange (m : NMap Nat) (r : Nat × Nat) : NMap Nat := (List.range r.2).foldl (fun m i => delN m (r.1 + i)) m

/-- Slot `k` of fold `f` returned: every page unmapped, which a TRIM page records (12 R312, R317, log entry 132). -/
def returnSlot (f k : Nat) (x : Namespace) : Namespace :=
  { x with map := unmapRange x.map (5 * k, 5), slotsUsed := x.slotsUsed.filter (· != k), wseq := x.wseq + 1
           nandPages := x.nandPages + 1, log := x.log ++ [⟨codewordInfo f (5 * k) x.wseq 0 true false false, lpnUnmapped, [(5 * k, 5)]⟩] }

/-- The map a rebuild finds: the checkpoint, then the later pages and TRIM pages in ascending WSEQ (12 R317). -/
def rebuiltMap (x : Namespace) : NMap Nat :=
  (sortBy (fun a b => infoWseq a.info ≤ infoWseq b.info) x.log).foldl
    (fun m e => if infoTrim e.info then e.trims.foldl unmapRange m else setN m (infoLpn e.info) e.ppn)
    (match x.checkpoint with
      | some c => c.map
      | none => [])

/-- Whether any page of slot `k` is poisoned (12 R314); an access to a namespace that rebuilds has waited for the map it finds (12 R317). -/
def Namespace.slotPoisoned (x : Namespace) (k : Nat) : Bool :=
  let m := if x.state = nsRebuilding then rebuiltMap x else x.map
  (List.range 5).any (fun i => getN m (5 * k + i) == some lpnPoisoned)

/-- A stored form of `len` units written to a new slot: the slot and the write, which becomes durable later. -/
def storeForm (s : State) (f len : Nat) (index : Option Nat) : Option (State × Nat) :=
  let x := (s.fold f).ns
  match x.freeSlot with
  | none => none
  | some k =>
    match programList s f (slotLpns k len) { x with slotsUsed := insertBy (fun a b => a < b) k x.slotsUsed } with
    | none => none
    | some (x, ps, direct) =>
      let x := checkpointDue s f { x with writes := x.writes ++ [⟨index, ps⟩], lastWrite := s.now }
      some ((s.modNs f (fun _ => x)).count (rNfcDirectWrites f) direct, k)

/-! ### Health (12 R327, R328) -/

def Namespace.sparePct (x : Namespace) : Nat := if x.spareInitial = 0 then 0 else x.spareLeft * 100 / x.spareInitial
def Namespace.eraseMean (x : Namespace) (fw : Firmware) : Nat := if fw.nsb = 0 then 0 else sumOn (fun p => p.2.erases) x.blocks / fw.nsb
def Namespace.eraseMax (x : Namespace) : Nat := (x.blocks.map (fun p => p.2.erases)).foldl max 0
def Namespace.wearPct (x : Namespace) (fw : Firmware) : Nat :=
  if fw.endurance = 0 then 0 else min 255 (x.eraseMean fw * 100 / fw.endurance)

/-- FLASH_HEALTH with the causes given (12 R328). -/
def postHealth (f causes : Nat) (s : State) : State :=
  let x := (s.fold f).ns
  postFold evFlashHealth f stOk 0
    (leBytes 1 causes ++ leBytes 1 x.state ++ leBytes 1 x.sparePct ++ leBytes 1 (x.wearPct s.boot.firmware) ++
      leBytes 1 x.lastTemp ++ leBytes 4 x.cwBad.toNat ++ [0, 0]) s

/-- The spare and wear conditions judged after a change: written once per crossing, armed again past the threshold. -/
def judgeHealth (f : Nat) (s : State) : State :=
  let x := (s.fold f).ns
  let w := s.act (rNfcHealthWarn f)
  let spare := decide (x.sparePct ≤ bitsOf w 7 0)
  let wear := decide (bitsOf w 15 8 ≤ x.wearPct s.boot.firmware)
  let causes := b2n (spare && bitOf x.armed 0) + 2 * b2n (wear && bitOf x.armed 1)
  let s := s.modNs f (fun x => { x with armed := x.armed / 4 * 4 + b2n (!spare) + 2 * b2n (!wear) })
  if causes = 0 then s else postHealth f causes s

/-! ### Retirement and read-only (12 R324, R325) -/

/-- The namespace enters READ_ONLY at once: writes not durable end, migrations into T3 are abandoned, collection stops. -/
def enterReadOnly (f : Nat) (s : State) : State :=
  let gone := (s.fold f).migs.filter (fun p => p.2.target == 3 && p.2.phase < 7)
  let s := s.modFold f (fun x =>
    { x with
      migs := x.migs.filter (fun p => !(p.2.target == 3 && decide (p.2.phase < 7)))
      moveFail := gone.foldl (fun m p => setN m p.1 stFlashReadOnly) x.moveFail
      sheets := gone.foldl (fun m p => modN m p.1 (fun e => { e with migrating := false })) x.sheets
      ns := { x.ns with state := nsReadOnly, gc := none, gcRunning := false,
                        blocks := x.ns.blocks.map (fun p => (p.1, if p.2.mode = 5 then { p.2 with mode := 3 } else p.2)),
                        slotsUsed := x.ns.slotsUsed.filter (fun k => !(gone.any (fun p => p.2.phase == 5 && p.2.newLoc == k * 1280))),
                        writes := [] } })
  postHealth f 16 (s.count rTierMigAbandoned gone.length)

/-- Block of unit `u` of superblock `b` retired for `cause` (12 R324): 1 program, 2 erase, 3 worn, 4 chip enable fenced. -/
def retireBlock (f b u cause : Nat) (s : State) : State :=
  let x := (s.fold f).ns
  if (x.sb b).badUnits.contains u then s
  else if x.state = nsForming then
    s.modNs f (fun x => { x.modSb b (fun y => { y with badUnits := y.badUnits ++ [u] }) with factoryBad := x.factoryBad + 1 })
  else
    let none_left := decide (x.spareLeft = 0)
    let s := s.modNs f (fun x =>
      { x.modSb b (fun y => { y with badUnits := y.badUnits ++ [u], refresh := true }) with
        grownBad := x.grownBad + 1, spareLeft := x.spareLeft - 1
        badLog := BitVec.ofNat 64 (x.places.getD u 0 + b % 2 ^ 16 * 2 ^ 11 + cause * 2 ^ 27 + x.wseq % 2 ^ 32 * 2 ^ 32) :: x.badLog.take 4087
        sealedState := if none_left && x.state = nsRebuilding then nsReadOnly else x.sealedState })
    let s := if none_left && x.state = nsNormal then enterReadOnly f s else s
    judgeHealth f s

/-! ### Rows: formation, release, rebuild (12 R311, R313, R317) -/

/-- The sealing key of a namespace (15 Table 15-1); none without a seed. -/
def State.sealKey (s : State) (mask : Nat) : Option (List Byte) :=
  s.sec.seed.map (fun d => Config.hkdf d (zerosB 48) (ascii "SK9-SEAL" ++ leBytes 2 mask) 32)

/-- The sealed key record of fold `f`'s namespace, as its key state stands (15 R404): kept as the sealing key, the current and the old key. -/
def sealRecord (f : Nat) (s : State) : State :=
  let k := (s.fold f).key
  match s.sealKey (s.fold f).ns.mask with
  | some w =>
    if (s.fold f).ns.state = nsAbsent || k.state = 0 then s
    else s.modNs f (fun x => { x with sealedG := k.g.toNat, sealedKeys := [w, k.current] ++ (if k.old.isEmpty then [] else [k.old]) })
  | none => s

/-- The fold's key state as the sealed record gives it; one that fails to unseal leaves NONE. -/
def unsealRecord (f : Nat) (s : State) : State :=
  let x := (s.fold f).ns
  let k := { FoldKey.reset with imageKeys := (s.fold f).key.imageKeys, ownerKeys := (s.fold f).key.ownerKeys, ephemeral := (s.fold f).key.ephemeral }
  match x.sealedKeys with
  | w :: c :: t =>
    s.modKey f (fun _ =>
      if s.sealKey x.mask = some w then { k with state := if t.isEmpty then 1 else 2, g := BitVec.ofNat 32 x.sealedG, current := c, old := t.headD [] }
      else k)
  | _ => s.modKey f (fun _ => k)

/-- FORMING (12 Table 12-2): the mask's channels bound, every block erased. -/
def formNamespace (f mask : Nat) (s : State) : State :=
  s.modNs f (fun _ => { Namespace.reset with state := nsForming, mask := mask, units := (unitPlaces s mask).length, places := unitPlaces s mask, lastWrite := s.now })

/-- The namespace of fold `f` formed (12 R311). -/
def formedNamespace (f : Nat) (s : State) : State :=
  let fw := s.boot.firmware
  let x := (s.fold f).ns
  let r := s.act (rNfcNsReserve f)
  let g := x.units * fw.nsb - x.factoryBad
  let spare := ceilDiv (g * bitsOf r 11 8) 100
  let used := spare + x.units * ceilDiv (fw.nsb * 4) 100 + x.units * bitsOf (s.act (rNfcGcThresh f)) 23 16 + ceilDiv (g * bitsOf r 5 0) 100
  let bad := decide (g < used + x.units) || decide (0xFFFFFFFE ≤ fw.nsb * fw.ppb * x.units)
  s.modNs f (fun x =>
    { x with
      state := if bad then nsReadOnly else nsNormal
      good := g, spareInitial := spare, spareLeft := spare
      slots := if bad then 0 else (g - used) * fw.ppb / 5
      checkpoint := some ⟨[], if bad then nsReadOnly else nsNormal, 0⟩ })

/-- NAMESPACE_FORMATION_DONE (12 R311, R313). -/
def execNamespaceFormationDone (f : Nat) (s : State) : Host.Outcome State Fault Refusal :=
  .next (serve s fun s => onlyIf ((s.fold f).ns.state == nsForming) s (sealRecord f (formedNamespace f s)))

/-- NAMESPACE_RELEASE_DONE (12 R313): the channels become free; step 3 of a fold's release (15 R408). -/
def execNamespaceReleaseDone (f : Nat) (s : State) : Host.Outcome State Fault Refusal :=
  .next (serve s fun s => onlyIf ((s.fold f).ns.state == nsReleasing) s
    (s.modFold f (fun x => { x with ns := Namespace.reset, releaseStep := if x.status = 3 then 3 else x.releaseStep })))

/-- A rebuild has ended (12 R313, R317). -/
def rebuildDone (f : Nat) (s : State) : State :=
  onlyIf ((s.fold f).ns.state == nsRebuilding) s
    (let x := (s.fold f).ns
     let st := if x.sealedState = nsReadOnly then nsReadOnly else match x.checkpoint with
       | some c => c.state
       | none => nsNormal
     let s := s.modNs f (fun x => { x with state := st, sealedState := 0, map := rebuiltMap x
                                           slotsUsed := ((rebuiltMap x).map (fun p => p.1 / 5)).eraseDups })
     let s := unsealRecord f s
     if x.sealedState = nsReadOnly then postHealth f 16 s else s)

/-! ### Rows: programs and erases -/

/-- Whether the pages of a write are durable when their program has succeeded: a native page needs its word line's other pages
too (12 R317). -/
def durableOp (fw : Firmware) (x : Namespace) (o : FlashOp) : Bool :=
  o.pages.all (fun p =>
    let b := ppnBlock x fw p.2
    let y := x.sb b
    let g := (x.goodUnits b).length
    y.mode == 1 || y.mode == 3 || y.mode == 4 ||
      decide ((ppnPage x fw p.2 / max 1 fw.bits + 1) * max 1 fw.bits * g ≤ y.written))

/-- A program has succeeded (12 R317): the oldest write of the namespace that can be durable is reported so, and a discard whose
TRIM page it follows completes. -/
def programComplete (f : Nat) (s : State) : State :=
    let x := (s.fold f).ns
    let s := match x.writes.find? (durableOp s.boot.firmware x) with
      | some o => s.modNs f (fun x => { x with writes := dropFirst o x.writes })
      | none => s
    match x.discards with
    | [] => s
    | d :: t =>
      complete opFlashDiscard { d with body := d.body.take 48 } stOk 0 (d.body.drop 48) (s.modNs f (fun x => { x with discards := t }))

/-- The copy `g` given up for a failure of its target (12 R323): the target closed and marked for refresh, the victim as it was. -/
def restartCopy (g : GcCopy) (x : Namespace) : Namespace :=
  let x := closeSb g.target x
  let x := x.modSb g.target (fun y => { y with refresh := true })
  { x.modSb g.victim (fun y => { y with mode := if g.fold then 4 else 3 }) with gc := none, gcRestarts := x.gcRestarts + 1 }

/-- A program has failed (12 R323) in unit `u` of the collection target, or of the superblock the last write is going to. -/
def programFail (f u : Nat) (s : State) : State :=
    let x := (s.fold f).ns
    match x.gc with
    | some g => retireBlock f g.target u 1 (s.modNs f (fun x => restartCopy g { x with programFails := x.programFails + 1 }))
    | none =>
      match x.writes.getLast? with
      | none => s
      | some o =>
        match o.pages with
        | [] => s
        | p :: _ =>
          let b := ppnBlock x s.boot.firmware p.2
          let s := s.modNs f (fun x =>
            { (closeSb b x).modSb b (fun y => { y with refresh := true }) with
              programFails := x.programFails + 1, writes := x.writes.dropLast })
          let s := retireBlock f b u 1 s
          let x := (s.fold f).ns
          if x.state = nsReadOnly then s else
          match programList s f (o.pages.map (·.1)) x with
          | none => s
          | some (x, ps, n) =>
            (s.modNs f (fun _ => { x with writes := x.writes ++ [⟨o.index, ps⟩] })).count (rNfcDirectWrites f) n

/-- An erase has failed (12 R313, R323, R324), of the collection target among others. -/
def eraseFail (f b u : Nat) (s : State) : State :=
  onlyIf ((s.fold f).ns.state != nsAbsent && decide (u < (s.fold f).ns.units)) s
    (retireBlock f b u 2 (s.modNs f (fun x =>
      let y := { x with eraseFails := x.eraseFails + 1 }
      match x.gc with
      | some g => if g.target = b then restartCopy g y else y
      | none => y)))

/-- An erase has succeeded (12 R322): a victim erased returns to the free pool, its count one higher; a superblock at the rated
endurance is worn and its blocks are retired (R324). -/
def eraseComplete (f b : Nat) (s : State) : State :=
  onlyIf (((s.fold f).ns.sb b).mode == 5 && (s.fold f).ns.gc.isNone) s
    (let s := s.modNs f (fun x =>
       let x := x.modSb b (fun y => { y with mode := 0, erases := y.erases + 1, refresh := false, written := 0 })
       { x with gcRunning := x.gcRunning && decide (x.freeSb s.boot.firmware < bitsOf (s.act (rNfcGcThresh f)) 15 8) })
     let s := if ((s.fold f).ns.sb b).erases = s.boot.firmware.endurance then
         ((s.fold f).ns.goodUnits b).foldl (fun s u => retireBlock f b u 3 s) s else s
     judgeHealth f s)

/-! ### Rows: reads (12 R316) -/

/-- One codeword's outcome in the counters; the flag says that it marks its superblock for refresh. -/
def codeword (fw : Firmware) (refreshAt : Nat) (o : CwOutcome) (x : Namespace) : Namespace × Bool :=
  match o with
  | .clean => (x, false)
  | .hard => ({ x with cwHard := x.cwHard + 1 }, false)
  | .retry i => ({ x with cwSoft := x.cwSoft + 1, readRetries := x.readRetries + BitVec.ofNat 64 i }, decide (refreshAt ≤ i))
  | .soft => ({ x with cwSoft := x.cwSoft + 1, readRetries := x.readRetries + BitVec.ofNat 64 fw.retry }, true)
  | .uncorrectable => ({ x with cwBad := x.cwBad + 1, readRetries := x.readRetries + BitVec.ofNat 64 fw.retry }, false)

/-- FLASH_READ (12 R316): the four codewords of a page decoded in turn, each corrected or uncorrectable one an error of the page's channel and chip
enable (18 R451, R455); an unmapped or poisoned page touches no NAND (R314). A page that cannot be
corrected is poisoned from then on (log entry 172). -/
def execFlashRead (f lpn : Nat) (cws : List CwOutcome) (s : State) : Host.Outcome State Fault Refusal :=
  .next (serve s fun s =>
    match getN (s.fold f).ns.map lpn with
    | none => s
    | some ppn =>
      if ppn = lpnPoisoned then s else
      let fw := s.boot.firmware
      let b := ppnBlock (s.fold f).ns fw ppn
      let r := cws.foldl (fun (a : Namespace × Bool) o => let c := codeword fw (s.act (rNfcReadPolicy f)) o a.1; (c.1, a.2 || c.2))
        ((s.fold f).ns, false)
      let bad := cws.any (fun o => o == .uncorrectable)
      let x := if r.2 then r.1.modSb b (fun y => { y with refresh := true }) else r.1
      let x := if bad then { x with map := setN x.map lpn lpnPoisoned } else x
      let s := s.modNs f (fun _ => x)
      let ch := ppnChannel x ppn
      let ce := ppnChipEnable x ppn
      let fixed := (cws.filter (fun o => o != .uncorrectable && o != .clean)).length
      let lost := (cws.filter (fun o => o == .uncorrectable)).length
      let s := errorCorrected (some f) 3 ch ce fixed s
      if bad then
        let idx := ((s.fold f).sheets.find? (fun p => p.2.tier == 3 && p.2.loc / 1280 == lpn / 5)).map (·.1)
        let sheet := match idx with
          | some i => s.sheetNo f i
          | none => 0xFFFFFFFF
        postHealth f 4 ((List.range lost).foldl (fun s _ => errorUncorrected (some f) 3 ch ce sheet 0 s) s)
      else s)

/-! ### Rows: garbage collection and folding (12 R319 to R322) -/

/-- The pages of superblock `b` that the map still names, in PPN order: (LPN, PPN). -/
def Namespace.validPages (x : Namespace) (fw : Firmware) (b : Nat) : List (Nat × Nat) :=
  sortBy (fun a c => a.2 ≤ c.2) (x.map.filter (fun p => p.2 != lpnPoisoned && ppnBlock x fw p.2 == b))

/-- The score of a closed native superblock (12 R321). -/
def gcScore (s : State) (f b : Nat) : Int :=
  let fw := s.boot.firmware
  let x := (s.fold f).ns
  let y := x.sb b
  let wt := s.act (rNfcGcWeights f)
  let v := (x.validPages fw b).length * 1024 / max 1 (x.pagesOf fw b)
  let a := min 1024 ((x.wseq - y.closedAt) * 1024 / max 1 (s.act (rNfcGcAgeScale f)))
  let w := min 1024 (y.erases * 1024 / max 1 fw.endurance)
  (bitsOf wt 7 0 * v : Nat) - (bitsOf wt 15 8 * a : Nat) + (bitsOf wt 23 16 * w : Nat)

/-- The least of `l` under an integer measure, the first of equals. -/
def minInt (g : Nat → Int) : List Nat → Option Nat
  | [] => none
  | a :: t => match minInt g t with
    | none => some a
    | some b => if g a ≤ g b then some a else some b

/-- The victim: a superblock marked for refresh first, as one is that holds pages in a retired block, else the lowest score (12 R321, log entry
173). -/
def gcVictim (s : State) (f : Nat) : Option Nat :=
  let cands := (s.fold f).ns.blocks.filter (fun p => p.2.mode == 3)
  match cands.find? (fun p => p.2.refresh) with
  | some p => some p.1
  | none => minInt (gcScore s f) (cands.map (·.1))

/-- The namespace with a native target open that has room: the open one, else a fresh one (12 R322 step 1). -/
def openTarget (fw : Firmware) (x : Namespace) : Option (Namespace × Nat) :=
  let x := closeFull fw x.openGc x
  match x.openGc with
  | some b => some (x, b)
  | none => (openSb fw 0 2 true x).map (fun r => ({ r.1 with openGc := some r.2 }, r.2))

/-- One page (LPN, PPN) of a victim programmed into the target (12 R322 step 2), noted with its new PPN. -/
def copyPage (f : Nat) (fw : Firmware) (a : Namespace × List (Nat × Nat × Nat)) (p : Nat × Nat) : Option (Namespace × List (Nat × Nat × Nat)) :=
  (openTarget fw a.1).map (fun r =>
    let q := programPage f fw r.2 p.1 r.1
    (q.1, a.2 ++ [(p.1, p.2, q.2)]))

/-- The pages of `victim` programmed into native superblocks (12 R322 steps 1 and 2). -/
def copyVictim (s : State) (f victim : Nat) (fold : Bool) : State :=
  let fw := s.boot.firmware
  let x := (s.fold f).ns
  match (openTarget fw x).bind (fun t => (x.validPages fw victim).foldlM (copyPage f fw) (t.1, [])) with
  | none => s
  | some r => s.modNs f (fun _ => { r.1.modSb victim (fun y => { y with mode := 5 }) with gc := some ⟨victim, r.1.openGc.getD victim, r.2, fold⟩ })

/-- Whether collection runs: started below START, stopped at STOP (12 R320); refresh goes ahead of it. -/
def gcWanted (s : State) (f : Nat) : Bool :=
  let x := (s.fold f).ns
  let th := s.act (rNfcGcThresh f)
  let free := x.freeSb s.boot.firmware
  decide (free < bitsOf th 7 0) || (x.gcRunning && decide (free < bitsOf th 15 8)) ||
    x.blocks.any (fun p => p.2.mode == 3 && p.2.refresh)

/-- GC_VICTIM_COPY (12 R320 to R322). -/
def execGcVictimCopy (f : Nat) (s : State) : Host.Outcome State Fault Refusal :=
  .next (serve s fun s => onlyIf ((s.fold f).ns.state == nsNormal && (s.fold f).ns.gc.isNone && gcWanted s f) s
    (match gcVictim s f with
      | some v => copyVictim (s.modNs f (fun x => { x with gcRunning := true })) f v false
      | none => s))

/-- GC_COMMIT (12 R322 step 3): each copied LPN moves only if the map still names the victim page. -/
def execGcCommit (f : Nat) (s : State) : Host.Outcome State Fault Refusal :=
  .next (serve s fun s =>
    match (s.fold f).ns.gc with
    | none => s
    | some g => s.modNs f (fun x =>
        let moved := g.copied.filter (fun c => getN x.map c.1 == some c.2.1)
        { x with
          map := moved.foldl (fun m c => setN m c.1 c.2.2) x.map
          gc := none }))

/-- The oldest buffer superblock (12 R319): the one that closed first, else the open one if it holds data. -/
def oldestBuffer (x : Namespace) : Option Nat :=
  match minOn (fun p : Nat × SuperBlock => p.2.closedAt) (x.blocks.filter (fun p => p.2.mode == 4)) with
  | some p => some p.1
  | none => match x.openBuffer with
    | some b => if 0 < (x.sb b).written then some b else none
    | none => none

/-- Folding of the oldest buffer superblock, under condition `c`. -/
def foldBuffer (f : Nat) (c : Bool) (s : State) : State :=
  onlyIf (c && (s.fold f).ns.state == nsNormal && (s.fold f).ns.gc.isNone) s
    (match oldestBuffer (s.fold f).ns with
      | some b => copyVictim (s.modNs f (fun x => if x.openBuffer = some b then closeSb b x else x)) f b true
      | none => s)

/-- SLC_FOLD (12 R319): the buffer is three-quarters full. -/
def execSlcFold (f : Nat) (s : State) : Host.Outcome State Fault Refusal :=
  .next (serve s fun s => foldBuffer f (decide (3 * s.bufferTarget f ≤ 4 * (s.fold f).ns.bufferSb)) s)

/-- FOLD_IDLE_TIMER (12 R319): no write for 1,000 µs. -/
def execFoldIdleTimer (f : Nat) (s : State) : Host.Outcome State Fault Refusal :=
  .next (serve s fun s => foldBuffer f (decide ((s.fold f).ns.lastWrite + 1000 ≤ s.now)) s)

/-! ### Row: temperature (12 R327, R328) -/

/-- NAND_TEMP_SAMPLE: histogram, last 64 samples, maximum, and the TEMP threshold. -/
def execNandTempSample (f : Nat) (c : Int) (s : State) : Host.Outcome State Fault Refusal :=
  .next (serve s fun s => onlyIf ((s.fold f).ns.state != nsAbsent) s
    (let x := (s.fold f).ns
     let bin := if c < 0 then 0 else if 112 ≤ c then 15 else (c / 8).toNat + 1
     let hot := decide ((bitsOf (s.act (rNfcHealthWarn f)) 23 16 : Int) ≤ c)
     let s := s.modNs f (fun x =>
       { x with
         tempHist := setN x.tempHist bin (getND x.tempHist bin 0 + 1)
         tempLast := (x.tempLast ++ [c]).drop (x.tempLast.length - 63)
         tempMax := some (match x.tempMax with | some m => max m c | none => c)
         lastTemp := ofSigned 8 c
         armed := x.armed % 8 + 8 * b2n (!hot) })
     if hot && bitOf x.armed 3 then postHealth f 8 s else s))

end Sys2Proof.Machine
end

