-- ==== Sys2Proof/Machine/Cipher.lean ====
section
/-! DEFINITION. The published algorithms the stored forms name (02 R48, R53): the XXH64 checksum, the AES-256 block cipher and its XTS mode of
IEEE 1619. What they compute is presumed to be their published definition (log entry 145). -/
namespace Sys2Proof.Machine

/-! ### XXH64 with seed 0 (02 Table 2-6) -/

/-- The five primes. -/
def xxP1 : W64 := 0x9E3779B185EBCA87
def xxP2 : W64 := 0xC2B2AE3D27D4EB4F
def xxP3 : W64 := 0x165667B19E3779F9
def xxP4 : W64 := 0x85EBCA77C2B2AE63
def xxP5 : W64 := 0x27D4EB2F165667C5

/-- One round of an accumulator. -/
def xxRound (acc lane : W64) : W64 := (acc + lane * xxP2).rotateLeft 31 * xxP1

/-- The number in the first `n` bytes. -/
def xxLane (n : Nat) (l : List Byte) : W64 := BitVec.ofNat 64 (ofLe (l.take n))

/-- The accumulators after `n` stripes of 32 bytes. -/
def xxStripes : Nat → W64 × W64 × W64 × W64 → List Byte → W64 × W64 × W64 × W64
  | 0, v, _ => v
  | n + 1, (a, b, c, d), l =>
    xxStripes n (xxRound a (xxLane 8 l), xxRound b (xxLane 8 (l.drop 8)), xxRound c (xxLane 8 (l.drop 16)), xxRound d (xxLane 8 (l.drop 24)))
      (l.drop 32)

/-- One accumulator merged into the sum of the four. -/
def xxMerge (h v : W64) : W64 := (h ^^^ xxRound 0 v) * xxP1 + xxP4

/-- The bytes past the last stripe: lanes of eight, then of four, then single bytes. -/
def xxTail : Nat → W64 → List Byte → W64
  | 0, h, _ => h
  | n + 1, h, l =>
    if l.isEmpty then h
    else if 8 ≤ l.length then xxTail n ((h ^^^ xxRound 0 (xxLane 8 l)).rotateLeft 27 * xxP1 + xxP4) (l.drop 8)
    else if 4 ≤ l.length then xxTail n ((h ^^^ (xxLane 4 l * xxP1)).rotateLeft 23 * xxP2 + xxP3) (l.drop 4)
    else xxTail n ((h ^^^ (xxLane 1 l * xxP5)).rotateLeft 11 * xxP1) (l.drop 1)

/-- XXH64 of a byte string. -/
def xxh64 (l : List Byte) : W64 :=
  let (a, b, c, d) := xxStripes (l.length / 32) (xxP1 + xxP2, xxP2, 0, 0 - xxP1) l
  let h := if l.length < 32 then xxP5 else
    xxMerge (xxMerge (xxMerge (xxMerge (a.rotateLeft 1 + b.rotateLeft 7 + c.rotateLeft 12 + d.rotateLeft 18) a) b) c) d
  let h := xxTail 10 (h + BitVec.ofNat 64 l.length) (l.drop (l.length / 32 * 32))
  let h := (h ^^^ (h >>> 33)) * xxP2
  let h := (h ^^^ (h >>> 29)) * xxP3
  h ^^^ (h >>> 32)

/-! ### AES-256 -/

/-- Doubling in the field of AES. -/
def gfDouble (a : Byte) : Byte := (a <<< 1) ^^^ (if a.msb then 0x1B else 0)

/-- The product in the field of AES. -/
def gfMul (a b : Byte) : Byte :=
  ((List.range 8).foldl (fun p i => (gfDouble p.1, if b.getLsbD i then p.2 ^^^ p.1 else p.2)) (a, 0)).2

/-- The inverse in the field of AES, 0 for 0: the 254th power. -/
def gfInv (a : Byte) : Byte := ((List.range 6).foldl (fun p _ => gfMul (gfMul p p) a) a) |> fun p => gfMul p p

/-- The substitution and its inverse. -/
def aesSub (a : Byte) : Byte :=
  let b := gfInv a
  b ^^^ b.rotateLeft 1 ^^^ b.rotateLeft 2 ^^^ b.rotateLeft 3 ^^^ b.rotateLeft 4 ^^^ 0x63
def aesUnsub (a : Byte) : Byte := gfInv (a.rotateLeft 1 ^^^ a.rotateLeft 3 ^^^ a.rotateLeft 6 ^^^ 0x05)

/-- The exclusive-or of two byte strings. -/
def xorBytes (a b : List Byte) : List Byte := List.zipWith (· ^^^ ·) a b

/-- The columns of a block times the circulant matrix of first row `m`. -/
def aesMix (m b : List Byte) : List Byte :=
  (List.range 16).map (fun i =>
    (List.range 4).foldl (fun x j => x ^^^ gfMul (m.getD ((j + 4 - i % 4) % 4) 0) (b.getD (i / 4 * 4 + j) 0)) 0)

/-- The rows of a block rotated: row r by r columns, left or (with `back`) right. -/
def aesShift (back : Bool) (b : List Byte) : List Byte :=
  (List.range 16).map (fun i => b.getD ((i + (if back then 12 else 4) * (i % 4)) % 16) 0)

/-- The round keys of a 32-byte key: 60 words of four bytes. -/
def aesWords : Nat → List (List Byte) → Byte → List (List Byte)
  | 0, ws, _ => ws
  | n + 1, ws, rcon =>
    let i := ws.length
    let t := ws.getD (i - 1) []
    let t :=
      if i % 8 = 0 then
        match (t.drop 1 ++ t.take 1).map aesSub with
        | a :: u => (a ^^^ rcon) :: u
        | [] => []
      else if i % 8 = 4 then t.map aesSub else t
    aesWords n (ws ++ [xorBytes (ws.getD (i - 8) []) t]) (if i % 8 = 0 then gfDouble rcon else rcon)
def aesRoundKeys (key : List Byte) : List (List Byte) :=
  let ws := aesWords 52 ((List.range 8).map (fun i => (key.drop (4 * i)).take 4)) 1
  (List.range 15).map (fun r => ((ws.drop (4 * r)).take 4).flatten)

/-- AES-256 of one block under its round keys, and its inverse. -/
def aesBlock (rk : List (List Byte)) (b : List Byte) : List Byte :=
  let b := (List.range 13).foldl (fun b r => xorBytes (aesMix [2, 3, 1, 1] (aesShift false (b.map aesSub))) (rk.getD (r + 1) [])) (xorBytes b (rk.getD 0 []))
  xorBytes (aesShift false (b.map aesSub)) (rk.getD 14 [])
def aesUnblock (rk : List (List Byte)) (b : List Byte) : List Byte :=
  let unsub (b : List Byte) := (aesShift true b).map aesUnsub
  let b := (List.range 13).foldl (fun b r => aesMix [14, 11, 13, 9] (xorBytes (unsub b) (rk.getD (13 - r) []))) (xorBytes b (rk.getD 14 []))
  xorBytes (unsub b) (rk.getD 0 [])

/-! ### XTS (02 R53): data units of 4,096 bytes, tweak D × 2^64 + s × 2^8 + u -/

/-- The next tweak of a data unit: times x in GF(2^128), least significant byte first. -/
def xtsDouble (t : List Byte) : List Byte :=
  let v := BitVec.ofNat 128 (ofLe t)
  leBytes 16 ((v <<< 1) ^^^ (if v.msb then 0x87#128 else 0)).toNat

/-- One data unit of whole 16-byte blocks, `n` of them, through the block function `f`, from the encrypted tweak `t` on. -/
def xtsUnit (f : List Byte → List Byte) : Nat → List Byte → List Byte → List Byte
  | 0, _, _ => []
  | n + 1, t, l => xorBytes (f (xorBytes (l.take 16) t)) t ++ xtsUnit f n (xtsDouble t) (l.drop 16)

/-- A stored form through XTS: `d` 0 for a sheet and 1 for a system slot, `s` the sheet or slot number; a 64-byte key is the data key and
the tweak key. -/
def xts (encrypt : Bool) (key : List Byte) (d s : Nat) (l : List Byte) : List Byte :=
  let rk := aesRoundKeys (key.take 32)
  let tk := aesRoundKeys (key.drop 32)
  let f := if encrypt then aesBlock rk else aesUnblock rk
  (List.range (ceilDiv l.length 4096)).flatMap (fun u =>
    let unit := (l.drop (u * 4096)).take 4096
    xtsUnit f (unit.length / 16) (aesBlock tk (leBytes 16 (d * 2 ^ 64 + s * 2 ^ 8 + u))) unit)

end Sys2Proof.Machine
end

