-- ==== Sys2Proof/Machine/Fp.lean ====
section
/-! DEFINITION. Number formats and their rounding (06 R154 to R159), exact arithmetic on dyadic numbers, FP32 operations with
round-to-nearest-even, and row reductions in the fixed order of 06 R171. -/
namespace Sys2Proof.Machine

/-- An exact value: NaN, ±∞, or (−1)^neg × m × 2^e. -/
inductive Num where
  | nan
  | inf (neg : Bool)
  | fin (neg : Bool) (m : Nat) (e : Int)
  deriving DecidableEq, Repr

/-- A binary floating format: precision with the hidden bit, exponent of the least subnormal, bits of the largest finite
magnitude, bits of infinity and of NaN where it has them. -/
structure FpFormat where
  width : Nat
  prec : Nat
  qexp : Int
  maxBits : Nat
  infBits : Option Nat
  nanBits : Option Nat
  deriving DecidableEq, Repr

def fp32 : FpFormat := ⟨32, 24, -149, 0x7F7FFFFF, some 0x7F800000, some 0x7FC00000⟩
def bf16 : FpFormat := ⟨16, 8, -133, 0x7F7F, some 0x7F80, some 0x7FC0⟩
def e4m3 : FpFormat := ⟨8, 4, -9, 0x7E, none, some 0x7F⟩
/-- Its canonical NaN is the model's choice (06 R157, log entry 167). -/
def e5m2 : FpFormat := ⟨8, 3, -16, 0x7B, some 0x7C, some 0x7E⟩
def e3m2 : FpFormat := ⟨6, 3, -4, 0x1F, none, none⟩
def e2m3 : FpFormat := ⟨6, 4, -3, 0x1F, none, none⟩
def e2m1 : FpFormat := ⟨4, 2, -1, 0x07, none, none⟩

/-- The value a format's bits hold. -/
def FpFormat.decode (f : FpFormat) (bits : Nat) : Num :=
  let neg := bits.testBit (f.width - 1)
  let mag := bits % 2 ^ (f.width - 1)
  if mag ≤ f.maxBits then
    let e := mag / 2 ^ (f.prec - 1)
    let m := mag % 2 ^ (f.prec - 1)
    if e = 0 then .fin neg m f.qexp else .fin neg (2 ^ (f.prec - 1) + m) (f.qexp + (e : Int) - 1)
  else if f.infBits = some mag then .inf neg else .nan

/-- n ÷ 2^s rounded to nearest, ties to even. -/
def rneShift (n s : Nat) : Nat :=
  let q := n / 2 ^ s
  let r := n % 2 ^ s
  if s = 0 then n else if r > 2 ^ (s - 1) || (r == 2 ^ (s - 1) && q % 2 == 1) then q + 1 else q

/-- Magnitude bits of m × 2^e in format `f`, rounded to nearest-even, before overflow is judged. -/
def FpFormat.roundMag (f : FpFormat) (m : Nat) (e : Int) : Nat :=
  if m = 0 then 0 else
  let lsb := max f.qexp (e + (Nat.log2 m : Int) + 1 - (f.prec : Int))
  let m' := if lsb ≤ e then m * 2 ^ (e - lsb).toNat else rneShift m (lsb - e).toNat
  (lsb - f.qexp).toNat * 2 ^ (f.prec - 1) + m'

/-- The bits of a value in format `f` (06 R158): on overflow ±∞, or NaN where the format has none; with `sat`, or in a format
with neither, the largest finite magnitude. -/
def FpFormat.encode (f : FpFormat) (sat : Bool) (v : Num) : Nat :=
  let sign (neg : Bool) := b2n neg * 2 ^ (f.width - 1)
  let outside (neg : Bool) := match f.infBits, f.nanBits with
    | some i, _ => if sat then sign neg + f.maxBits else sign neg + i
    | none, some n => if sat then sign neg + f.maxBits else n
    | none, none => sign neg + f.maxBits
  match v with
  | .nan => f.nanBits.getD (f.maxBits)
  | .inf neg => outside neg
  | .fin neg m e =>
    let b := f.roundMag m e
    if f.maxBits < b then outside neg else sign neg + b

/-! ### Exact operations -/

/-- The negation. -/
def Num.neg : Num → Num
  | .nan => .nan
  | .inf n => .inf (!n)
  | .fin n m e => .fin (!n) m e

/-- The exact product; ∞ × 0 is NaN (06 R157). -/
def Num.mul : Num → Num → Num
  | .nan, _ => .nan
  | _, .nan => .nan
  | .inf a, .inf b => .inf (a != b)
  | .inf a, .fin b m _ => if m = 0 then .nan else .inf (a != b)
  | .fin a m _, .inf b => if m = 0 then .nan else .inf (a != b)
  | .fin a m e, .fin b n k => .fin (a != b) (m * n) (e + k)

/-- The exact sum; an exact zero of unlike signs is +0. -/
def Num.add : Num → Num → Num
  | .nan, _ => .nan
  | _, .nan => .nan
  | .inf a, .inf b => if a = b then .inf a else .nan
  | .inf a, .fin _ _ _ => .inf a
  | .fin _ _ _, .inf b => .inf b
  | .fin a m e, .fin b n k =>
    let lo := min e k
    let x : Int := (if a then -1 else 1) * (m * 2 ^ (e - lo).toNat : Nat)
    let y : Int := (if b then -1 else 1) * (n * 2 ^ (k - lo).toNat : Nat)
    if x + y = 0 then .fin (a && b) 0 lo else .fin (decide (x + y < 0)) (x + y).natAbs lo

/-- A quotient close enough to round once: 64 bits past the divisor's size, an inexact rest kept in the last bit. -/
def Num.div : Num → Num → Num
  | .nan, _ => .nan
  | _, .nan => .nan
  | .inf _, .inf _ => .nan
  | .inf a, .fin b _ _ => .inf (a != b)
  | .fin a _ _, .inf b => .fin (a != b) 0 0
  | .fin a m e, .fin b n k =>
    if n = 0 then (if m = 0 then .nan else .inf (a != b)) else
    let s := 64 + Nat.log2 n
    .fin (a != b) (2 * (m * 2 ^ s / n) + b2n (m * 2 ^ s % n != 0)) (e - k - s - 1)

/-- v × 2^k. -/
def Num.scale (k : Int) : Num → Num
  | .fin n m e => .fin n m (e + k)
  | v => v

/-- The order of two values, none when either is NaN: `some o` with o < 0, = 0, > 0. -/
def Num.cmp (x y : Num) : Option Int :=
  match x.add y.neg with
  | .fin n m _ => some (if m = 0 then 0 else if n then -1 else 1)
  | .inf n => some (if n then -1 else 1)
  | .nan => match x, y with
    | .inf a, .inf b => if a = b then some 0 else none
    | _, _ => none

/-- floor(log2 |v|) of a finite non-zero value. -/
def Num.floorLog2 : Num → Option Int
  | .fin _ m e => if m = 0 then none else some (e + (Nat.log2 m : Int))
  | _ => none

/-- Whether a value is NaN. -/
def Num.isNan : Num → Bool
  | .nan => true
  | _ => false

/-! ### FP32 -/

/-- The value of FP32 bits, and FP32 bits of a value: nearest-even, subnormals kept, NaN 0x7FC0_0000 (06 R156, R157). -/
def fpVal (a : W32) : Num := fp32.decode a.toNat
def fpOf (v : Num) : W32 := BitVec.ofNat 32 (fp32.encode false v)

def fpAdd (a b : W32) : W32 := fpOf ((fpVal a).add (fpVal b))
def fpSub (a b : W32) : W32 := fpOf ((fpVal a).add (fpVal b).neg)
def fpMul (a b : W32) : W32 := fpOf ((fpVal a).mul (fpVal b))
def fpDiv (a b : W32) : W32 := fpOf ((fpVal a).div (fpVal b))
/-- FP32 of a natural number. -/
def fpNat (n : Nat) : W32 := fpOf (.fin false n 0)
/-- The quiet NaN of 06 R157. -/
def fpNan : W32 := 0x7FC00000
def fpInf (neg : Bool) : W32 := fpOf (.inf neg)
def fpZero : W32 := 0
/-- a < b; false when either is NaN. -/
def fpLt (a b : W32) : Bool := match (fpVal a).cmp (fpVal b) with
  | some o => decide (o < 0)
  | none => false
def fpIsNan (a : W32) : Bool := (fpVal a).isNan

/-- The larger of two; NaN propagates; of two zeros of unlike sign the spec does not say which (log entry 20). -/
def fpMax (a b : W32) : W32 :=
  if fpIsNan a || fpIsNan b then fpNan else if fpLt a b then b else if fpLt b a then a
  else if a = b then a else Config.maxOfZeros a b
/-- The smaller of two. -/
def fpMin (a b : W32) : W32 :=
  if fpIsNan a || fpIsNan b then fpNan else if fpLt b a then b else if fpLt a b then a
  else if a = b then a else Config.minOfZeros a b

/-! ### Element formats by code (06 Table 6-2) -/

/-- Element width in bits of format code `c`; 0 when reserved. -/
def fmtBits : Nat → Nat
  | 0 => 32
  | 1 => 16
  | 2 | 3 | 4 | 5 | 6 | 10 => 8
  | 7 | 8 => 6
  | 9 => 4
  | _ => 0
/-- Whether a code is an MX format. -/
def fmtMx (c : Nat) : Bool := 5 ≤ c && c ≤ 10
/-- Largest exponent of an element, emax (06 Table 6-2). -/
def fmtEmax : Nat → Int
  | 2 | 5 => 8
  | 3 | 6 => 15
  | 7 => 4
  | 8 | 9 => 2
  | _ => 0

/-- The value of one element's bits in format `c`, before any block scale. -/
def decodeElem (c bits : Nat) : Num :=
  match c with
  | 0 => fp32.decode bits
  | 1 => bf16.decode bits
  | 2 | 5 => e4m3.decode bits
  | 3 | 6 => e5m2.decode bits
  | 7 => e3m2.decode bits
  | 8 => e2m3.decode bits
  | 9 => e2m1.decode bits
  | 4 => .fin (decide (toSigned 8 bits < 0)) (toSigned 8 bits).natAbs 0
  | _ => .fin (decide (toSigned 8 bits < 0)) (toSigned 8 bits).natAbs (-6)

/-- An integer format's element: round half to even, saturating at ±127 (06 R158); what a NaN becomes is not stated. -/
def encodeInt8 (unitExp : Int) (v : Num) : Nat :=
  match v with
  | .nan => Config.int8OfNan.toNat
  | .inf neg => ofSigned 8 (if neg then -127 else 127)
  | .fin neg m e =>
    let q := if unitExp ≤ e then m * 2 ^ (e - unitExp).toNat else rneShift m (unitExp - e).toNat
    let r : Int := (min 127 q : Nat)
    ofSigned 8 (if neg then -r else r)

/-- One element in format `c` (06 R158). -/
def encodeElem (c : Nat) (sat : Bool) (v : Num) : Nat :=
  match c with
  | 0 => fp32.encode false v
  | 1 => bf16.encode false v
  | 2 | 5 => e4m3.encode sat v
  | 3 | 6 => e5m2.encode sat v
  | 7 => e3m2.encode true v
  | 8 => e2m3.encode true v
  | 9 => e2m1.encode true v
  | 4 => encodeInt8 0 v
  | _ => encodeInt8 (-6) v

/-- The E8M0 scale of a byte: none for NaN (06 R154). -/
def scaleExp (b : Nat) : Option Int := if b = 255 then none else some ((b : Int) - 127)

/-- Elements of `w` bits packed from bit 0 up, and the n-th of them (07 R184). -/
def packBits (w : Nat) (l : List Nat) : Nat := l.foldr (fun x acc => x % 2 ^ w + acc * 2 ^ w) 0
def packElems (w : Nat) (l : List Nat) : List Byte := leBytes (ceilDiv (l.length * w) 8) (packBits w l)

/-- A block's scale byte and element bits in MX format `c` (06 R159); what a block with an infinity, or a scale out of E8M0's
range, becomes is not stated (log entry 20). -/
def encodeBlock (c : Nat) (vs : List Num) : Nat × List Nat :=
  if vs.any Num.isNan then (255, vs.map (fun _ => Config.nanBlockElem c % 2 ^ fmtBits c))
  else
    let big : Option Int := (vs.filterMap Num.floorLog2).foldl (fun a x => some (match a with | none => x | some y => max x y)) none
    let openCase := (vs.any (fun v => match v with | .inf _ => true | _ => false))
    match big with
    | none => if openCase then Config.openBlock c (vs.map (fun v => fp32.encode false v)) else (127, vs.map (encodeElem c true))
    | some l =>
      let k := l - fmtEmax c
      if openCase || k < -127 || 127 < k then Config.openBlock c (vs.map (fun v => fp32.encode false v))
      else ((k + 127).toNat, vs.map (fun v => encodeElem c true (v.scale (-k))))

/-- `l` in runs of `n`. -/
def chunksOf {α : Type} (n : Nat) (l : List α) : List (List α) :=
  (List.range (ceilDiv l.length n)).map (fun i => (l.drop (i * n)).take n)

/-- A row of L values as stored in format `c` (06 R166): elements, then, in an MX format, the scale bytes. -/
def encodeRow (c : Nat) (sat : Bool) (vs : List Num) : List Byte :=
  if fmtMx c then
    let bs := (chunksOf 32 vs).map (encodeBlock c)
    packElems (fmtBits c) (bs.flatMap (·.2)) ++ bs.map (fun b => BitVec.ofNat 8 b.1)
  else packElems (fmtBits c) (vs.map (encodeElem c sat))

/-- The bytes of a stored row of `n` elements, before rounding up to 64 (06 R166). -/
def rowBytes (c n : Nat) : Nat := ceilDiv (n * fmtBits c) 8 + (if fmtMx c then n / 32 else 0)

/-- The i-th element's bits in a byte string of packed elements. -/
def elemAt (c : Nat) (bytes : List Byte) (i : Nat) : Nat :=
  let w := fmtBits c
  bitsOf (leAt bytes (i * w / 8) 5) (i * w % 8 + w - 1) (i * w % 8)

/-- Element `i` of a stored row of `n`, its block scale applied; a NaN scale gives NaN. -/
def rowElem (c n : Nat) (bytes : List Byte) (i : Nat) : Num :=
  let v := decodeElem c (elemAt c bytes i)
  if fmtMx c then
    match scaleExp (bytes.getD (ceilDiv (n * fmtBits c) 8 + i / 32) 0).toNat with
    | none => .nan
    | some k => v.scale k
  else v

/-- A stored row as FP32 values (06 R171). -/
def rowVals (c n : Nat) (bytes : List Byte) : List W32 := (List.range n).map (fun i => fpOf (rowElem c n bytes i))

/-! ### Row reductions in the vector unit's order (06 R171) -/

/-- Adjacent pairs combined; an odd last one passes. -/
def pairUp (f : W32 → W32 → W32) : List W32 → List W32
  | a :: b :: t => f a b :: pairUp f t
  | l => l

/-- A group of at most 512 combined pairwise in lane order. -/
def pairTree (f : W32 → W32 → W32) : Nat → List W32 → List W32
  | 0, l => l
  | n + 1, l => pairTree f n (pairUp f l)

/-- A row reduced: groups of 512 pairwise, the group results in ascending order. -/
def reduceRow (f : W32 → W32 → W32) (zero : W32) (l : List W32) : W32 :=
  match (chunksOf 512 l).map (fun g => (pairTree f 9 g).headD zero) with
  | [] => zero
  | a :: t => t.foldl f a

/-! ### KV entries (08 R207, R208) -/

/-- The head dimension of a code, and the bytes of one entry of a page in FP8 (format 0) or MXFP4 (08 R207, R208). -/
def hdimOf (code : Nat) : Nat := [64, 96, 128, 192, 256].getD code 0
def kvEntryBytes (format hdim : Nat) : Nat := if format = 0 then hdim else 17 * hdim / 32

end Sys2Proof.Machine
end

