-- ==== Sys2Proof/Machine/Transc.lean ====
section
/-! DEFINITION. The vector unit's built-in functions (06 R171, R172): each is one function the implementation fixes, held to its bound by a reference
computed here in fixed point, with far more bits than FP32 has. -/
namespace Sys2Proof.Machine

/-! ### Fixed point: an integer in units of 2^−320 -/

/-- Fraction bits, and one. -/
def fxBits : Nat := 320
def fxOne : Int := 2 ^ fxBits

/-- Product and quotient. -/
def fxMul (x y : Int) : Int := x * y / fxOne
def fxDiv (x y : Int) : Int := x * fxOne / y

/-- A finite value in fixed point, what lies below the last bit cut off. -/
def fxOf : Num → Int
  | .fin neg m e =>
    let a : Nat := if 0 ≤ e + fxBits then m * 2 ^ (e + fxBits).toNat else m / 2 ^ (-(e + fxBits)).toNat
    if neg then -(a : Int) else a
  | _ => 0

/-- A fixed-point number as a value, times 2^k. -/
def numOfFx (x : Int) (k : Int) : Num := .fin (decide (x < 0)) x.natAbs (k - fxBits)

/-- Σ rⁿ ÷ n! from term `n` on, `t` the term. -/
def expTerms (r : Int) : Nat → Nat → Int → Int → Int
  | 0, _, _, acc => acc
  | k + 1, n, t, acc => expTerms r k (n + 1) (fxMul t r / ((n : Int) + 1)) (acc + t)

/-- Σ (±t)^(2n+1) ÷ (2n + 1): the inverse hyperbolic tangent, or with `alt` the inverse tangent; `p` is the power reached. -/
def oddTerms (alt : Bool) (t2 : Int) : Nat → Nat → Int → Int → Int
  | 0, _, _, acc => acc
  | k + 1, n, p, acc => oddTerms alt t2 k (n + 1) (fxMul p t2) (if alt && n % 2 == 1 then acc - p / (2 * n + 1) else acc + p / (2 * n + 1))

/-- ln 2 and π. -/
def fxLn2 : Int := 2 * oddTerms false (fxMul (fxOne / 3) (fxOne / 3)) 110 0 (fxOne / 3) 0
def fxPi : Int :=
  let at_ (n : Int) : Int := oddTerms true (fxOne / (n * n)) 80 0 (fxOne / n) 0
  16 * at_ 5 - 4 * at_ 239

/-- The integer square root, one bit of the result a step. -/
def isqrtBits (n : Nat) : Nat → Nat → Nat
  | 0, r => r
  | k + 1, r => isqrtBits n k (let c := r + 2 ^ k; if c * c ≤ n then c else r)
def isqrt (n : Nat) : Nat := isqrtBits n (Nat.log2 n / 2 + 1) 0

/-- e^x of a fixed-point x of moderate size: 2^k × e^r. -/
def fxExp (x : Int) : Num :=
  let k := x / fxLn2
  numOfFx (expTerms (x - k * fxLn2) 80 0 fxOne 0) k

/-- ln of a positive value m × 2^e. -/
def fxLn (m : Nat) (e : Int) : Int :=
  let l := Nat.log2 m
  let t := fxDiv ((m : Int) - 2 ^ l) ((m : Int) + 2 ^ l)
  2 * oddTerms false (fxMul t t) 110 0 t 0 + (e + l) * fxLn2

/-! ### References -/

/-- Whether a finite value has a magnitude of 2^11 or more. -/
def Num.large (v : Num) : Bool := v.floorLog2.any (fun l => decide (11 ≤ l))

/-- e^x; past every format's range any value there will do. -/
def expRef : Num → Option Num
  | .nan => none
  | .inf neg => some (if neg then .fin false 0 0 else .inf false)
  | .fin neg m e =>
    let v : Num := .fin neg m e
    some (if v.large then .fin false 1 (if neg then -2000 else 2000) else fxExp (fxOf v))

/-- 1 ÷ x. -/
def recipRef (v : Num) : Option Num := some ((Num.fin false 1 0).div v)

/-- 1 ÷ √x of a positive value. -/
def rsqrtRef : Num → Option Num
  | .inf false => some (.fin false 0 0)
  | .fin false m e =>
    if m = 0 then none else
    let odd := e % 2 != 0
    some (.fin false (isqrt (2 ^ 400 / (if odd then 2 * m else m))) (-((if odd then e - 1 else e) / 2) - 200))
  | _ => none

/-- x ÷ (1 + e^−y), the logistic form of SiLU and GELU. -/
def logisticRef (x y : Num) : Option Num := (expRef y.neg).map (fun t => x.div ((Num.fin false 1 0).add t))

/-- x × σ(x). -/
def siluRef : Num → Option Num
  | .fin neg m e => logisticRef (.fin neg m e) (.fin neg m e)
  | .inf false => some (.inf false)
  | _ => none

/-- Σ (−h)ⁿ ÷ (n! (2n + 1)), `t` the term without the divisor. -/
def erfTerms (h : Int) : Nat → Nat → Int → Int → Int
  | 0, _, _, acc => acc
  | k + 1, n, t, acc => erfTerms h k (n + 1) (-(fxMul t h) / ((n : Int) + 1)) (acc + t / (2 * n + 1))

/-- √(2 ÷ π). -/
def fxRoot : Int := (isqrt (fxDiv (2 * fxOne) fxPi * fxOne).toNat : Nat)

/-- x × Φ(x), Φ(x) = (1 + erf(x ÷ √2)) ÷ 2; beyond 16 it is x, or less than every format holds. -/
def geluErfRef : Num → Option Num
  | .fin neg m e =>
    let v : Num := .fin neg m e
    if v.floorLog2.any (fun l => decide (4 ≤ l)) then some (if neg then .fin true 1 (-2000) else v)
    else
      let x := fxOf v
      some (v.mul (numOfFx (fxOne + fxMul (fxMul x fxRoot) (erfTerms (fxMul x x / 2) 500 0 fxOne 0)) (-1)))
  | .inf false => some (.inf false)
  | _ => none

/-- x × (1 + tanh(√(2 ÷ π) × (x + 0.044715 × x³))) ÷ 2. -/
def geluTanhRef : Num → Option Num
  | .fin neg m e =>
    let v : Num := .fin neg m e
    if v.floorLog2.any (fun l => decide (4 ≤ l)) then some (if neg then .fin true 1 (-2000) else v)
    else
      let x := fxOf v
      logisticRef v (numOfFx (fxMul fxRoot (x + fxMul x (fxMul x x) * 44715 / 1000000)) 1)
  | .inf false => some (.inf false)
  | _ => none

/-! ### The functions -/

/-- Whether FP32 bits lie within `n` units in the last place of a value; infinity stands at 2^128. -/
def ulpWithin (n : Nat) (r : Num) (x : W32) : Bool :=
  match r, fpVal x with
  | .inf a, .inf b => a == b
  | .fin neg m e, v =>
    let at_ : Num := match v with
      | .inf b => .fin b 1 128
      | _ => v
    let u := min 104 (max (-149) ((Num.fin neg m e).floorLog2.getD (-149) - 23))
    match at_.add (Num.fin neg m e).neg with
    | .fin _ d k => (Num.fin false d k).cmp (.fin false n u) != some 1
    | _ => false
  | _, _ => false

/-- One built-in function at `x`: the implementation's value `free`, held to within `n` ulp of the reference; a NaN gives the quiet NaN (06 R157);
where there is no exact result the implementation's value stands (log entry 165). -/
def unitFn (n : Nat) (ref : Num → Option Num) (free : W32) (x : W32) : W32 :=
  if fpIsNan x then fpNan
  else match ref (fpVal x) with
    | some r => if ulpWithin n r free then free else fpOf r
    | none => if fpIsNan free then fpNan else free

/-- exp, reciprocal and reciprocal square root, within 2 ulp; SiLU and both GELUs, within 4 (06 Table 6-7). -/
def vuExp (x : W32) : W32 := unitFn 2 expRef (Config.exp x) x
def vuRecip (x : W32) : W32 := unitFn 2 recipRef (Config.recip x) x
def vuRsqrt (x : W32) : W32 := unitFn 2 rsqrtRef (Config.rsqrt x) x
def vuSilu (x : W32) : W32 := unitFn 4 siluRef (Config.silu x) x
def vuGeluErf (x : W32) : W32 := unitFn 4 geluErfRef (Config.geluErf x) x
def vuGeluTanh (x : W32) : W32 := unitFn 4 geluTanhRef (Config.geluTanh x) x

/-! ### The angle of ROPE and its sine and cosine (06 R172) -/

/-- p × θ^(−2i ÷ ROT) reduced modulo 2π, in fixed point; none where θ is no positive finite number. -/
def ropeAngle (p i rot : Nat) (theta : W32) : Option Int :=
  match fpVal theta with
  | .fin false m e =>
    if m = 0 || rot = 0 then none
    else some ((p : Int) * fxOf (fxExp (-(fxLn m e * (2 * i : Nat) / (rot : Int)))) % (2 * fxPi))
  | _ => none

/-- Σ (−1)ⁿ a^(2n+k) ÷ (2n + k)!: the cosine for k = 0, the sine for k = 1; `t` the term. -/
def trigTerms (a2 : Int) (k : Nat) : Nat → Nat → Int → Int → Int
  | 0, _, _, acc => acc
  | c + 1, n, t, acc => trigTerms a2 k c (n + 1) (-(fxMul t a2) / (((2 * n + k + 1) * (2 * n + k + 2) : Nat) : Int)) (acc + t)

/-- Sine and cosine of a reduced angle. -/
def sinRef (a : Int) : Num := numOfFx (trigTerms (fxMul a a) 1 60 0 a 0) 0
def cosRef (a : Int) : Num := numOfFx (trigTerms (fxMul a a) 0 60 0 fxOne 0) 0

/-- The implementation's value of a sine or cosine, held to within its own error: the spec bounds it nowhere (log entry 165). -/
def trigFn (ref : Int → Num) (free : W32) : Option Int → W32
  | some a => if ulpWithin Config.trigUlp (ref a) free then free else fpOf (ref a)
  | none => if fpIsNan free then fpNan else free

/-- Sine and cosine of the angle of pair `i` at position `p`. -/
def vuSin (p i rot : Nat) (theta : W32) : W32 :=
  let a := ropeAngle p i rot theta
  trigFn sinRef (match a with | some a => Config.sine a | none => Config.ropeSin p i rot theta) a
def vuCos (p i rot : Nat) (theta : W32) : W32 :=
  let a := ropeAngle p i rot theta
  trigFn cosRef (match a with | some a => Config.cosine a | none => Config.ropeCos p i rot theta) a

end Sys2Proof.Machine
end

