-- ==== Sys2Proof/Machine/Forms.lean ====
section
/-! DEFINITION. The stored forms of sheets (02 R46 to R53, 07 R186): byte planes, requantised pages, the Zstandard frame with its checksum, the
Scroll tile form, their encryption, and reading each of them back. -/
namespace Sys2Proof.Machine

/-! ### Byte planes (02 R47) -/

/-- Every `w`-th byte of `l`, the first one on. -/
def stride (w : Nat) (l : List Byte) : List Byte := (List.range (ceilDiv l.length w)).map (fun i => l.getD (i * w) 0)

/-- The content shuffled with elements of `w` bytes: byte 0 of every element, then byte 1 of every element, and so on. -/
def shuffle (w : Nat) (l : List Byte) : List Byte := if w = 1 then l else (List.range w).flatMap (fun b => stride w (l.drop b))

/-- The inverse shuffle. -/
def unshuffle (w : Nat) (l : List Byte) : List Byte := if w = 1 then l else
  let n := l.length / w
  (List.range n).flatMap (fun i => (List.range w).map (fun b => l.getD (b * n + i) 0))

/-! ### Requantised pages (02 R50, R51) -/

/-- The value area of an FP8 E4M3 page: its length, and the page scale of the element at an index (08 R207, R208). None for any other content. -/
def fp8Area (page : List Byte) : Option (Nat × (Nat → Num)) :=
  if leAt page 0 2 != 0x4B56 || leAt page 2 1 != 0 then none else
  let e := hdimOf (leAt page 7 1)
  let part := leAt page 3 1
  let ks := fp32.decode (leAt page 24 4)
  let vs := fp32.decode (leAt page 28 4)
  if ks.isNan || vs.isNan then none else
  some (if part = 0 then 256 * leAt page 6 1 * e else 128 * e,
    fun i => if part = 1 then ks else if part = 2 then vs else if i / (128 * e) % 2 = 0 then ks else vs)

/-- A block of 32 elements under page scale `ps` as stored: 16 bytes of packed E2M1 elements, then the scale byte (02 R50 steps 2 to 4). -/
def packBlock (ps : Num) (l : List Byte) : List Byte :=
  let b := encodeBlock 9 (l.map (fun x => (e4m3.decode x.toNat).mul ps))
  packElems 4 b.2 ++ [BitVec.ofNat 8 b.1]

/-- An expanded element: the product `v` of its E2M1 value and its block scale, in E4M3 under page scale `ps`; below the smallest subnormal, 2^-9,
it is zero (02 R51), with its sign (log entry 146). -/
def expandElem (ps v : Num) : Byte :=
  match v.div ps with
  | .fin neg m e =>
    if (Num.fin neg m e).floorLog2.all (fun k => decide (k < -9)) then BitVec.ofNat 8 (e4m3.encode true (.fin neg 0 0))
    else BitVec.ofNat 8 (e4m3.encode true (.fin neg m e))
  | w => BitVec.ofNat 8 (e4m3.encode true w)

/-- The 32 elements of a stored block of 17 bytes. -/
def unpackBlock (ps : Num) (l : List Byte) : List Byte :=
  (List.range 32).map (fun i => match scaleExp (l.getD 16 0).toNat with
    | none => expandElem ps .nan
    | some k => expandElem ps ((e2m1.decode (elemAt 9 l i)).scale k))

/-- The requantised content of a page; none where 02 R50 leaves the page as it is: not an FP8 E4M3 page, or a NaN in its value area. -/
def packPage (page : List Byte) : Option (List Byte) :=
  match fp8Area page with
  | none => none
  | some (v, scaleOf) =>
    let area := sliceB page 2048 v
    if area.any (fun b => (e4m3.decode b.toNat).isNan) then none
    else some (page.take 2048 ++ (List.range (v / 32)).flatMap (fun b => packBlock (scaleOf (b * 32)) (sliceB area (b * 32) 32)) ++ page.drop (2048 + v))

/-- The page of a requantised content of the size that its header asks for. -/
def unpackPage (l : List Byte) : Option (List Byte) :=
  match fp8Area l with
  | none => none
  | some (v, scaleOf) =>
    if l.length + v != 65536 + 17 * v / 32 then none
    else some (l.take 2048 ++ (List.range (v / 32)).flatMap (fun b => unpackBlock (scaleOf (b * 32)) (sliceB l (2048 + 17 * b) 17)) ++
      l.drop (2048 + 17 * v / 32))

/-- The page after a demotion with requantisation and the promotion that undoes it. -/
def requantPage (page : List Byte) : Option (List Byte) := (packPage page).bind unpackPage

/-! ### The Zstandard frame (02 R48, R49, Table 2-6) -/

/-- Magic number and frame header descriptor. -/
def frameHead : List Byte := [0x28, 0xB5, 0x2F, 0xFD, 0x64]

/-- A content as one raw block, the last of its frame. -/
def rawBlock (l : List Byte) : List Byte := leBytes 3 (1 + l.length * 8) ++ l

/-- The content of a frame's blocks, and what follows the last one: raw, run-length and compressed blocks of at most 65,536 bytes. What a
compressed block holds, after the blocks before it, is RFC 8878's (log entry 147). -/
def readBlocks : Nat → List Byte → List Byte → List Byte → Option (List Byte × List Byte)
  | 0, _, _, _ => none
  | n + 1, before, out, l =>
    let h := ofLe (l.take 3)
    let size := h / 8
    let len := if h / 2 % 4 = 1 then 1 else size
    let body := (l.drop 3).take len
    let rest := l.drop (3 + len)
    if h / 2 % 4 = 3 || 65536 < size || body.length != len || l.length < 3 then none else
    match (if h / 2 % 4 = 0 then some body else if h / 2 % 4 = 1 then some (List.replicate size (body.headD 0)) else Config.zstdBlock before out body) with
    | none => none
    | some c => if h % 2 = 1 then some (out ++ c, rest) else readBlocks n (before ++ l.take (3 + len)) (out ++ c) rest

/-- The blocks the encoder makes of a content: its own choice where they read back as the content and are no longer than one raw block. -/
def blocksOf (l : List Byte) : List Byte :=
  let b := Config.zstdBlocks l
  if decide (b.length ≤ l.length + 3) && readBlocks (l.length + 1) [] [] b == some (l, []) then b else rawBlock l

/-- The frame of a content of 256 to 65,791 bytes. -/
def frameOf (l : List Byte) : List Byte := frameHead ++ leBytes 2 (l.length - 256) ++ blocksOf l ++ leBytes 4 (xxh64 l).toNat

/-- Zero bytes up to the next 64-byte boundary. -/
def pad64 (l : List Byte) : List Byte := l ++ zerosB (ceilDiv l.length 64 * 64 - l.length)

/-- The content of a padded frame; none where it departs from Table 2-6, fails to decode, or its size or checksum does not match (02 R49). -/
def unframe (l : List Byte) : Option (List Byte) :=
  if l.take 5 != frameHead then none else
  match readBlocks (l.length + 1) [] [] (l.drop 7) with
  | none => none
  | some (c, rest) =>
    if c.length = ofLe ((l.drop 5).take 2) + 256 && decide (4 ≤ rest.length) && ofLe (rest.take 4) == (xxh64 c).toNat % 2 ^ 32 &&
        decide (rest.length < 68) && (rest.drop 4).all (· == 0) then some c else none

/-! ### The Scroll tile form (07 R186) -/

/-- Transform 1: the low nibbles of the bytes, two to a byte, then the high nibbles; and back. -/
def splitNibbles (l : List Byte) : List Byte :=
  let half (g : Byte → Nat) := (List.range (l.length / 2)).map (fun i => BitVec.ofNat 8 (g (l.getD (2 * i) 0) + 16 * g (l.getD (2 * i + 1) 0)))
  half (fun b => b.toNat % 16) ++ half (fun b => b.toNat / 16)
def joinNibbles (l : List Byte) : List Byte :=
  let n := l.length / 2
  let nib (b : Byte) (i : Nat) : Nat := if i % 2 = 0 then b.toNat % 16 else b.toNat / 16
  (List.range l.length).map (fun i => BitVec.ofNat 8 (nib (l.getD (i / 2) 0) i + 16 * nib (l.getD (n + i / 2) 0) i))

/-- A transform of Table 7-1 and its inverse. -/
def tileTransform (k : Nat) (l : List Byte) : List Byte := if k = 1 then splitNibbles l else if k = 2 then shuffle 2 l else l
def tileRestore (k : Nat) (l : List Byte) : List Byte := if k = 1 then joinNibbles l else if k = 2 then unshuffle 2 l else l

/-- The 16-byte header of a sheet in Scroll tile form (Table 7-1). -/
def tileHeader (h : TileHead) : List Byte :=
  leBytes 2 0x5C53 ++ [h.transform, h.part, h.slot, h.pen, h.role, 0].map (BitVec.ofNat 8) ++ leBytes 4 h.first ++ zerosB 4

/-! ### Stored forms (02 R46, R52, R53) -/

/-- The form of a content before encryption: COMP, SHUF and, for a tile form, the header. -/
def plainForm (comp shuf : Nat) (tile : Option TileHead) (content : List Byte) : List Byte :=
  match comp, tile with
  | 0, _ => content
  | 3, some h => pad64 (tileHeader h ++ frameOf (tileTransform h.transform content))
  | 2, _ => pad64 (frameOf ((packPage content).getD content))
  | _, _ => pad64 (frameOf (shuffle (2 ^ shuf) content))

/-- The content that a form gives back; none where it is an uncorrectable error of the sheet (02 R49, 07 R187). -/
def openForm (comp shuf : Nat) (tile : Option TileHead) (l : List Byte) : Option (List Byte) :=
  let sheet (c : List Byte) : Option (List Byte) := if c.length = 65536 then some c else none
  match comp, tile with
  | 0, _ => some l
  | 3, some h => if l.take 16 = tileHeader h then ((unframe (l.drop 16)).bind sheet).map (tileRestore h.transform) else none
  | 2, _ => (unframe l).bind unpackPage
  | _, _ => ((unframe l).bind sheet).map (unshuffle (2 ^ shuf))

/-- The form's length in 64-byte units: 1,024 plain, else that of the frame, 1 to 1,025 (02 R48). -/
def formLen (comp shuf : Nat) (tile : Option TileHead) (content : List Byte) : Nat :=
  if comp = 0 then 1024 else max 1 (min 1025 ((plainForm comp shuf tile content).length / 64))

/-- The bytes stored in T2 to T4 (02 R52, R53): the form under a 512-bit key, with tweaks of the sheet number. -/
def storedForm (key : List Byte) (no comp shuf : Nat) (tile : Option TileHead) (content : List Byte) : List Byte :=
  xts true key 0 no (plainForm comp shuf tile content)

end Sys2Proof.Machine
end

