-- ==== Sys2Proof/Machine/Tier.lean ====
section
/-! DEFINITION. The tier manager (02): placement, quotas, copy-on-write, discard, promotion and demotion, migrations, and the
memory accesses of the engines through sheets, pinned windows and host windows. -/
namespace Sys2Proof.Machine

/-! ### Areas of the window (02 R508, 11 R284, 14 R374) -/

/-- ceil(log2 n). -/
def clog2 (n : Nat) : Nat := if n ≤ 1 then 0 else Nat.log2 (n - 1) + 1

/-- Vector bytes, node size and side entry size of a DIM code (11 Table 11-2). -/
def rclV (dim : Nat) : Nat := 32 * 2 ^ dim
def rclNodeSize (dim : Nat) : Nat := [320, 384, 448, 576].getD dim 320
def rclSideSize (dim : Nat) : Nat := [64, 128, 192, 320].getD dim 64
/-- Sheets of the ID map, of the side ring and of the node array (11 Table 11-1). -/
def rclMapBits (cap : Nat) : Nat := max 13 (clog2 (2 * cap))
def rclMapSheets (cap : Nat) : Nat := 2 ^ (rclMapBits cap - 13)
def rclSideSheets (dim : Nat) : Nat := ceilDiv 1048576 (65536 / rclSideSize dim)
def rclNodeSheets (dim cap : Nat) : Nat := ceilDiv cap (65536 / rclNodeSize dim)
/-- Sheets of an index area. -/
def rclSheets (dim cap : Nat) : Nat := 1 + rclMapSheets cap + rclSideSheets dim + rclNodeSheets dim cap

/-- The recall index area of fold `f`, as map indices from and up to; empty while the index is not enabled. -/
def State.recallArea (s : State) (f : Nat) : Nat × Nat :=
  let c := s.act (rRclConfig f)
  let b := s.mapIndex f (s.act (rRclBase f))
  if bitOf c 8 then (b, b + rclSheets (bitsOf c 1 0) (s.act (rRclCap f))) else (0, 0)

/-- Sheets of the snapshot store: own slots, and replica slots when REPLICATE is set (14 R374). -/
def State.snapSlots (s : State) (f : Nat) : Nat := bitsOf (s.act (rSnapStore f)) 3 0
def State.snapReplicate (s : State) (f : Nat) : Bool := bitOf (s.act (rSnapStore f)) 8
def State.snapArea (s : State) (f : Nat) : Nat × Nat :=
  let b := s.mapIndex f (s.act (rSnapStoreBase f))
  let n := s.snapSlots f
  if n = 0 then (0, 0) else (b, b + n * s.act (rSnapSlotSheets f) * (if s.snapReplicate f then 2 else 1))

/-- Whether map index `i` lies in an area. -/
def inArea (a : Nat × Nat) (i : Nat) : Bool := decide (a.1 ≤ i) && decide (i < a.2)

/-! ### Quotas (02 R38 to R42) -/

/-- The key under which a fold's `expanded` map lists the sheets of the active image's HBM area. -/
def hbmKey : Nat := 0x10000

/-- The trie sheets of the fold's sessions, as the directory at byte 65,408 of each parameter sheet lists them (10 R269). -/
def State.trieSlots (s : State) (f : Nat) : Nat :=
  sumOn (fun p : Nat × Sess => if p.2.fold != f || !(s.fold f).backed p.2.record.paramSheet then 0 else
    let a := s.sheetOffset f p.2.record.paramSheet + 65408
    ((List.range 4).filter (fun k => s.num (a + 4 * k) 4 != 0xFFFFFFFF)).length) s.sessions

/-- System slots (02 R30): sheet map, session records, FTL map, second-copy area, prefix index, event backlogs; the vocabulary, which is the active
image's HBM area, and the tries are counted as system slots too (log entry 31). -/
def State.sysSheets (s : State) (f : Nat) : Nat :=
  (getND (s.fold f).expanded hbmKey []).length + s.trieSlots f +
  ceilDiv (s.windowSheets f * 16) 65536 + ceilDiv (s.act (rSessDirRecords f) * 512) 65536 +
    ceilDiv ((s.fold f).ns.slots * 20) 65536 + s.act (rSnapCowSheets f) * b2n (s.snapSlots f != 0) +
    ceilDiv (s.act (rInkPrefix f) * 576) 65536 * b2n (s.isRoot f) +
    4 * ((List.range 256).filter (fun q => s.eqOn q && s.eqOwner q == f)).length

/-- The fold's T4 area window. -/
def State.t4Window (s : State) (f : Nat) : Option Nat :=
  (List.range 256).find? (fun n => s.winOn n && s.act (rLnkWinOwner n) == f && bitsOf (s.act (rLnkWinKind n)) 0 0 == 1)
/-- The number of T4 slots (02 R32). -/
def State.t4Slots (s : State) (f : Nat) : Nat := match s.t4Window f with
  | some n => s.winSize n / 65600
  | none => 0

/-- Upper bound of a settable quota (02 R39). -/
def State.quotaBound (s : State) (f t : Nat) : Nat :=
  if t = 2 then 32768 * (4 * (s.fold f).penList.length) - s.sysSheets f
  else if t = 3 then (s.fold f).ns.slots
  else if t = 4 then s.t4Slots f else 0

/-- The quota of tier `t` (02 R38, R39). A namespace that is FORMING or RELEASING offers none (07 R200). -/
def State.quota (s : State) (f t : Nat) : Nat :=
  let x := s.fold f
  if t = 0 then x.penList.length * (96 - x.pinned)
  else if t = 1 then 12 * (x.wayList.length - x.pinnedWays.length)
  else getND x.quota t 0

/-- Room in tier `t`. -/
def State.room (s : State) (f t : Nat) : Nat := s.quota f t - (s.fold f).use t

/-- Room in tier `t` that no move already asked for or under way takes. -/
def State.roomLeft (s : State) (f t : Nat) : Nat :=
  let x := s.fold f
  s.room f t - (x.requests.filter (fun r => r.2 == t && (x.sheet r.1).tier != t)).length -
    (x.migs.filter (fun p => p.2.target == t && p.2.oldTier != t && p.2.phase != 7)).length

/-- The TIER_QUOTA event (03 R76, 02 R42). -/
def postQuota (f t reason use : Nat) (s : State) : State :=
  postFold evTierQuota f stOk 0
    (leBytes 1 t ++ leBytes 1 reason ++ [0, 0] ++ leBytes 4 use ++ leBytes 3 (s.act (rTierQuotaRefused f))) s

/-- A refusal for quota (reason 1), or for a full window (tier 7, reason 2), whose use is then the window's backed sheets: at most one event
per tier in 1,000 µs. The refusals in between, and every one for a full window, are counted (02 R42, log entry 142). -/
def refuseQuota (f t : Nat) (s : State) : State :=
  let due := match getN (s.fold f).quotaEvent t with
    | some at_ => decide (at_ + 1000 ≤ s.now)
    | none => true
  let s := if t = 7 || !due then s.count (rTierQuotaRefused f) 1 else s
  if due then
    postQuota f t (if t = 7 then 2 else 1) (if t = 7 then (s.fold f).sheets.length else (s.fold f).use t)
      (s.modFold f (fun x => { x with quotaEvent := setN x.quotaEvent t s.now }))
  else s

/-- The threshold events of the tiers whose use rose between `s₀` and `s` (02 R42). -/
def noteThresholds (f : Nat) (s₀ s : State) : State :=
  (List.range 5).foldl (fun s t =>
    let lim := s.quota f t * s.act (rTierQuotaThresh f)
    let a := (s₀.fold f).use t * 16
    let b := (s.fold f).use t * 16
    if decide (a < lim) && decide (lim ≤ b) then postQuota f t 0 ((s.fold f).use t) s else s) s

/-! ### Locations -/

/-- Locations of tier `t` in use: by sheets, by a migration's new copy, and by an old copy not yet released. -/
def Fold.usedLocs (x : Fold) (t : Nat) : List Nat :=
  (x.sheets.filter (fun p => p.2.tier == t)).map (fun p => p.2.loc) ++
  (x.migs.filter (fun p => p.2.target == t && p.2.phase == 5)).map (fun p => p.2.newLoc) ++
  (x.migs.filter (fun p => p.2.oldTier == t && p.2.phase == 7)).map (fun p => p.2.oldLoc)

/-- Free T0 locations of pen `p`: the pool slots P to 95 (02 R27, Table 2-4). -/
def Fold.freeT0 (x : Fold) (p : Nat) : List Nat :=
  let used := x.usedLocs 0
  ((List.range (96 - x.pinned)).map (fun k => p + (x.pinned + k) * 64)).filter (fun l => !used.contains l)

/-- A location of tier `t` for a sheet of fold `f`: one of those free, which of them being TIER's choice (02 R508, log entry 6);
`pen` asks for that pen's slate or channels. T3 takes the lowest free slot (12 R312). -/
def chooseLoc (f t : Nat) (pen : Option Nat) (s : State) : Option (Nat × State) :=
  let x := s.fold f
  let (r, s') := s.draw
  if t = 0 then
    let l := (match pen with | some p => [p] | none => x.penList).flatMap x.freeT0
    if l.isEmpty then none else some (l.getD (r % l.length) 0, s')
  else if t = 1 then
    let used := x.usedLocs 1
    let ways := x.wayList.filter (fun w => !x.pinnedWays.contains w)
    let l := (ways.flatMap (fun w => (List.range 12).map (fun k => w + k * 64))).filter (fun l => !used.contains l)
    if l.isEmpty then none else some (l.getD (r % l.length) 0, s')
  else if t = 2 then
    let used := x.usedLocs 2
    let chans := (match pen with | some p => [p] | none => x.penList).flatMap (fun p => [4 * p, 4 * p + 1, 4 * p + 2, 4 * p + 3])
    let total := chans.length * 32768
    let locOf (k : Nat) : Nat := chans.getD (k % chans.length) 0 + k / chans.length * 256
    if total = 0 then none else
    (firstFrom (fun k => !used.contains (locOf (k % total))) (used.length + 1) (r % total)).map (fun k => (locOf (k % total), s'))
  else if t = 4 then
    let used := x.usedLocs 4
    let total := s.t4Slots f
    if total = 0 then none else
    (firstFrom (fun k => !used.contains (k % total * 1025)) (used.length + 1) (r % total)).map (fun k => (k % total * 1025, s'))
  else none

/-- The key generation bit of the fold's current key (15). -/
def State.keygen (s : State) (f : Nat) : Nat := (s.fold f).key.g.toNat % 2

/-- Whether a form is encrypted under an old generation (15 R406): in T2 to T4 while a sweep runs. -/
def oldForm (s : State) (f : Nat) (e : Sheet) : Bool :=
  (s.fold f).key.state == 2 && decide (2 ≤ e.tier) && decide (e.tier ≤ 4) && e.keygen != s.keygen f

/-- SWEEP_LEFT one lower where an old-generation form has gone (15 R406). -/
def sweptOne (f : Nat) (e : Sheet) (s : State) : State :=
  if oldForm s f e then s.modKey f (fun k => { k with sweepLeft := k.sweepLeft - 1 }) else s

/-- The fold's key of a generation bit (02 R53, R54). -/
def State.formKey (s : State) (f gen : Nat) : List Byte := if gen = s.keygen f then (s.fold f).key.current else (s.fold f).key.old

/-- The map entry at index `i` written (02 R43 step 6). -/
def putEntry (f i : Nat) (e : Sheet) (s : State) : State := s.modFold f (fun x => { x with sheets := setN x.sheets i e })

/-- A new sheet placed at unbacked index `i`: the preferred tier, or the next slower one with room, no lower than T2
(02 R36). `pen` fixes the pen of a T0 copy; `only` keeps it there. -/
def placeSheet (f i pref kind : Nat) (pen : Option Nat) (only wet : Bool) (s : State) : Tried State :=
  let tiers := if only then [0] else [0, 1, 2].filter (fun t => decide (pref ≤ t))
  let try_ (t : Nat) : Option (Nat × Nat × State) :=
    if s.quota f t ≤ (s.fold f).use t then none else (chooseLoc f t (if t = 1 then none else pen) s).map (fun r => (t, r.1, r.2))
  match (tiers.filterMap try_).head? with
  | some (t, l, s') =>
    .ok (noteThresholds f s (putEntry f i
      { tier := t, keygen := if t = 2 then s.keygen f else 0, snap := false, wet := wet, migrating := false, comp := 0, shuf := 0,
        kind := kind, refs := 1, len := 1024, loc := l, lastAccess := s.now, lastRead := (s.fold f).stepNo } s'))
  | none => if only then .error (stQuota, s) else .error (stQuota, refuseQuota f 2 s)

/-- The map indices that running registrations have chosen for sheets not yet in the map (07 R200 step 7). -/
def Fold.promised (x : Fold) : List Nat := x.registering.flatMap (fun r => r.2.left.map (·.index))

/-- Whether a sheet the device creates may take map index `i`: unbacked, outside the recall and snapshot areas (02 R508), not promised. -/
def State.indexFree (s : State) (f i : Nat) : Bool :=
  !(s.fold f).backed i && !inArea (s.recallArea f) i && !inArea (s.snapArea f) i && !(s.fold f).promised.contains i

/-- The lowest map index that a sheet the device creates may take (02 R508). -/
def State.freeIndex (s : State) (f : Nat) : Option Nat :=
  let ra := s.recallArea f
  let sa := s.snapArea f
  let fuel := (s.fold f).sheets.length + (ra.2 - ra.1) + (sa.2 - sa.1) + (s.fold f).promised.length + 1
  match firstFrom (s.indexFree f) (min fuel (s.windowSheets f)) 0 with
  | some i => if i < s.windowSheets f then some i else none
  | none => none

/-- A sheet created by an engine of the device, which chooses its number (02 R508): its map index. -/
def newSheet (f pref kind : Nat) (pen : Option Nat) (only wet : Bool) (s : State) : Tried (Nat × State) :=
  match s.freeIndex f with
  | none => .error (stQuota, refuseQuota f 7 s)
  | some i => andThen (placeSheet f i pref kind pen only wet s) (fun s => .ok (i, s))

/-! ### Snapshot marks (14 R370) -/

/-- This member's shard abandoned with `st`: SNAP cleared on every sheet of its set (14 Table 14-1). -/
def abandonShard (f : Nat) (st : W16) (s : State) : State :=
  s.modFold f (fun x =>
    { x with sheets := x.sheets.map (fun p => (p.1, { p.2 with snap := false }))
             snap := { x.snap with marked := [], copies := [], poisonedCopies := [], fail := some st } })

/-- What a write, discard or score update of a marked sheet does first: its content goes to a second copy, or the shard is
abandoned when no second-copy slot is free (14 R370, R371). -/
def captureCopy (f i : Nat) (s : State) : State :=
  if ((s.fold f).sheet i).snap then
    if (s.fold f).snap.copies.length < s.act (rSnapCowSheets f) then
      let (r, s) := s.draw
      let content := s.read (s.sheetOffset f i) 65536
      let bad := s.poisoned (s.sheetOffset f i) 65536
      let s := (s.count (rSnapCowStalls f) 1).count (rSnapCowStallNs f) (r % 1001)
      s.modFold f (fun x =>
        { x with sheets := modN x.sheets i (fun e => { e with snap := false })
                 snap := { x.snap with copies := setN x.snap.copies i content
                                       poisonedCopies := if bad then x.snap.poisonedCopies ++ [i] else x.snap.poisonedCopies } })
    else abandonShard f stQuota s
  else s

/-! ### Discard (02 R33, R45) -/

/-- The migration of sheet `i` abandoned (02 R45): counted, MIGRATING cleared, a new T3 slot returned. -/
def abandonMig (f i : Nat) (s : State) : State :=
  match getN (s.fold f).migs i with
  | none => s
  | some m =>
    if m.phase = 7 then s else
    let s := s.modFold f (fun x =>
      { x with migs := delN x.migs i, sheets := modN x.sheets i (fun e => { e with migrating := false })
               ns := if m.target = 3 && m.phase = 5 then
                   returnSlot f (m.newLoc / 1280) { x.ns with writes := x.ns.writes.filter (fun o => o.index != some i) }
                 else x.ns })
    s.count rTierMigAbandoned 1

/-- The storage of an entry given back: a T3 slot's pages are unmapped (12 R312). -/
def freeStorage (f : Nat) (e : Sheet) (s : State) : State :=
  if e.tier = 3 then s.modNs f (returnSlot f (e.loc / 1280)) else s

/-- The old location of a committed migration of sheet `i` back in the free pool (02 R43 step 7). -/
def releaseMig (f i : Nat) (s : State) : State :=
  match getN (s.fold f).migs i with
  | none => s
  | some m =>
    if m.phase != 7 then s else
    let s := s.modFold f (fun x => { x with migs := delN x.migs i })
    if m.oldTier = 3 then s.modNs f (returnSlot f (m.oldLoc / 1280)) else s

/-- Sheet `i` discarded: unbacked, reading zeros (02 R33). -/
def discardSheet (f i : Nat) (s : State) : State :=
  if !(s.fold f).backed i then s else
  let s := captureCopy f i (abandonMig f i (releaseMig f i s))
  let e := (s.fold f).sheet i
  let s := freeStorage f e (sweptOne f e s)
  let a := s.sheetOffset f i
  let s := s.modFold f (fun x => { x with sheets := delN x.sheets i, migs := delN x.migs i,
                                          requests := x.requests.filter (fun r => r.1 != i), quotaOut := delN x.quotaOut i })
  { s with mem := memClear s.mem a (a + 65536), poison := s.poison.filter (fun u => !(decide (a ≤ u * 64) && decide (u * 64 < a + 65536))) }

/-- Every sheet of a list discarded. -/
def discardAll (f : Nat) (l : List Nat) (s : State) : State := l.foldl (fun s i => discardSheet f i s) s

/-- The sheets of `s` that `s₀` does not have, discarded: what an operation that fails has made is given back, the events of its refusal stay. -/
def dropNew (f : Nat) (s₀ s : State) : State := discardAll f ((keysN (s.fold f).sheets).filter (fun i => !(s₀.fold f).backed i)) s

/-- One reference fewer; at none the sheet is discarded (02 R34). -/
def dropRef (f i : Nat) (s : State) : State :=
  let e := (s.fold f).sheet i
  if e.refs ≤ 1 then discardSheet f i s else putEntry f i { e with refs := e.refs - 1 } s

/-! ### Stored forms (02 R46 to R51) -/

/-- Whether a KV page is requantised on its way to `t` (02 R50). -/
def lossy (s : State) (f t : Nat) (e : Sheet) (content : List Byte) : Bool :=
  decide (3 ≤ t) && e.kind == 1 && s.act (rTierKvLossy f) == 1 && (requantPage content).isSome

/-- COMP and SHUF of the form in tier `t` (02 R46, R47). -/
def formOf (s : State) (f t : Nat) (e : Sheet) (content : List Byte) : Nat × Nat :=
  if t ≤ 2 then (if e.tile.isSome && e.comp = 3 && t = 2 then 3 else 0, 0)
  else if e.tile.isSome then (3, 0)
  else if lossy s f t e content then (2, 0)
  else (1, bitsOf (s.act (rTierShuffle f)) (2 * e.kind + 1) (2 * e.kind))

/-- The length of the form that sheet entry `e` takes in tier `t`. -/
def State.lenIn (s : State) (f t : Nat) (e : Sheet) (content : List Byte) : Nat :=
  formLen (formOf s f t e content).1 (formOf s f t e content).2 e.tile content

/-- The 16-byte map entry (02 Table 2-3). -/
def Sheet.bytes (e : Sheet) (f : Nat) : List Byte :=
  leBytes 1 (e.tier + 8 * e.keygen + 16 * b2n e.snap + 32 * b2n e.wet + 64 * b2n e.migrating) ++ leBytes 1 (e.comp + 4 * e.shuf + 16 * e.kind) ++
    leBytes 2 e.refs ++ leBytes 2 e.len ++ leBytes 2 f ++ leBytes 8 e.loc

/-- The sheet map of fold `f` as it stands in its system slots (02 R30, R31), and one of those slots as HBM holds it (02 R53). -/
def State.sheetMap (s : State) (f : Nat) : List Byte :=
  (List.range (s.windowSheets f)).flatMap (fun i => ((s.fold f).sheet i).bytes f)
def State.mapSlotStored (s : State) (f k : Nat) : List Byte :=
  xts true (s.fold f).key.current 1 k (sliceB (s.sheetMap f) (k * 65536) 65536)

/-- The bytes that hold sheet `i` where its entry says (02 R52, Table 2-7): plain on die, under the key of its KEYGEN elsewhere. -/
def State.storedBytes (s : State) (f i : Nat) : List Byte :=
  let e := (s.fold f).sheet i
  let content := s.read (s.sheetOffset f i) 65536
  if e.tier < 2 then content else storedForm (s.formKey f e.keygen) (s.sheetNo f i) e.comp e.shuf e.tile content

/-- Sheet `i` read from where it is stored (02 R49, R55): a T4 form as host memory holds it now, decrypted and decoded, so that a valid older one
takes effect; none where it is an uncorrectable error of the sheet. What the other tiers hold is the content. -/
def readBack (f i : Nat) (s : State) : Option State :=
  let e := (s.fold f).sheet i
  if e.tier = 4 then
    match s.t4Window f with
    | none => none
    | some n =>
      let l := s.linkRead (s.act (rLnkWinHost n) + e.loc * 64) (e.len * 64)
      (openForm e.comp e.shuf e.tile (xts false (s.formKey f e.keygen) 0 (s.sheetNo f i) l)).map (fun c =>
        { s with mem := memSetN s.mem (s.sheetOffset f i) (padTo 65536 c) })
  else if e.tier = 3 && (s.fold f).ns.slotPoisoned (e.loc / 1280) then none
  else some s

/-- The sheet moved to `t` at `loc` (02 R43 step 6): the new entry, the sweep's count, the stored bytes of a T4 form in the fold's
host window area, and the loss of a requantised page. The old storage is not given back here. -/
def commitMove (f i t loc len : Nat) (s : State) : State :=
  let e := (s.fold f).sheet i
  let a := s.sheetOffset f i
  let content := s.read a 65536
  let fm := formOf s f t e content
  let s₀ := s
  let s := match requantPage content with
    | some p => if fm.1 = 2 then { s with mem := memSetN s.mem a p } else s
    | none => s
  let stored := padTo (len * 64) (storedForm (s.fold f).key.current (s.sheetNo f i) fm.1 fm.2 e.tile content)
  let s := match (if t = 4 then s.t4Window f else none) with
    | some n => s.linkWrite (s.act (rLnkWinHost n) + loc * 64) stored
    | none => s
  let s := sweptOne f e s
  noteThresholds f s₀ (putEntry f i
    { e with tier := t, loc := loc, len := len, comp := fm.1, shuf := fm.2, migrating := false
             keygen := if 2 ≤ t then s.keygen f else 0 } s)

/-- The heads member `i` of `m` holds of a layer of `k` KV heads, the position groups and its own group (08 Table 8-4). -/
def shareOf (k m i : Nat) : List Nat × Nat × Nat :=
  if m ≤ k then ((List.range k).filter (fun h => h % m == i), 1, 0)
  else if 1 < k && m % k == 0 then ([i % k], m / k, i / k)
  else (List.range k, m, i)

/-- The member count that KV is divided by: the drove's, with the indices a shrink has absorbed (14 R386). -/
def State.kvMembers (s : State) (f : Nat) : Nat := s.droveSize f + (s.fold f).snap.absorbed.length

/-- The pen whose slate and channels a KV page belongs to (08 R213), as its header and first slot say; none for other sheets. -/
def State.kvPen (s : State) (f i : Nat) : Option Nat :=
  if ((s.fold f).sheet i).kind != 1 || ((s.fold f).sheet i).wet then none else
  match (s.fold f).active.bind (getN (s.fold f).images) with
  | none => none
  | some x =>
    let a := s.sheetOffset f i
    let l := s.num (a + 4) 2
    let k := (x.layers[l]?).elim 1 (·.kvHeads)
    let pg := if l < x.layers.length - x.draftLayers then (shareOf k (s.kvMembers f) (s.memberIndex f)).2.1 else 1
    let l := (s.fold f).penList
    l[s.num (a + 64) 4 / 128 / pg % max 1 l.length]?

/-- A whole migration in one step, for an access that waits for it (02 R37, log entry 32): none where no location is free. -/
def moveNow (f i t : Nat) (pen : Option Nat) (s : State) : Option State :=
  let e := (s.fold f).sheet i
  let content := s.read (s.sheetOffset f i) 65536
  let len := s.lenIn f t e content
  if t = 3 then
    match storeForm s f len none with
    | none => none
    | some (s, k) =>
      let s := s.modNs f (fun x => { x with writes := x.writes.dropLast })
      some (freeStorage f e (commitMove f i 3 (k * 1280) len s))
  else
    match chooseLoc f t pen s with
    | none => none
    | some (l, s) => some (freeStorage f e (commitMove f i t l len s))

/-! ### Promotion and demotion on access (02 R37) -/

/-- Whether a sheet's content holds poison. -/
def State.sheetPoisoned (s : State) (f i : Nat) : Bool := s.poisoned (s.sheetOffset f i) 65536

/-- The fold's spill tier. -/
def State.spillTier (s : State) (f : Nat) : Nat := s.act (rTierSpillTier f)

/-- Where a T2 sheet can be demoted: the spill tier with room; the other of T3 and T4 when a read-only namespace refuses it. Weight
tiles never enter T4 (02 R46). -/
def demotionTier (s : State) (f : Nat) (e : Sheet) : Option Nat :=
  let ok (t : Nat) : Bool := decide (0 < s.room f t) && !(t == 4 && e.tile.isSome) && !(t == 3 && (s.fold f).ns.state != nsNormal)
  let sp := s.spillTier f
  if ok sp then some sp
  else if sp = 3 && (s.fold f).ns.state = nsReadOnly && ok 4 then some 4
  else none

/-- The sheets of tier `t` that may be moved out, least recently accessed first (02 R37, R39). -/
def lruSheets (s : State) (f t : Nat) : List (Nat × Sheet) :=
  sortBy (fun a b => a.2.lastAccess ≤ b.2.lastAccess) ((s.fold f).sheets.filter (fun p => p.2.tier == t && !p.2.wet && p.2.refs == 1))

/-- The migration of sheet `i` ended for a request that waits for it (02 R43 step 1, Table 2-5): it commits now, or is abandoned where it cannot; a
committed one gives its old location back (log entry 32). -/
def settleMig (f i : Nat) (s : State) : State :=
  match getN (s.fold f).migs i with
  | none => s
  | some m =>
    if m.phase = 7 then releaseMig f i s
    else
      let bare := s.modFold f (fun x => { x with migs := delN x.migs i, sheets := modN x.sheets i (fun e => { e with migrating := false }) })
      match readBack f i bare with
      | none => bare
      | some t =>
        match (if m.target != m.oldTier && s.room f m.target = 0 then none
               else if m.target = 3 && m.phase = 5 then
                 some (freeStorage f ((s.fold f).sheet i) (commitMove f i 3 m.newLoc m.len
                   (t.modNs f (fun x => { x with writes := x.writes.filter (fun o => o.index != some i) }))))
               else moveNow f i m.target m.targetPen t) with
        | some s => s
        | none => abandonMig f i s

/-- One sheet demoted from T2, the first of `l` that can be; a poisoned one is abandoned and counted (18 R453). `ro` says that a read-only
namespace has refused one: if none can, that is the status, else quota (02 R37). -/
def demoteFirst (f : Nat) : List (Nat × Sheet) → Bool → State → Tried State
  | [], ro, s => if ro then .error (stFlashReadOnly, s) else .error (stQuota, refuseQuota f 2 s)
  | (i, _) :: t, ro, s =>
    let s := settleMig f i s
    let e := (s.fold f).sheet i
    if 0 < s.room f 2 then .ok s
    else if e.tier != 2 then demoteFirst f t ro s
    else if s.sheetPoisoned f i then demoteFirst f t ro (s.count rTierMigAbandoned 1)
    else match (demotionTier s f e).bind (fun d => moveNow f i d none s) with
      | some s => .ok s
      | none => demoteFirst f t (ro || (s.spillTier f == 3 && (s.fold f).ns.state == nsReadOnly && decide (0 < s.room f 3))) s

/-- An access that reaches a sheet in T3 or T4 promotes it to T2 first, a T2 sheet making room when the quota is full; a migration under way
commits before. A form that cannot be read back is uncorrectable (02 R37, R49, 12 R314). -/
def promoteSheet (f i : Nat) (s : State) : Tried State :=
  let s := settleMig f i s
  let e := (s.fold f).sheet i
  if e.tier < 3 then .ok s else
  match readBack f i s with
  | none => .error (stPoison, errorUncorrected (some f) 4 e.tier e.kind (s.sheetNo f i) 0 s)
  | some s =>
    andThen (if 0 < s.room f 2 then .ok s else demoteFirst f (lruSheets s f 2) false s) (fun s =>
      match moveNow f i 2 (s.kvPen f i) s with
      | some s => .ok s
      | none => .error (stQuota, refuseQuota f 2 s))

/-- What a write does to a migration under way (02 Table 2-5): a restart, and on the fourth write the migration is abandoned. A write during a
promotion from T2, which has no row of its own, does the same (log entry 148). -/
def writeMeetsMig (f i : Nat) (s : State) : State :=
  match getN (s.fold f).migs i with
  | none => s
  | some m =>
    if m.phase = 7 then s
    else if 3 ≤ m.writes then abandonMig f i s
    else
      let s := s.modFold f (fun x => { x with migs := setN x.migs i { m with writes := m.writes + 1, phase := 2, newLoc := 0 }
                                              ns := if m.target = 3 && m.phase = 5 then
                                                  returnSlot f (m.newLoc / 1280) { x.ns with writes := x.ns.writes.filter (fun o => o.index != some i) }
                                                else x.ns })
      s.count rTierMigRestarted 1

/-- Sheet `i` made ready for an access: promoted if it is in T3 or T4 (R37), its age renewed. An unbacked sheet stays so. -/
def touchSheet (f i : Nat) (s : State) : Tried State :=
  let e := (s.fold f).sheet i
  andThen (if e.tier = 3 || e.tier = 4 then promoteSheet f i s else .ok s) (fun s =>
    .ok (s.modFold f (fun x => { x with sheets := modN x.sheets i (fun e => { e with lastAccess := s.now }) })))

/-- Sheet `i` ready for a write: placed if unbacked, in T2 (02 R33, R36); else touched, its cut copy taken and its migration told. -/
def readyWrite (f i kind : Nat) (s : State) : Tried State :=
  if (s.fold f).backed i then
    andThen (touchSheet f i s) (fun s => .ok (writeMeetsMig f i (captureCopy f i s)))
  else placeSheet f i 2 kind none false false s

/-- `l` written at byte `o` of sheet `i`. -/
def writeSheet (f i o : Nat) (l : List Byte) (s : State) : Tried State :=
  andThen (readyWrite f i 0 s) (fun s => .ok (s.write (s.sheetOffset f i + o) l))

/-- A private copy of sheet `i` (02 R34): its bytes and poison marks in a newly placed sheet of its KIND. -/
def privateCopy (f i : Nat) (s : State) : Tried (Nat × State) :=
  andThen (touchSheet f i s) (fun s =>
    andThen (newSheet f 2 ((s.fold f).sheet i).kind (s.kvPen f i) false false s) (fun r =>
      let o := r.2.sheetOffset f i
      let n := r.2.sheetOffset f r.1
      let s := r.2.write n (r.2.read o 65536)
      .ok (r.1, s.addPoison (((List.range 1024).filter (fun u => s.poisoned (o + 64 * u) 64)).map (n / 64 + ·)))))

/-- One more reference to sheet `i` (02 R34): the sheet now referred to, a private copy where REFS is at its limit. -/
def takeRef (f i : Nat) (s : State) : Tried (Nat × State) :=
  let e := (s.fold f).sheet i
  if e.refs < 65535 then .ok (i, putEntry f i { e with refs := e.refs + 1 } s) else privateCopy f i s

/-! ### Accesses of any length at local offsets -/

/-- The map indices that `n` bytes at sheet-space offset `a` of fold `f` lie in. -/
def spanSheets (s : State) (f a n : Nat) : List Nat :=
  let lo := s.mapIndex f a
  let hi := s.mapIndex f (a + n - 1)
  if n = 0 then [] else (List.range (hi + 1 - lo)).map (lo + ·)

/-- A read of `n` bytes at local offset `a` on behalf of fold `f`, checked and promoted. -/
def readLocal (f a n : Nat) (s : State) : Tried (List Byte × State) :=
  match s.place f a n 0 with
  | .error e => .error (e, s)
  | .ok (.host p) => .ok (s.linkRead p n, s)
  | .ok (.cell a) =>
    if a < 0x300000000000 then
      andThen ((spanSheets s f a n).foldl (fun t i => andThen t (touchSheet f i)) (.ok s)) (fun s => .ok (s.read a n, s))
    else .ok (s.read a n, s)

/-- A write of `l` at local offset `a` on behalf of fold `f`; new sheets of general data in T2. -/
def writeLocal (f a : Nat) (l : List Byte) (s : State) : Tried State :=
  match s.place f a l.length 0 with
  | .error e => .error (e, s)
  | .ok (.host p) => .ok (s.linkWrite p l)
  | .ok (.cell a) =>
    if a < 0x300000000000 then
      andThen ((spanSheets s f a l.length).foldl (fun t i => andThen t (readyWrite f i 0)) (.ok s)) (fun s => .ok (s.write a l))
    else .ok (s.write a l)

/-! ### Requests and migrations as rows (02 R43 to R45) -/

/-- A migration requested: sheet `i` to tier `t`. -/
def requestMove (f i t : Nat) (s : State) : State :=
  s.modFold f (fun x =>
    { x with requests := if x.requests.contains (i, t) then x.requests else x.requests ++ [(i, t)], moveFail := delN x.moveFail i
             quotaOut := delN x.quotaOut i })

/-- Whether sheet `i` moves only for a quota that its tier no longer exceeds (02 R39, R40). -/
def quotaMoveOver (s : State) (f i : Nat) : Bool :=
  match getN (s.fold f).quotaOut i with
  | some t => decide ((s.fold f).use t ≤ s.quota f t)
  | none => false

/-- The migration of sheet `i` stopped, as an abandoned one but not counted: its quota move is over (02 R40). -/
def stopMig (f i : Nat) (s : State) : State :=
  let t := abandonMig f i s
  let s := { t with regs := s.regs }
  s.modFold f (fun x => { x with quotaOut := delN x.quotaOut i })

/-- Sheet `i`'s move failed with `st`; what asked for it finds this. -/
def noteMoveFail (f i : Nat) (st : W16) (s : State) : State := s.modFold f (fun x => { x with moveFail := setN x.moveFail i st })

/-- MIGRATION_START (02 R43 steps 1 to 4): the first request for the sheet begins; one under way makes it wait. A demotion to T3
or T4 of a sheet that holds poison is abandoned (18 R453). -/
def execMigrationStart (f i : Nat) (s : State) : Host.Outcome State Fault Refusal :=
  .next (serve s fun s =>
    match (s.fold f).requests.find? (fun r => r.1 == i) with
    | none => s
    | some r =>
      let e := (s.fold f).sheet i
      if e.migrating || hasN (s.fold f).migs i then s else
      let s := s.modFold f (fun x => { x with requests := dropFirst r x.requests })
      if quotaMoveOver s f i then s.modFold f (fun x => { x with quotaOut := delN x.quotaOut i })
      else if !(s.fold f).backed i || e.tier = r.2 || e.wet then s
      else if 3 ≤ r.2 && s.sheetPoisoned f i then noteMoveFail f i stPoison (s.count rTierMigAbandoned 1)
      else s.modFold f (fun x =>
        { x with
          sheets := modN x.sheets i (fun e => { e with migrating := true })
          migs := setN x.migs i { phase := 2, target := r.2, targetPen := s.kvPen f i, writes := 0, newLoc := 0, oldTier := e.tier,
                                  oldLoc := e.loc, len := 1024 } }))

/-- FLASH_WRITE (12 R312, R318, 02 R43 step 5): the form of a migration into T3 written to the lowest free slot. -/
def execFlashWrite (f i : Nat) (s : State) : Host.Outcome State Fault Refusal :=
  .next (serve s fun s =>
    match getN (s.fold f).migs i with
    | none => s
    | some m =>
      if m.target != 3 || 5 ≤ m.phase then s
      else if quotaMoveOver s f i then stopMig f i s
      else if s.room f 3 = 0 && m.oldTier != 3 then noteMoveFail f i stQuota (abandonMig f i (refuseQuota f 3 s))
      else if (s.fold f).ns.state = nsReadOnly then noteMoveFail f i stFlashReadOnly (abandonMig f i s)
      else if (s.fold f).ns.state != nsNormal then s
      else
        let content := s.read (s.sheetOffset f i) 65536
        let len := s.lenIn f 3 ((s.fold f).sheet i) content
        match storeForm s f len (some i) with
        | none => s
        | some (s, k) => s.modFold f (fun x => { x with migs := setN x.migs i { m with phase := 5, newLoc := k * 1280, len := len } }))

/-- How a written migration commits: a T3 form once durable, another tier at a free location with room in its quota. -/
def commitMig (f i : Nat) (m : Mig) (s : State) : State :=
  let done (loc len : Nat) (s : State) : State :=
    (commitMove f i m.target loc len s).modFold f (fun x => { x with migs := setN x.migs i { m with phase := 7 }, quotaOut := delN x.quotaOut i })
  if m.target = 3 && (m.phase != 5 || (s.fold f).ns.writes.any (fun o => o.index == some i)) then s
  else if quotaMoveOver s f i then stopMig f i s
  else if s.room f m.target = 0 && m.oldTier != m.target then noteMoveFail f i stQuota (abandonMig f i (refuseQuota f m.target s))
  else if m.target = 3 then done m.newLoc m.len s
  else
    match chooseLoc f m.target m.targetPen s with
    | none => noteMoveFail f i stQuota (abandonMig f i (refuseQuota f m.target s))
    | some (l, s) =>
      let content := s.read (s.sheetOffset f i) 65536
      done l (s.lenIn f m.target ((s.fold f).sheet i) content) s

/-- A form that cannot be read back ends its migration: an uncorrectable error of the sheet, which stays where it is (02 R49). -/
def migUnreadable (f i : Nat) (m : Mig) (s : State) : State :=
  let s := errorUncorrected (some f) 4 m.oldTier ((s.fold f).sheet i).kind (s.sheetNo f i) 0 s
  noteMoveFail f i stPoison
    (s.modFold f (fun x => { x with migs := delN x.migs i, sheets := modN x.sheets i (fun e => { e with migrating := false }) }))

/-- MIGRATION_COMMIT (02 R43 to R45, R49): the data path's end and the commit, or what a failure leaves. -/
def execMigrationCommit (f i : Nat) (r : MigEnd) (s : State) : Host.Outcome State Fault Refusal :=
  .next (serve s fun s =>
    match getN (s.fold f).migs i with
    | none => s
    | some m =>
      if m.phase = 7 then s else
      match r with
      | .written => match readBack f i s with
        | some s => commitMig f i m s
        | none => migUnreadable f i m s
      | .sourcePoisoned => if 3 ≤ m.target then abandonMig f i s else commitMig f i m s
      | .badForm =>
        if m.oldTier = 3 || m.oldTier = 4 then migUnreadable f i m s else s
      | .writeFailed => abandonMig f i s
      | .readOnly => if m.target = 3 then noteMoveFail f i stFlashReadOnly (abandonMig f i s) else s)

/-- MIGRATION_RELEASE (02 R43 step 7): the old location returns to the free pool. -/
def execMigrationRelease (f i : Nat) (s : State) : Host.Outcome State Fault Refusal :=
  .next (serve s (releaseMig f i))

/-! ### QUOTA_SET (02 R39, R40) -/

/-- Where a sheet leaves a tier that is above its quota (02 R39), room already spoken for left aside. -/
def quotaExit (s : State) (f t : Nat) (e : Sheet) : Option Nat :=
  let ok (u : Nat) : Bool := decide (0 < s.roomLeft f u) && !(u == 4 && e.tile.isSome)
  let sp := s.spillTier f
  if t = 2 then (if ok sp then some sp else if ok (7 - sp) then some (7 - sp) else none)
  else if t = 3 then (if e.tile.isSome then (if ok 2 then some 2 else none) else if ok 4 then some 4 else none)
  else (if ok 3 then some 3 else if ok 2 then some 2 else none)

/-- The moves out of tier `t` that bring use down to the quota, least recently accessed first; the flag says that a sheet had nowhere to go. -/
def quotaMoves (f t : Nat) : Nat → List (Nat × Sheet) → Bool → State → State × Bool
  | 0, _, stuck, s => (s, stuck)
  | _ + 1, [], _, s => (s, true)
  | n + 1, p :: l, stuck, s =>
    if (s.fold f).requests.any (fun r => r.1 == p.1 && r.2 != t) || (getN (s.fold f).migs p.1).any (fun m => m.target != t && m.phase != 7) then
      quotaMoves f t n l stuck s else
    match quotaExit s f t p.2 with
    | some u => quotaMoves f t n l stuck ((requestMove f p.1 u s).modFold f (fun x => { x with quotaOut := setN x.quotaOut p.1 t }))
    | none => quotaMoves f t n l true s

/-- Use of tier `t` brought down to its quota (02 R39): an event where that cannot be. -/
def reduceTier (f t : Nat) (s : State) : State :=
  let r := quotaMoves f t ((s.fold f).use t - s.quota f t) (lruSheets s f t) false s
  if r.2 then refuseQuota f t r.1 else r.1

/-- The quota moves out of tier `t` dropped: those not yet begun, and those under way once use is within the quota (02 R40). -/
def dropQuotaMoves (f t : Nat) (s : State) : State :=
  let out := ((s.fold f).quotaOut.filter (fun p => p.2 == t)).map (·.1)
  let s := s.modFold f (fun x => { x with requests := x.requests.filter (fun r => !out.contains r.1)
                                          quotaOut := x.quotaOut.filter (fun p => p.2 != t || hasN x.migs p.1) })
  out.foldl (fun s i => if quotaMoveOver s f i then stopMig f i s else s) s

/-- QUOTA_SET (02 R40). -/
def execQuotaSet (d : Desc) (s : State) : Host.Outcome State Fault Refusal :=
  .next (serve s (descriptor opQuotaSet (bodyReserved d [(16, 17), (20, 23)]) false d fun s =>
    let f := descByte d 16
    let t := descByte d 17
    let q := descNum d 20 4
    if !s.formed f || t < 2 || 4 < t then .error (stBadDescriptor, s)
    else if s.quotaBound f t < q then .error (stBadDescriptor, s)
    else
      let s := dropQuotaMoves f t (s.modFold f (fun x => { x with quota := setN x.quota t q }))
      let s := complete opQuotaSet d stOk 0 (leBytes 4 q ++ leBytes 4 ((s.fold f).use t)) s
      .ok (reduceTier f t s)))

end Sys2Proof.Machine
end

