-- ==== Sys2Proof/Machine/Recall.lean ====
section
/-! DEFINITION. The Recall engine (11): the index area, the ID map, inserts and deletes, the beam walk of a query, and the merge. -/
namespace Sys2Proof.Machine

/-! ### The index area (11 R283 to R287) -/

/-- An enabled index: its fold, DIM code, CAP, and the local offset of its area. -/
structure Index where
  fold : Nat
  dim : Nat
  cap : Nat
  base : Nat

/-- The index of fold `f`, if enabled. -/
def State.index (s : State) (f : Nat) : Option Index :=
  let c := s.act (rRclConfig f)
  if bitOf c 8 then some ⟨f, bitsOf c 1 0, s.act (rRclCap f), s.act (rRclBase f)⟩ else none

/-- The empty node slot number, and the first LOC of a side ring position (R286, R287). -/
def noSlot : Nat := 0xFFFFFFFF
def sideLoc : Nat := 0xFFF00000
def sideRing : Nat := 1048576

/-- Local offsets of map entry `e`, of side entry `c` and of node `n` (Table 11-1). -/
def Index.mapAt (x : Index) (e : Nat) : Nat := x.base + 65536 + e * 8
def Index.sideAt (x : Index) (c : Nat) : Nat :=
  let per := 65536 / rclSideSize x.dim
  x.base + (1 + rclMapSheets x.cap + c % sideRing / per) * 65536 + c % sideRing % per * rclSideSize x.dim
def Index.nodeAt (x : Index) (n : Nat) : Nat :=
  let per := 65536 / rclNodeSize x.dim
  x.base + (1 + rclMapSheets x.cap + rclSideSheets x.dim + n / per) * 65536 + n % per * rclNodeSize x.dim

/-- Header fields (Table 11-3). -/
def State.ixSeq (s : State) (x : Index) : Nat := s.num (x.base + 8) 6
def State.ixFloor (s : State) (x : Index) : Nat := s.num (x.base + 16) 6
def State.ixGen (s : State) (x : Index) : Nat := s.num (x.base + 24) 8
def State.ixHigh (s : State) (x : Index) : Nat := s.num (x.base + 32) 4
def State.ixFree (s : State) (x : Index) : Nat := s.num (x.base + 36) 4
def State.ixSideStart (s : State) (x : Index) : Nat := s.num (x.base + 40) 4
def State.ixSideEnd (s : State) (x : Index) : Nat := s.num (x.base + 44) 4
def State.ixLive (s : State) (x : Index) : Nat := s.num (x.base + 48) 4
def State.ixTombs (s : State) (x : Index) : Nat := s.num (x.base + 52) 4
def State.ixEntries (s : State) (x : Index) : List Nat :=
  (List.range (min 8 (s.num (x.base + 56) 1))).map (fun k => s.num (x.base + 64 + 4 * k) 4)

/-- Header bytes o … o + n − 1 set to `v`. -/
def setHeader (x : Index) (o n v : Nat) (s : State) : State := s.write (x.base + o) (leBytes n v)

/-- The side length from count `a` to count `b`, modulo 2^32 (R285). -/
def sideSpan (a b : Nat) : Nat := (b + 2 ^ 32 - a) % 2 ^ 32

/-- A fresh header: SEQ 0, an empty free list, no entry point (R283). -/
def freshHeader (dim cap : Nat) : List Byte :=
  padTo 65536 ([0x52, 0x43, 0x4C, 0x31] ++ leBytes 1 dim ++ leBytes 1 (rclMapBits cap) ++ zerosB 30 ++ leBytes 4 noSlot)

/-- Fields of the node or side entry at `a` (Table 11-4). -/
def State.recId (s : State) (a : Nat) : Nat := s.num a 4
def State.recGroup (s : State) (a : Nat) : Nat := s.num (a + 4) 4
def State.recIns (s : State) (a : Nat) : Nat := s.num (a + 8) 6
def State.recDel (s : State) (a : Nat) : Nat := s.num (a + 14) 6
def State.nodeFree (s : State) (x : Index) (n : Nat) : Bool := bitOf (s.num (x.nodeAt n + 21) 1) 0
def State.nodeEdges (s : State) (x : Index) (n : Nat) : List Nat :=
  (List.range (min 64 (s.num (x.nodeAt n + 20) 1))).map (fun k => s.num (x.nodeAt n + 32 + 4 * k) 4)
def State.nodeVec (s : State) (x : Index) (n : Nat) : List Byte := s.read (x.nodeAt n + 288) (rclV x.dim)
def State.sideVec (s : State) (x : Index) (c : Nat) : List Byte := s.read (x.sideAt c + 32) (rclV x.dim)

/-- Whether the record at `a` is dead under M_SEQ `m` (R297, R298). -/
def State.dead (s : State) (m a : Nat) : Bool := s.recDel a != 0 && decide (s.recDel a ≤ m)

/-- The distance of two vectors (R288). -/
def hamming (v w : List Byte) : Nat := sumOn (fun p : Byte × Byte => popc 8 (p.1 ^^^ p.2).toNat) (v.zip w)

/-! ### Accesses: promoted first, poison refused (R295, R303, 18 Table 18-2) -/

/-- The sheet of offset `a` ready to read; a poisoned unit among the `n` bytes ends the query or change. -/
def touchIndex (x : Index) (a n : Nat) (s : State) : Tried State :=
  andThen (if (s.fold x.fold).backed (s.mapIndex x.fold a) then touchSheet x.fold (s.mapIndex x.fold a) s else .ok s) (fun s =>
    if s.poisoned a n then .error (stPoison, s) else .ok s)

/-- The header ready. -/
def touchHeader (x : Index) (s : State) : Tried State := touchIndex x x.base 96 s

/-- The nodes of a list ready. -/
def touchNodes (x : Index) (l : List Nat) (s : State) : Tried State :=
  l.foldl (fun t n => andThen t (touchIndex x (x.nodeAt n) (rclNodeSize x.dim))) (.ok s)

/-- The side entries of a list ready. -/
def touchSides (x : Index) (l : List Nat) (s : State) : Tried State :=
  l.foldl (fun t c => andThen t (touchIndex x (x.sideAt c) (rclSideSize x.dim))) (.ok s)

/-- The sheet of offset `a` ready for a write, a new one with KIND 5. -/
def readyIndex (x : Index) (a : Nat) (s : State) : Tried State := readyWrite x.fold (s.mapIndex x.fold a) 5 s

/-! ### The ID map (R287) -/

/-- The map entry where the search for `id` starts. -/
def Index.hash (x : Index) (id : Nat) : Nat := id * 0x9E3779B97F4A7C15 % 2 ^ 64 / 2 ^ (64 - rclMapBits x.cap)

/-- Map entry `e`: ID and LOC; one in a sheet never written is empty (log entry 50). -/
def State.mapEntry (s : State) (x : Index) (e : Nat) : Nat × Nat :=
  if (s.fold x.fold).backed (s.mapIndex x.fold (x.mapAt e)) then (s.num (x.mapAt e) 4, s.num (x.mapAt e + 4) 4) else (noSlot, 0)

/-- The search from entry `e`: the entry for `id`, and the first removed or empty entry on the path. -/
def mapSearch (s : State) (x : Index) (id : Nat) : Nat → Nat → Option Nat → Option Nat × Option Nat
  | 0, _, spare => (none, spare)
  | fuel + 1, e, spare =>
    let e := e % 2 ^ rclMapBits x.cap
    let v := s.mapEntry x e
    if v.1 = id then (some e, spare)
    else if v.1 = noSlot then
      if v.2 = 0 then (none, some (spare.getD e)) else mapSearch s x id fuel (e + 1) (some (spare.getD e))
    else mapSearch s x id fuel (e + 1) spare

/-- The search for `id`. -/
def State.mapFind (s : State) (x : Index) (id : Nat) : Option Nat × Option Nat := mapSearch s x id (2 ^ rclMapBits x.cap) (x.hash id) none

/-- LOC of the item `id`. -/
def State.locOf (s : State) (x : Index) (id : Nat) : Option Nat := (s.mapFind x id).1.map (fun e => (s.mapEntry x e).2)

/-- Offset of the record a LOC names. -/
def Index.locAt (x : Index) (loc : Nat) : Nat := if loc < sideLoc then x.nodeAt loc else x.sideAt (loc - sideLoc)

/-- The record of a live item. -/
def State.liveRecord (s : State) (x : Index) (id : Nat) : Option Nat :=
  match s.locOf x id with
  | some loc => if s.recDel (x.locAt loc) = 0 then some loc else none
  | none => none

/-- Map entry `e` written, a sheet never written filled with empty entries first. -/
def writeMap (x : Index) (e id loc : Nat) (s : State) : Tried State :=
  let i := s.mapIndex x.fold (x.mapAt e)
  let fresh := !(s.fold x.fold).backed i
  andThen (readyIndex x (x.mapAt e) s) (fun s =>
    let s := if fresh then s.write (s.sheetOffset x.fold i) ((List.range 8192).flatMap (fun _ => leBytes 4 noSlot ++ zerosB 4)) else s
    .ok (s.write (x.mapAt e) (leBytes 4 id ++ leBytes 4 loc)))

/-- The item `id` mapped to `loc`: its own entry, or the first spare one (none left: unmapped, log entry 50). -/
def mapPut (x : Index) (id loc : Nat) (s : State) : Tried State :=
  match s.mapFind x id with
  | (some e, _) => writeMap x e id loc s
  | (none, some e) => writeMap x e id loc s
  | (none, none) => .ok s

/-- The entry of `id` changed to `loc`, or removed, if it names `old`. -/
def mapMove (x : Index) (id old : Nat) (loc : Option Nat) (s : State) : Tried State :=
  match (s.mapFind x id).1 with
  | some e =>
    if (s.mapEntry x e).2 = old then
      (match loc with
       | some l => writeMap x e id l s
       | none => writeMap x e noSlot 1 s)
    else .ok s
  | none => .ok s

/-! ### RECALL_INSERT (R292) -/

/-- The first record of a batch whose ID is reserved, repeated or live. -/
def badRecord (s : State) (x : Index) (ids : List Nat) : Option Nat :=
  (List.range ids.length).find? (fun k =>
    let i := ids.getD k 0
    i == noSlot || (ids.take k).contains i || (s.liveRecord x i).isSome)

/-- The length of the free list from slot `n`. -/
def slotsFree (s : State) (x : Index) : Nat → Nat → Nat
  | 0, _ => 0
  | fuel + 1, n => if n = noSlot then 0 else slotsFree s x fuel (s.num (x.nodeAt n + 32) 4) + 1

/-- Node slots in use. -/
def State.ixUsed (s : State) (x : Index) : Nat := s.ixHigh x - slotsFree s x (s.ixHigh x) (s.ixFree x)

/-- The bytes of a node or side entry up to EDGES or VECTOR. -/
def recordHead (id group ins del degree : Nat) : List Byte :=
  leBytes 4 id ++ leBytes 4 group ++ leBytes 6 ins ++ leBytes 6 del ++ leBytes 1 degree ++ zerosB 11

/-- One record appended at SIDE_END with the next sequence number, and its map entry. -/
def appendSide (x : Index) (id group : Nat) (vec : List Byte) (s : State) : Tried State :=
  let c := s.ixSideEnd x
  let q := s.ixSeq x + 1
  andThen (readyIndex x (x.sideAt c) s) (fun s =>
    let s := s.write (x.sideAt c) (recordHead id group q 0 0 ++ padTo (rclSideSize x.dim - 32) vec)
    let s := setHeader x 8 6 q (setHeader x 44 4 ((c + 1) % 2 ^ 32) (setHeader x 48 4 (s.ixLive x + 1) s))
    mapPut x id (sideLoc + c % sideRing) s)

/-- The SPECIFIC bytes of an insert or a delete (Table 11-6). -/
def changeSpecific (s : State) (x : Index) (n : Nat) : List Byte := leBytes 4 n ++ leBytes 6 (s.ixSeq x) ++ [0]

/-- The checks 2 to 6 of R292 and the append, for the batch's bytes. -/
def insertBatch (d : Desc) (x : Index) (n : Nat) (data : List Byte) (s : State) : State :=
  let v := rclV x.dim
  let recs := (List.range n).map (fun k => (leAt data (k * (8 + v)) 4, leAt data (k * (8 + v) + 4) 4, sliceB data (k * (8 + v) + 8) v))
  let side := sideSpan (s.ixSideStart x) (s.ixSideEnd x)
  let refuse (st : W16) (k : Nat) (s : State) : State := complete opRecallInsert d st 0 (changeSpecific s x k) s
  match badRecord s x (recs.map (·.1)) with
  | some k => refuse stBadDescriptor k s
  | none =>
    if sideRing < side + n then refuse stLength 0 s
    else if min (x.cap + sideRing) 4294967295 < s.ixUsed x + side + n then refuse stQuota 0 s
    else
      match recs.foldl (fun t r => andThen t (appendSide x r.1 r.2.1 r.2.2)) (.ok s) with
      | .error e => if e.1 = stQuota then refuse stQuota 0 (refuseQuota x.fold 2 s) else refuse e.1 0 { e.2 with mem := s.mem }
      | .ok s' =>
        if 2 ^ 48 - 1 < s.ixSeq x + n then refuse stLength 0 s
        else complete opRecallInsert d stOk 0 (changeSpecific s' x n) s'

/-- A change's COUNT and its data, read from SRC_ADDR in units of `unit` bytes. -/
def changeBody (d : Desc) (op unit : Nat) (x : Index) (f : Nat) (run : Nat → List Byte → State → State) (s : State) : Tried State :=
  let n := descNum d 24 4
  if n = 0 || 65536 < n then .ok (complete op d stBadDescriptor 0 (changeSpecific s x 0) s)
  else andThen (touchHeader x s) (fun s => andThen (readLocal f (descNum d 16 6) (n * unit) s) (fun r => .ok (run n r.1 r.2)))

/-- RECALL_INSERT (R291, R292). -/
def execRecallInsert (d : Desc) (s : State) : Host.Outcome State Fault Refusal :=
  .next (serve s (descriptor opRecallInsert (bodyReserved d [(16, 21), (24, 27)]) false d fun s =>
    let f := s.descFold d
    match s.index f with
    | none => .error (stBadDescriptor, s)
    | some x => changeBody d opRecallInsert (8 + rclV x.dim) x f (insertBatch d x) s))

/-! ### RECALL_DELETE (R293) -/

/-- One ID deleted if it is live: how many, and the state. -/
def deleteOne (x : Index) (id : Nat) (r : Nat × State) : Tried (Nat × State) :=
  let s := r.2
  match s.liveRecord x id with
  | none => .ok r
  | some loc =>
    andThen (touchIndex x (x.locAt loc) 32 s) (fun s => andThen (readyIndex x (x.locAt loc) s) (fun s =>
      let q := s.ixSeq x + 1
      let s := setHeader x 8 6 q (setHeader x 48 4 (s.ixLive x - 1) (s.write (x.locAt loc + 14) (leBytes 6 q)))
      .ok (r.1 + 1, if loc < sideLoc then setHeader x 52 4 (s.ixTombs x + 1) s else s)))

/-- The items of a list deleted in its order. -/
def deleteBatch (d : Desc) (x : Index) (n : Nat) (data : List Byte) (s : State) : State :=
  let ids := (List.range n).map (fun k => leAt data (4 * k) 4)
  let refuse (st : W16) (s : State) : State := complete opRecallDelete d st 0 (changeSpecific s x 0) s
  if ids.contains noSlot then refuse stBadDescriptor s
  else
    match ids.foldl (fun t i => andThen t (deleteOne x i)) (.ok (0, s)) with
    | .error e => refuse e.1 { e.2 with mem := s.mem }
    | .ok (k, s') =>
      if 2 ^ 48 - 1 < s.ixSeq x + k then refuse stLength s else complete opRecallDelete d stOk 0 (changeSpecific s' x k) s'

/-- RECALL_DELETE (R291, R293). -/
def execRecallDelete (d : Desc) (s : State) : Host.Outcome State Fault Refusal :=
  .next (serve s (descriptor opRecallDelete (bodyReserved d [(16, 21), (24, 27)]) false d fun s =>
    let f := s.descFold d
    match s.index f with
    | none => .error (stBadDescriptor, s)
    | some x => changeBody d opRecallDelete 4 x f (deleteBatch d x) s))

/-! ### The walk (R295) -/

/-- A walk's parameters: vector, W, K, S and FILTER. -/
structure WalkQuery where
  vec : List Byte
  w : Nat
  k : Nat
  at_ : Nat
  filter : Nat

/-- A walk: the queue Q as (key, expanded), the slots seen in order, the results R as (d, ID, from the side list), expansions. -/
structure Walk where
  st : State
  q : List (Nat × Bool)
  seen : List Nat
  hits : List (Nat × Nat × Bool)
  n : Nat

/-- The key (d, ID, slot) as one number. -/
def nodeKey (d id slot : Nat) : Nat := (d * 2 ^ 32 + id) * 2 ^ 32 + slot

/-- Whether the record at `a` is eligible (R290). -/
def State.eligible (s : State) (q : WalkQuery) (a : Nat) : Bool :=
  decide (s.recIns a ≤ q.at_) && (s.recDel a == 0 || decide (q.at_ < s.recDel a)) && (q.filter == noSlot || s.recGroup a == q.filter)

/-- A record offered to R: the K least by (d, ID). -/
def offer (q : WalkQuery) (h : Nat × Nat × Bool) (l : List (Nat × Nat × Bool)) : List (Nat × Nat × Bool) :=
  (insertBy (fun a b => decide (a.1 < b.1) || (a.1 == b.1 && decide (a.2.1 ≤ b.2.1))) h l).take q.k

/-- evaluate(x) of R295. -/
def evaluate (x : Index) (q : WalkQuery) (w : Walk) (n : Nat) : Tried Walk :=
  andThen (touchNodes x [n] w.st) (fun s =>
    let a := x.nodeAt n
    let d := hamming q.vec (s.nodeVec x n)
    let key := nodeKey d (s.recId a) n
    .ok { w with
      st := s
      seen := w.seen ++ [n]
      q := (insertBy (fun a b => decide (a.1 ≤ b.1)) (key, false) w.q).take q.w
      hits := if s.eligible q a then offer q (d, s.recId a, false) w.hits else w.hits })

/-- The nodes of a list evaluated in order, those seen passed over. -/
def evaluateAll (x : Index) (q : WalkQuery) (l : List Nat) (w : Walk) : Tried Walk :=
  l.foldl (fun t n => andThen t (fun w => if w.seen.contains n then .ok w else evaluate x q w n)) (.ok w)

/-- The while loop of R295, at most `fuel` expansions. -/
def expandLoop (x : Index) (q : WalkQuery) : Nat → Walk → Tried Walk
  | 0, w => .ok w
  | fuel + 1, w =>
    match w.q.find? (fun e => !e.2) with
    | none => .ok w
    | some c =>
      let w := { w with q := w.q.map (fun e => if e.1 = c.1 then (e.1, true) else e), n := w.n + 1 }
      andThen (evaluateAll x q (w.st.nodeEdges x (c.1 % 2 ^ 32)) w) (expandLoop x q fuel)

/-- The walk from the entry points. -/
def walk (x : Index) (q : WalkQuery) (fuel : Nat) (s : State) : Tried Walk :=
  andThen (evaluateAll x q (s.ixEntries x) ⟨s, [], [], [], 0⟩) (expandLoop x q fuel)

/-- The side scan from SIDE_START to E0. -/
def sideScan (x : Index) (q : WalkQuery) (w : Walk) : Tried Walk :=
  let a := w.st.ixSideStart x
  let l := (List.range (sideSpan a (w.st.ixSideEnd x))).map (a + ·)
  andThen (touchSides x l w.st) (fun s =>
    .ok { w with
      st := s
      hits := l.foldl (fun h c =>
        if s.eligible q (x.sideAt c) then offer q (hamming q.vec (s.sideVec x c), s.recId (x.sideAt c), true) h else h) w.hits })

/-! ### Queries (R294, R296) -/

/-- EXPAND of a query. -/
def queryExpand (s : State) (f : Nat) (d : Desc) : Nat :=
  if descNum d 42 2 = 0 then bitsOf (s.act (rRclQuery f)) 28 16 else descNum d 42 2

/-- The body's values in their ranges (Table 11-5). -/
def queryRanges (d : Desc) : Bool :=
  let w := descNum d 30 2
  decide (1 ≤ w) && decide (w ≤ 256) && decide (1 ≤ descNum d 22 2) && decide (descNum d 22 2 ≤ w) && decide (descNum d 42 2 ≤ 4096) &&
    decide (descNum d 16 6 < 0x380000000000)

/-- RECALL_QUERY (R294): checked and queued for admission. -/
def execRecallQuery (d : Desc) (s : State) : Host.Outcome State Fault Refusal :=
  .next (serve s (descriptor opRecallQuery (bodyReserved d [(16, 43)]) false d fun s =>
    let f := s.descFold d
    if (s.index f).isNone || !queryRanges d then .error (stBadDescriptor, s)
    else .ok (s.modFold f (fun x => { x with rcl := { x.rcl with waiting := x.rcl.waiting ++ [d] } }))))

/-- The result entries (R296). -/
def resultBytes (l : List (Nat × Nat × Bool)) : List Byte :=
  l.flatMap (fun h => leBytes 4 h.2.1 ++ leBytes 2 h.1 ++ leBytes 1 (b2n h.2.2) ++ [0])

/-- An admitted query run: S and E0 fixed, the walk, the side scan, the results (R290, R295, R296). -/
def runQuery (f : Nat) (d : Desc) (s : State) : Tried State :=
  match s.index f with
  | none => .error (stBadDescriptor, s)
  | some x =>
    andThen (touchHeader x s) (fun s =>
      let at_ := descNum d 36 6
      let k := descNum d 22 2
      if s.ixSeq x < at_ then .error (stBadDescriptor, s)
      else if at_ != 0 && decide (at_ < s.ixFloor x) then .error (stLength, s)
      else
        match s.place f (descNum d 24 6) (k * 8) 0 with
        | .error e => .error (e, s)
        | .ok _ =>
          let S := if at_ = 0 then s.ixSeq x else at_
          andThen (readLocal f (descNum d 16 6) (rclV x.dim) s) (fun r =>
            let q : WalkQuery := ⟨r.1, descNum d 30 2, k, S, descNum d 32 4⟩
            andThen (walk x q (queryExpand s f d) r.2) (fun w => andThen (sideScan x q w) (fun w =>
              let cut := w.q.any (fun e => !e.2)
              let s := (w.st.count (rRclQueries f) 1).count (rRclExpansions f) w.n
              let s := if cut then s.count (rRclTruncated f) 1 else s
              andThen (if w.hits.isEmpty then .ok s else writeLocal f (descNum d 24 6) (resultBytes w.hits) s) (fun s =>
                .ok (complete opRecallQuery d stOk 0 (leBytes 2 w.hits.length ++ leBytes 1 (b2n cut) ++ [0] ++ leBytes 6 S ++ [0]) s))))))

/-- The query at the head of the queue admitted, run and completed. -/
def admitQuery (f : Nat) (s : State) : State :=
  match (s.fold f).rcl.waiting with
  | [] => s
  | d :: t =>
    if bitsOf (s.act (rRclQuery f)) 7 0 = 0 then s else
    let s := s.modFold f (fun x => { x with rcl := { x.rcl with waiting := t } })
    match runQuery f d s with
    | .ok s => s
    | .error e => complete opRecallQuery d e.1 0 [] e.2

/-- The pending queries admitted in fetch order at a step's start, one for each query slot (R294). -/
def admitQueries (f : Nat) (s : State) : State :=
  (List.range (min (bitsOf (s.act (rRclQuery f)) 7 0) (s.fold f).rcl.waiting.length)).foldl (fun s _ => admitQuery f s) s

/-- QUERY_ADMIT (R294): on a fold with no ACTIVE sequence; with one, its next step's start admits. -/
def execQueryAdmit (f : Nat) (s : State) : Host.Outcome State Fault Refusal :=
  .next (serve s fun s => onlyIf (s.formed f && (s.fold f).seqs.all (fun p => p.2.phase == 0)) s (admitQuery f s))

/-! ### The merge (R297 to R300) -/

/-- The candidates kept and skipped by the neighbour selection. -/
def selectSplit (s : State) (x : Index) (v : List Byte) (l : List Nat) : List Nat × List Nat :=
  l.foldl (fun (r : List Nat × List Nat) c =>
    let dx := hamming v (s.nodeVec x c)
    if r.1.any (fun e => decide (hamming (s.nodeVec x c) (s.nodeVec x e) < dx)) then (r.1, r.2 ++ [c]) else (r.1 ++ [c], r.2)) ([], [])

/-- select(x, C, k) of R298, for a vector. -/
def selectEdges (s : State) (x : Index) (v : List Byte) (l : List Nat) (k : Nat) : List Nat :=
  let key (c : Nat) : Nat := nodeKey (hamming v (s.nodeVec x c)) (s.recId (x.nodeAt c)) c
  let r := selectSplit s x v (sortBy (fun a b => decide (key a ≤ key b)) l)
  (r.1 ++ r.2).take k

/-- The edges of node `n` written. -/
def setEdges (x : Index) (n : Nat) (l : List Nat) (s : State) : Tried State :=
  andThen (readyIndex x (x.nodeAt n) s) (fun s =>
    .ok ((s.write (x.nodeAt n + 20) (leBytes 1 l.length)).write (x.nodeAt n + 32)
      ((List.range 64).flatMap (fun k => leBytes 4 (l.getD k noSlot)))))

/-- Node `n` added to the edges of node `m`. -/
def addEdge (x : Index) (deg n m : Nat) (s : State) : Tried State :=
  let l := s.nodeEdges x m ++ [n]
  andThen (touchNodes x (m :: l) s) (fun s => setEdges x m (if 64 < l.length then selectEdges s x (s.nodeVec x m) l deg else l) s)

/-- The slot the next node takes: FREE_HEAD, or NODE_HIGH when the free list is empty; none when every slot is in use. -/
def State.nextSlot (s : State) (x : Index) : Option Nat :=
  if s.ixFree x != noSlot then some (s.ixFree x) else if s.ixHigh x < x.cap then some (s.ixHigh x) else none

/-- Slot `n` taken out of the free list or from NODE_HIGH. -/
def takeSlot (x : Index) (n : Nat) (s : State) : State :=
  if s.ixFree x != noSlot then setHeader x 36 4 (s.num (x.nodeAt n + 32) 4) s else setHeader x 32 4 (n + 1) s

/-- FLOOR_SEQ raised to the DEL_SEQ of an item that is removed. -/
def raiseFloor (x : Index) (q : Nat) (s : State) : State := if s.ixFloor x < q then setHeader x 16 6 q s else s

/-- SIDE_START past one entry. -/
def passSide (x : Index) (s : State) : State := setHeader x 40 4 ((s.ixSideStart x + 1) % 2 ^ 32) s

/-- Side entry `c` placed in slot `n` (R298). -/
def placeNode (x : Index) (m c n : Nat) (s : State) : Tried State :=
  let a := x.sideAt c
  let deg := bitsOf (s.act (rRclBuild x.fold)) 6 0
  let q : WalkQuery := ⟨s.sideVec x c, bitsOf (s.act (rRclBuild x.fold)) 24 16, 0, 0, 0⟩
  andThen (walk x q (s.ixHigh x + 1) s) (fun w =>
    let s := w.st
    let edges := selectEdges s x q.vec (w.seen.filter (fun e => !s.dead m (x.nodeAt e))) deg
    andThen (readyIndex x (x.nodeAt n) s) (fun s =>
      let s := takeSlot x n s
      let s := s.write (x.nodeAt n) (recordHead (s.recId a) (s.recGroup a) (s.recIns a) (s.recDel a) edges.length ++
        (List.range 64).flatMap (fun k => leBytes 4 (edges.getD k noSlot)) ++ padTo (rclNodeSize x.dim - 288) q.vec)
      let s := if s.recDel a = 0 then s else setHeader x 52 4 (s.ixTombs x + 1) s
      andThen (edges.foldl (fun t e => andThen t (addEdge x deg n e)) (.ok s)) (fun s =>
        mapMove x (s.recId a) (sideLoc + c % sideRing) (some n) (passSide x s))))

/-- A side entry dropped without being placed (R297). -/
def dropSide (x : Index) (c : Nat) (s : State) : Tried State :=
  let a := x.sideAt c
  mapMove x (s.recId a) (sideLoc + c % sideRing) none (passSide x (raiseFloor x (s.recDel a) s))

/-- The placement round: at most `n` entries in ring order, until no slot (or no room for its sheet) is left. The entries passed, those
placed, whether the slots ran out. -/
def placeRound (x : Index) (m : Nat) : Nat → Nat × Nat × Bool × State → Tried (Nat × Nat × Bool × State)
  | 0, r => .ok r
  | fuel + 1, (passed, placed, _, s) =>
    let c := s.ixSideStart x
    andThen (touchSides x [c] s) (fun s =>
      if s.dead m (x.sideAt c) then andThen (dropSide x c s) (fun s => placeRound x m fuel (passed + 1, placed, false, s))
      else match s.nextSlot x with
        | none => .ok (passed, placed, true, s)
        | some n => match placeNode x m c n s with
          | .ok s => placeRound x m fuel (passed + 1, placed + 1, false, s)
          | .error e => if e.1 = stQuota then .ok (passed, placed, true, s) else .error e)

/-- The tombstones of the next repair round (R299). -/
def deadNodes (s : State) (x : Index) (m : Nat) : List Nat :=
  ((List.range (s.ixHigh x)).filter (fun n => !s.nodeFree x n && s.dead m (x.nodeAt n))).take 256

/-- Node `n`'s edges to the nodes of the round replaced (R299). -/
def repairNode (x : Index) (round : List Nat) (n : Nat) (s : State) : Tried State :=
  let es := s.nodeEdges x n
  if s.nodeFree x n || round.contains n || !es.any round.contains then .ok s else
  let deg := bitsOf (s.act (rRclBuild x.fold)) 6 0
  let far := (es.filter round.contains).flatMap (fun t => (s.nodeEdges x t).filter (fun e => e != n && !round.contains e))
  let l := (es.filter (fun e => !round.contains e) ++ far).eraseDups
  andThen (touchNodes x (n :: l) s) (fun s => setEdges x n (selectEdges s x (s.nodeVec x n) l deg) s)

/-- Node `t` freed (R299). -/
def freeNode (x : Index) (t : Nat) (s : State) : Tried State :=
  let a := x.nodeAt t
  andThen (mapMove x (s.recId a) t none s) (fun s => andThen (readyIndex x a s) (fun s =>
    let s := raiseFloor x (s.recDel a) s
    let s := (s.write (a + 21) [1]).write (a + 32) (leBytes 4 (s.ixFree x))
    .ok (setHeader x 52 4 (s.ixTombs x - 1) (setHeader x 36 4 t s))))

/-- A repair round. -/
def repairRound (x : Index) (round : List Nat) (s : State) : Tried State :=
  let all := List.range (s.ixHigh x)
  andThen (touchNodes x all s) (fun s =>
    andThen (all.foldl (fun t n => andThen t (repairNode x round n)) (.ok s)) (fun s =>
      round.foldl (fun t n => andThen t (freeNode x n)) (.ok s)))

/-- The end of a round's commit: ENTRY, GEN and the counts (R300 steps 4 and 5). -/
def closeRound (x : Index) (s : State) : State :=
  let es := ((List.range (s.ixHigh x)).filter (fun n => !s.nodeFree x n)).take 8
  let s := (s.write (x.base + 56) (leBytes 1 es.length)).write (x.base + 64) (padTo 32 (es.flatMap (leBytes 4)))
  let s := setHeader x 24 8 (s.ixGen x + 1) s
  let r := s.draw
  (r.2.count (rRclCommits x.fold) 1).count (rRclCommitWait x.fold) (r.1 % 2 ^ 32)

/-- Whether a merge has a round left to run. -/
def roundLeft (s : State) (x : Index) (m : Merge) : Bool :=
  (m.left != 0 && ((s.nextSlot x).isSome || s.dead m.mSeq (x.sideAt (s.ixSideStart x)))) || !(deadNodes s x m.mSeq).isEmpty

/-- The merge ended with its COMPLETION. -/
def endMerge (f : Nat) (x : Index) (m : Merge) (st : W16) (s : State) : State :=
  let left := sideSpan (s.ixSideStart x) (s.ixSideEnd x)
  complete opRecallMerge m.desc st 0 (leBytes 4 m.placed ++ leBytes 4 m.freed ++ leBytes 3 left)
    (s.modFold f (fun y => { y with rcl := { y.rcl with merge := none } }))

/-- The merge as it stands after a round, ended where no round is left. -/
def goOnMerge (f : Nat) (x : Index) (m : Merge) (s : State) : State :=
  if roundLeft s x m then s.modFold f (fun y => { y with rcl := { y.rcl with merge := some m } }) else endMerge f x m stOk s

/-- RECALL_MERGE (R297). -/
def execRecallMerge (d : Desc) (s : State) : Host.Outcome State Fault Refusal :=
  .next (serve s (descriptor opRecallMerge (bodyReserved d [(16, 19)]) false d fun s =>
    let f := s.descFold d
    match s.index f with
    | none => .error (stBadDescriptor, s)
    | some x =>
      if (s.fold f).rcl.merge.isSome then .error (stBusy, s) else
      andThen (touchHeader x s) (fun s =>
        let side := sideSpan (s.ixSideStart x) (s.ixSideEnd x)
        let n := if descNum d 16 4 = 0 then side else min side (descNum d 16 4)
        .ok (goOnMerge f x { mSeq := s.ixSeq x, left := n, placed := 0, freed := 0, desc := d } s))))

/-- One round of merge `m` (R298, R299): the merge after it and the state. -/
def mergeRound (x : Index) (m : Merge) (s : State) : Tried (Merge × State) :=
  if m.left != 0 && ((s.nextSlot x).isSome || s.dead m.mSeq (x.sideAt (s.ixSideStart x))) then
    andThen (readyIndex x x.base s) (fun s =>
      andThen (placeRound x m.mSeq (min 256 m.left) (0, 0, false, s)) (fun r =>
        .ok ({ m with left := if r.2.2.1 then 0 else m.left - r.1, placed := m.placed + r.2.1 }, r.2.2.2)))
  else
    let round := deadNodes s x m.mSeq
    andThen (readyIndex x x.base s) (fun s => andThen (repairRound x round s) (fun s => .ok ({ m with freed := m.freed + round.length }, s)))

/-- MERGE_ROUND_COMMIT (R298 to R300): a round's writes applied at its commit; no query runs across a command. -/
def execMergeRoundCommit (f : Nat) (s : State) : Host.Outcome State Fault Refusal :=
  .next (serve s fun s =>
    match (s.fold f).rcl.merge, s.index f with
    | some m, some x =>
      (match mergeRound x m s with
       | .ok (m, s) => goOnMerge f x m (closeRound x s)
       | .error e => endMerge f x m e.1 { e.2 with mem := s.mem })
    | some m, none =>
      complete opRecallMerge m.desc stBadDescriptor 0 [] (s.modFold f (fun y => { y with rcl := { y.rcl with merge := none } }))
    | none, _ => s)

end Sys2Proof.Machine
end

