-- ==== Sys2Proof/Machine/FabSend.lean ====
section
/-! DEFINITION. The sending side of the fabric (13): routing, the egress queues, request messages and their fragments, the ordered
class's numbers and what waits at the source. -/
namespace Sys2Proof.Machine

/-- Operations (13 Table 13-2) that copy bytes. -/
def fabOpRead : Nat := 1
def fabOpWrite : Nat := 2
/-- Those on one 8-byte word. -/
def fabOpFadd : Nat := 4
def fabOpCas : Nat := 5
/-- Whether an operation acts on one 8-byte word. -/
def isAtomic (op : Nat) : Bool := op == fabOpFadd || op == fabOpCas
/-- Those of attention and of a row pass, and the fence. -/
def fabOpAread : Nat := 3
def fabOpAcc : Nat := 6
def fabOpNotify : Nat := 7
def fabOpFence : Nat := 8
/-- Whether an operation is one of 13 Table 13-2. -/
def isFabOp (op : Nat) : Bool := decide (fabOpRead ≤ op) && decide (op ≤ fabOpFence)

/-- Issuers (13 Table 13-1). -/
def issSess : Nat := 64
def issInk : Nat := 66
def issSnap : Nat := 68
def issSys : Nat := 70

/-! ### Routing (13 R336, R337) -/

/-- Whether port `p` is usable: up, and its neighbour not declared lost. -/
def State.portUsable (s : State) (p : Nat) : Bool := p < 18 && (s.port p).state == 2 && !s.fab.lost.contains (s.port p).neighbour

/-- The route entry of device `d`. -/
def State.routeEntry (s : State) (d : Nat) : Nat :=
  if d / 512 = s.selfNo / 512 then s.act (rFabRouteLocal (d % 512)) else s.act (rFabRouteGroup (d / 512))

/-- Flits a packet takes (13 R339). -/
def packetFlits (p : Packet) : Nat := ceilDiv (64 + p.payload.length) 240

/-- Flits queued in queue `q` of port `p`. -/
def State.queuedFlits (s : State) (p q : Nat) : Nat := sumOn (fun x : Packet × Nat => packetFlits x.1) (getND (s.port p).queues q [])

/-- The port an ordered-class packet takes. -/
def State.orderedRoute (s : State) (e : Nat) : Option Nat :=
  if s.portUsable (e % 32) then some (e % 32)
  else if s.portUsable (bitsOf e 9 5) then some (bitsOf e 9 5) else none

/-- The port a packet takes to its destination; none where the route entry gives none. -/
def State.route (s : State) (p : Packet) : Option Nat :=
  let e := s.routeEntry p.dst
  if !bitOf e 31 then none
  else if p.unordered then
    match minOn (fun o => s.queuedFlits o p.queue) ((bitsSet 18 (bitsOf e 27 10)).filter s.portUsable) with
    | some o => some o
    | none => s.orderedRoute e
  else s.orderedRoute e

/-! ### Virtual channels and egress queues (13 R333, R357, R359) -/

/-- The virtual channel of a packet: 0 ordered requests, 1 unordered requests, 2 responses and sequence NACKs, 3 accumulate-writes. -/
def packetChannel (p : Packet) : Nat := if p.ptype != 0 then 2 else if p.op = fabOpAcc then 3 else if p.unordered then 1 else 0

/-- Packets a queue holds at most (13 R357). -/
def queueDepth : Nat := 4096

/-- `p` at the tail of its queue of port `o`; the depth mark follows. -/
def pushQueue (o : Nat) (p : Packet) (s : State) : State :=
  s.modPort o (fun x =>
    let l := getND x.queues p.queue [] ++ [(p, s.now)]
    { x with queues := setN x.queues p.queue l
             depthMark := setN x.depthMark p.queue (max (getND x.depthMark p.queue 0) (min 65535 l.length)) })

/-- `p`, which came in on port `i` or is the device's own, into its queue of port `o`; it waits where that is full, and what it holds of the input
port's buffer is not given back to the neighbour as a credit (13 R357). -/
def enqueue (i : Option Nat) (o : Nat) (p : Packet) (s : State) : State :=
  if (getND (s.port o).queues p.queue []).length < queueDepth then pushQueue o p s
  else { s with fab := { s.fab with withheld := s.fab.withheld ++ [⟨i, o, p⟩] } }

/-- The first packet that waits for queue `q` of port `o`, moved into it. -/
def pullWithheld (o q : Nat) (s : State) : State :=
  match s.fab.withheld.find? (fun w => w.out == o && w.packet.queue == q) with
  | none => s
  | some w => pushQueue o w.packet { s with fab := { s.fab with withheld := dropFirst w s.fab.withheld } }

/-- The credits of virtual channel `v` that the device withholds from the neighbour at port `i`. -/
def State.withheldCredits (s : State) (i v : Nat) : Nat := (s.fab.withheld.filter (fun w => w.input == some i && packetChannel w.packet == v)).length

/-- `p`, from input port `i` or the device itself, sent on if it has a route; at the source the caller has checked that it has one. -/
def forwardPacket (i : Option Nat) (p : Packet) (s : State) : State := match s.route p with
  | some o => enqueue i o p s
  | none => s.count rFabNoRoute 1

/-- A packet of the device's own sent. -/
def emitPacket (p : Packet) (s : State) : State := forwardPacket none p s

/-- The 64-byte header of a packet, little-endian (13 R339, Table 13-1). -/
def packetHeader (p : Packet) : List Byte :=
  leBytes 1 (p.ptype % 16 + 16 * (p.rev % 16)) ++ leBytes 1 p.op ++
    leBytes 1 (b2n p.unordered + 2 * b2n p.kindRecord + 4 * b2n p.last + 32 * (p.hops % 8)) ++ leBytes 1 (p.queue % 16) ++
    leBytes 4 (p.dst % 2 ^ 18) ++ leBytes 4 (p.src % 2 ^ 18 + 2 ^ 18 * (p.issuer % 256)) ++ leBytes 4 p.tag.toNat ++ leBytes 4 p.drove.toNat ++
    leBytes 4 p.epoch.toNat ++ leBytes 8 p.session.toNat ++ leBytes 6 (p.addr % 2 ^ 46) ++ leBytes 2 p.oseq.toNat ++ leBytes 3 p.len ++ [0] ++
    leBytes 2 (p.frag % 4096) ++ leBytes 2 p.status.toNat ++ leBytes 8 p.oparg.toNat ++ leBytes 8 p.pmask.toNat

/-! ### Request messages (13 R339, R341, R350) -/

/-- PMASK of the fragment that begins at unit `u`, of the poisoned units `bad` (13 Table 13-1). -/
def unitMask (bad : List Nat) (u : Nat) : W64 :=
  BitVec.ofNat 64 (((List.range 64).map (fun k => if bad.contains (u + k) then 2 ^ k else 0)).foldl (· + ·) 0)

/-- The packets of a message whose whole payload `m` holds, with the poisoned units `bad`. -/
def fragmentsWith (bad : List Nat) (m : Packet) : List Packet :=
  let n := max 1 (ceilDiv m.payload.length 4096)
  (List.range n).map (fun i =>
    { m with payload := (m.payload.drop (i * 4096)).take 4096, frag := i, last := i + 1 == n, pmask := unitMask bad (i * 64)
             oseq := if m.unordered then 0 else m.oseq + BitVec.ofNat 16 i })

/-- The packets of a message with no poisoned unit. -/
def fragments (m : Packet) : List Packet := fragmentsWith [] m

/-- The queue of a request of fold `f` (13 R357). -/
def State.fabQueue (s : State) (f : Option Nat) (op : Nat) (kindRecord : Bool) (len : Nat) : Nat :=
  let r := match f with
    | some f => s.act (rFabFoldQueue f)
    | none => regReset (rFabFoldQueue 0)
  if op = fabOpAcc || op = fabOpNotify then bitsOf r 3 0
  else if kindRecord || op = fabOpFence || (op = fabOpRead && len = 0) then bitsOf r 11 8
  else bitsOf r 7 4

/-- A request header on behalf of fold `f`, if any. -/
def State.requestPacket (s : State) (f : Option Nat) (issuer op dst addr len : Nat) (unordered kindRecord : Bool) (epoch : Nat)
    (session oparg : W64) (payload : List Byte) : Packet :=
  { ptype := 0, rev := 3, op := op, unordered := unordered, kindRecord := kindRecord, last := true, hops := 0
    queue := s.fabQueue f op kindRecord len, dst := dst, src := s.selfNo, issuer := issuer, tag := 0
    drove := BitVec.ofNat 32 ((f.bind s.drove).getD 0), epoch := BitVec.ofNat 32 epoch, session := session, addr := addr, oseq := 0
    len := len, frag := 0, status := 0, oparg := oparg, pmask := 0, payload := payload }

/-- Ordered packets to `d` sent and not answered. -/
def State.unansweredTo (s : State) (d : Nat) : Nat :=
  sumOn (fun m : Nat × OutMsg => if m.2.sent && !m.2.packet.unordered && m.2.packet.dst == d then (fragments m.2.packet).length else 0)
    s.fab.outstanding

/-- Whether the FENCE rule holds message `tag` back (13 R348): a FENCE behind any earlier message of its issuer to its destination, any message behind a
FENCE of them. -/
def State.fenceHolds (s : State) (tag : Nat) (m : OutMsg) : Bool :=
  s.fab.outstanding.any (fun x => decide (x.1 < tag) && x.2.packet.issuer == m.packet.issuer && x.2.packet.dst == m.packet.dst &&
    (m.packet.op == fabOpFence || x.2.packet.op == fabOpFence))

/-- Whether message `tag` may leave: under 16,384 outstanding, 64 ordered packets per destination, in issue order, behind no FENCE. -/
def State.mayLeave (s : State) (tag : Nat) (m : OutMsg) : Bool :=
  let u := s.unansweredTo m.packet.dst
  !s.fenceHolds tag m && decide ((s.fab.outstanding.filter (fun x => x.2.sent)).length < 16384) &&
    (m.packet.unordered || u == 0 || decide (u + (fragments m.packet).length ≤ 64)) &&
    (m.packet.unordered || !s.fab.outstanding.any (fun x => x.1 < tag && !x.2.sent && !x.2.packet.unordered && x.2.packet.dst == m.packet.dst))

/-- Message `tag` sent: its ordered number taken, its packets queued. -/
def transmit (tag : Nat) (s : State) : State :=
  match getN s.fab.outstanding tag with
  | none => s
  | some m =>
    let n := getND s.fab.txSeq m.packet.dst 0
    let p := { m.packet with oseq := if m.packet.unordered then 0 else n }
    let fs := fragmentsWith m.bad p
    let s := { s with fab := { s.fab with
      txSeq := if m.packet.unordered then s.fab.txSeq else setN s.fab.txSeq m.packet.dst (n + BitVec.ofNat 16 fs.length)
      outstanding := setN s.fab.outstanding tag { m with packet := p, sent := true, firstSent := s.now, lastSent := s.now } } }
    fs.foldl (fun s p => emitPacket p s) s

/-- Messages that wait at the source sent as they may be. -/
def releaseHeld (s : State) : State :=
  (s.fab.outstanding.filter (fun m => !m.2.sent)).foldl (fun s m => if s.mayLeave m.1 m.2 then transmit m.1 s else s) s

/-- A request message issued; refused with ST_PEER_LOST where its destination is declared lost or has no route (13 R337, R355). -/
def fabRequestWith (bad : List Nat) (purpose : Purpose) (f : Option Nat) (desc : Option (Nat × Desc)) (p : Packet) (s : State) : Tried State :=
  if s.fab.lost.contains p.dst then .error (stPeerLost, s.count rFabLostOps 1)
  else if (s.route p).isNone then .error (stPeerLost, s.count rFabNoRoute 1)
  else
    let tag := s.fab.nextTag
    let m : OutMsg := { packet := { p with tag := BitVec.ofNat 32 tag }, bad := bad, purpose := purpose, fold := f, desc := desc, sent := false
                        firstSent := s.now, lastSent := s.now, response := [] }
    let s := { s with fab := { s.fab with nextTag := (tag + 1) % 2 ^ 32, outstanding := setN s.fab.outstanding tag m } }
    .ok (if s.mayLeave tag m then transmit tag s else s)

/-- A request message with no poisoned payload. -/
def fabRequest (purpose : Purpose) (f : Option Nat) (desc : Option (Nat × Desc)) (p : Packet) (s : State) : Tried State :=
  fabRequestWith [] purpose f desc p s

end Sys2Proof.Machine
end

