-- ==== Sys2Proof/Machine/Tok.lean ====
section
/-! DEFINITION. Scriptorium (10): the tokeniser block, UTF-8, pre-tokenisation and BPE, the parameter block, bans and forced
sequences, the count table, penalties and sampling, detokenisation and stop strings. -/
namespace Sys2Proof.Machine

/-! ### UTF-8 under the well-formed sequences of Unicode 15.1 (10 R261, R276) -/

/-- Length of the sequence a lead byte starts and the range of its second byte; none for a byte that starts none. -/
def utf8Lead (b : Nat) : Option (Nat × Nat × Nat) :=
  if b < 0x80 then some (1, 0, 0)
  else if b < 0xC2 then none
  else if b < 0xE0 then some (2, 0x80, 0xBF)
  else if b = 0xE0 then some (3, 0xA0, 0xBF)
  else if b = 0xED then some (3, 0x80, 0x9F)
  else if b < 0xF0 then some (3, 0x80, 0xBF)
  else if b = 0xF0 then some (4, 0x90, 0xBF)
  else if b < 0xF4 then some (4, 0x80, 0xBF)
  else if b = 0xF4 then some (4, 0x80, 0x8F)
  else none

/-- How many of the bytes after the lead continue the sequence: the first in lo … hi, the others in 80 … BF, at most `n`. -/
def utf8Cont : Nat → Nat → Nat → List Byte → Nat
  | 0, _, _, _ => 0
  | _, _, _, [] => 0
  | n + 1, lo, hi, b :: t => if lo ≤ b.toNat && b.toNat ≤ hi then 1 + utf8Cont n 0x80 0xBF t else 0

/-- The code point of a whole sequence. -/
def utf8Point (l : List Byte) : Nat :=
  let c (i : Nat) : Nat := (l.getD i 0).toNat
  match l.length with
  | 1 => c 0
  | 2 => c 0 % 32 * 64 + c 1 % 64
  | 3 => c 0 % 16 * 4096 + c 1 % 64 * 64 + c 2 % 64
  | _ => c 0 % 8 * 262144 + c 1 % 64 * 4096 + c 2 % 64 * 64 + c 3 % 64

/-- The UTF-8 bytes of a code point. -/
def utf8Of (c : Nat) : List Byte :=
  let b (n : Nat) : Byte := BitVec.ofNat 8 n
  if c < 0x80 then [b c]
  else if c < 0x800 then [b (0xC0 + c / 64), b (0x80 + c % 64)]
  else if c < 0x10000 then [b (0xE0 + c / 4096), b (0x80 + c / 64 % 64), b (0x80 + c % 64)]
  else [b (0xF0 + c / 262144), b (0x80 + c / 4096 % 64), b (0x80 + c / 64 % 64), b (0x80 + c % 64)]

/-- A decoded character: code point, source bytes it took, whether it replaces a maximal subpart. -/
structure TextChar where
  point : Nat
  took : Nat
  replaced : Bool
  deriving DecidableEq, Repr

/-- Bytes decoded: the characters, and a trailing well-formed prefix of 1 to 3 bytes. The first argument bounds the length. -/
def utf8Decode : Nat → List Byte → List TextChar × List Byte
  | 0, l => ([], l)
  | _, [] => ([], [])
  | fuel + 1, b :: t =>
    match utf8Lead b.toNat with
    | none => let r := utf8Decode fuel t; (⟨0xFFFD, 1, true⟩ :: r.1, r.2)
    | some (n, lo, hi) =>
      let k := utf8Cont (n - 1) lo hi t
      if k + 1 = n then let r := utf8Decode fuel (t.drop k); (⟨utf8Point (b :: t.take k), n, false⟩ :: r.1, r.2)
      else if t.length = k then ([], b :: t)
      else let r := utf8Decode fuel (t.drop k); (⟨0xFFFD, k + 1, true⟩ :: r.1, r.2)

/-- Whether bytes are well-formed UTF-8. -/
def utf8Ok (l : List Byte) : Bool :=
  let r := utf8Decode l.length l
  r.2.isEmpty && r.1.all (fun c => !c.replaced)

/-! ### The tokeniser block (10 R256 to R258) -/

/-- Where the active image's HBM area lies; its tokeniser block begins there. -/
def State.tokBase (s : State) (f : Nat) : Nat :=
  match (s.fold f).active with
  | some k => (getN (s.fold f).images k).elim 0 (·.hbmBase)
  | none => 0

/-- The vocabulary size of the fold's active image. -/
def State.vocab (s : State) (f : Nat) : Nat :=
  match (s.fold f).active with
  | some k => (getN (s.fold f).images k).elim 0 (·.vocab)
  | none => 0

/-- A vocabulary entry's STRING and whether it is SPECIAL (10 R257). -/
def tokString (s : State) (base v : Nat) : List Byte × Bool :=
  let a := base + s.num (base + 16) 8 + 128 * v
  (s.read a (min 64 (s.num (a + 64) 1)), s.num (a + 65) 1 % 2 == 1)

/-- Whether a vocabulary entry is poisoned (03 R88). -/
def tokPoisoned (s : State) (base v : Nat) : Bool := s.poisoned (base + s.num (base + 16) 8 + 128 * v) 66

/-- The merge of (a, b): its rank and result (10 R258). -/
def mergeFrom (s : State) (at_ m a b : Nat) : Nat → Nat → Option (Nat × Nat)
  | 0, _ => none
  | fuel + 1, i =>
    let e := at_ + 16 * (i % 2 ^ m)
    let l := s.num e 4
    if l = 0xFFFFFFFF then none
    else if l = a && s.num (e + 4) 4 = b then some (s.num (e + 8) 4, s.num (e + 12) 4)
    else mergeFrom s at_ m a b fuel (i + 1)

/-- The merge of a pair under the block at `base`. -/
def mergeOf (s : State) (base a b : Nat) : Option (Nat × Nat) :=
  let m := s.num (base + 8) 1
  let h := (a * 0x9E3779B1 + b * 0x85EBCA77) % 2 ^ 32
  mergeFrom s (base + s.num (base + 24) 8) m a b (2 ^ m) (h / 2 ^ (32 - m))

/-- The class of a code point (10 R256). -/
def charClass (s : State) (base c : Nat) : Nat :=
  if c < 128 then s.num (base + 96 + c) 1 else s.num (base + 64 + Config.category c % 30) 1

/-! ### Encoding (10 R260 to R264) -/

/-- UTF-8 bytes of a list of characters. -/
def itemBytes (l : List (Nat × Nat)) : List Byte := l.flatMap (fun c => utf8Of c.1)

/-- What pre-tokenisation has produced: whole pre-tokens and escape tokens, and the current pre-token. -/
structure PreTok where
  out : List (List (Nat × Nat) ⊕ Nat)
  cur : List (Nat × Nat)

/-- The current pre-token emitted. -/
def PreTok.flush (p : PreTok) : PreTok := if p.cur.isEmpty then p else ⟨p.out ++ [.inl p.cur], []⟩

/-- One character under the procedure of 10 R263; `join` and `attach` give the masks, `maxRun` the run limit. -/
def preTokStep (join attach maxRun : Nat → Nat) (p : PreTok) (c k : Nat) : PreTok :=
  match p.cur.getLast? with
  | none => { p with cur := [(c, k)] }
  | some x =>
    let a := x.2
    let run := (p.cur.reverse.takeWhile (fun y => y.2 == k)).length
    let size := (itemBytes p.cur).length + (utf8Of c).length
    if bitOf (join a) k && !(k == a && maxRun k != 0 && run == maxRun k) && decide (size ≤ 1024) then { p with cur := p.cur ++ [(c, k)] }
    else if bitOf (attach a) k && decide ((utf8Of c).length + (utf8Of x.1).length ≤ 1024) then
      ⟨(PreTok.flush ⟨p.out, p.cur.dropLast⟩).out, [x, (c, k)]⟩
    else ⟨p.flush.out, [(c, k)]⟩

/-- The pair that merges first: position, rank, result; the leftmost of equal ranks. -/
def bestMerge (s : State) (base : Nat) : Nat → List Nat → Option (Nat × Nat × Nat)
  | i, a :: b :: t =>
    let rest := bestMerge s base (i + 1) (b :: t)
    match mergeOf s base a b, rest with
    | none, r => r
    | some (k, v), none => some (i, k, v)
    | some (k, v), some (j, l, w) => if k ≤ l then some (i, k, v) else some (j, l, w)
  | _, _ => none

/-- Byte-level BPE of one pre-token (10 R264). -/
def bpe (s : State) (base : Nat) : Nat → List Nat → List Nat
  | 0, l => l
  | fuel + 1, l =>
    match bestMerge s base 0 l with
    | none => l
    | some (i, _, v) => bpe s base fuel (l.take i ++ [v] ++ l.drop (i + 2))

/-- The tokens of a pre-token. -/
def bpeOf (s : State) (base : Nat) (l : List Byte) : List Nat :=
  bpe s base l.length (l.map (fun b => s.num (base + 1024 + 4 * b.toNat) 4))

/-- An input text encoded. -/
structure Encoded where
  tokens : List Nat
  carry : List Byte
  replaced : Nat
  deriving DecidableEq, Repr

/-- Input bytes, after the carry, encoded (10 R260 steps 2 to 6). -/
def encodeText (s : State) (f : Nat) (escapes more : Bool) (l : List Byte) : Encoded :=
  let base := s.tokBase f
  let d := utf8Decode l.length l
  let chars := d.1 ++ (if d.2.isEmpty || more then [] else [⟨0xFFFD, d.2.length, true⟩])
  let sc := s.num (base + 12) 4
  let so := s.num (base + 32) 8
  let mask (off k : Nat) : Nat := s.num (base + off + 2 * k) 2
  let p := chars.foldl (fun p (c : TextChar) =>
      if escapes && 0xF0000 ≤ c.point && c.point < 0xF0000 + sc && !c.replaced then
        ⟨p.flush.out ++ [.inr (s.num (base + so + 4 * (c.point - 0xF0000)) 4)], []⟩
      else preTokStep (mask 224) (mask 256) (fun k => s.num (base + 288 + k) 1) p c.point (charClass s base c.point))
    (⟨[], []⟩ : PreTok)
  { tokens := p.flush.out.flatMap (fun x => match x with
      | .inl cs => bpeOf s base (itemBytes cs)
      | .inr t => [t])
    carry := if more then d.2 else []
    replaced := (chars.filter (·.replaced)).length }

/-! ### The parameter block (10 R266, R267) -/

/-- A session's parameters as read from its block. -/
structure Params where
  flags : Nat
  stops : List (List Byte)
  bans : List (List Nat)
  forces : List (List Nat × List Nat)
  ends : List Nat
  topK : Nat
  temperature : W32
  topP : W32
  minP : W32
  rep : W32
  presence : W32
  frequency : W32
  deriving DecidableEq, Repr

def Params.strict (p : Params) : Bool := bitOf p.flags 0
def Params.stopInclude (p : Params) : Bool := bitOf p.flags 1
def Params.trim (p : Params) : Bool := bitOf p.flags 2
def Params.escapes (p : Params) : Bool := bitOf p.flags 3
def Params.showSpecial (p : Params) : Bool := bitOf p.flags 4
def Params.countReset (p : Params) : Bool := bitOf p.flags 5

/-- `n` token IDs of 4 bytes at byte `o`. -/
def tokensAt (l : List Byte) (o n : Nat) : List Nat := (List.range n).map (fun i => leAt l (o + 4 * i) 4)

/-- Where the ban and force entries of a block begin. -/
def banBase (l : List Byte) : Nat := 64 + 72 * leAt l 3 1
def forceBase (l : List Byte) : Nat := banBase l + 68 * leAt l 4 2

/-- The block read. -/
def parseParams (l : List Byte) : Params :=
  { flags := leAt l 2 1
    stops := (List.range (leAt l 3 1)).map (fun i => sliceB l (64 + 72 * i + 8) (leAt l (64 + 72 * i) 1))
    bans := (List.range (leAt l 4 2)).map (fun i => let o := banBase l + 68 * i; tokensAt l (o + 4) (leAt l o 1))
    forces := (List.range (leAt l 6 1)).map (fun i =>
      let o := forceBase l + 328 * i
      (tokensAt l (o + 8) (leAt l o 1), tokensAt l (o + 72) (leAt l (o + 1) 1)))
    ends := tokensAt l 36 (leAt l 7 1)
    topK := leAt l 8 2
    temperature := BitVec.ofNat 32 (leAt l 12 4), topP := BitVec.ofNat 32 (leAt l 16 4), minP := BitVec.ofNat 32 (leAt l 20 4)
    rep := BitVec.ofNat 32 (leAt l 24 4), presence := BitVec.ofNat 32 (leAt l 28 4), frequency := BitVec.ofNat 32 (leAt l 32 4) }

/-- Finite FP32. -/
def fpFinite (a : W32) : Bool := a.toNat / 2 ^ 23 % 256 != 255
/-- FP32 1. -/
def fpOne : W32 := 0x3F800000

/-- The checks of a block of `len` bytes for a vocabulary (10 R267). -/
def paramsOk (vocab : Nat) (l : List Byte) (len : Nat) : Bool :=
  let zero (o n : Nat) : Bool := (sliceB l o n).all (· == 0)
  let p := parseParams l
  let ns := leAt l 3 1
  let nb := leAt l 4 2
  let nf := leAt l 6 1
  let ne := leAt l 7 1
  let tok (ts : List Nat) : Bool := ts.all (fun t => decide (t < vocab))
  leAt l 0 2 == 0x5053 && decide (p.flags < 64) && decide (ns ≤ 16) && decide (nb ≤ 512) && decide (nf ≤ 64) && decide (ne ≤ 4) &&
    decide (p.topK ≤ 1024) && len == 64 + 72 * ns + 68 * nb + 328 * nf && zero 10 2 && zero 52 12 &&
    fpFinite p.temperature && !fpLt p.temperature fpZero && fpLt fpZero p.topP && !fpLt fpOne p.topP && fpFinite p.topP &&
    fpFinite p.minP && !fpLt p.minP fpZero && fpLt p.minP fpOne && fpFinite p.rep && fpLt fpZero p.rep &&
    fpFinite p.presence && fpFinite p.frequency && zero (36 + 4 * ne) (16 - 4 * ne) && tok p.ends &&
    (List.range ns).all (fun i => let o := 64 + 72 * i; let n := leAt l o 1
      decide (1 ≤ n) && decide (n ≤ 64) && zero (o + 1) 7 && zero (o + 8 + n) (64 - n) && utf8Ok (sliceB l (o + 8) n)) &&
    (List.range nb).all (fun i => let o := banBase l + 68 * i; let n := leAt l o 1
      decide (1 ≤ n) && decide (n ≤ 16) && zero (o + 1) 3 && zero (o + 4 + 4 * n) (64 - 4 * n) && tok (tokensAt l (o + 4) n)) &&
    (List.range nf).all (fun i => let o := forceBase l + 328 * i; let n := leAt l o 1; let c := leAt l (o + 1) 1
      decide (n ≤ 16) && decide (1 ≤ c) && decide (c ≤ 64) && zero (o + 2) 6 && zero (o + 8 + 4 * n) (64 - 4 * n) &&
        zero (o + 72 + 4 * c) (256 - 4 * c) && tok (tokensAt l (o + 8) n) && tok (tokensAt l (o + 72) c))

/-- The parameters of a session whose parameter sheet lies at local offset `a`. -/
def State.params (s : State) (a : Nat) : Params :=
  let h := s.read a 64
  parseParams (s.read a (64 + 72 * leAt h 3 1 + 68 * leAt h 4 2 + 328 * leAt h 6 1))

/-! ### The trie (10 R268 to R271) -/

/-- A node: its string from the root and its edges (token, child) in order of creation. -/
structure TrieNode where
  path : List Nat
  edges : List (Nat × Nat)
  deriving DecidableEq, Repr

/-- The node a path leads to. -/
def trieFind (t : List TrieNode) (path : List Nat) : Option Nat :=
  match firstFrom (fun i => (t[i]?).any (fun n => n.path == path)) t.length 0 with
  | some i => some i
  | none => none

/-- One token's node appended if it has no edge yet. -/
def trieGrow (t : List TrieNode) (path : List Nat) : List TrieNode :=
  match trieFind t path, trieFind t path.dropLast with
  | none, some p => t.mapIdx (fun i n => if i = p then { n with edges := n.edges ++ [(path.getLastD 0, t.length)] } else n) ++ [⟨path, []⟩]
  | _, _ => t

/-- The trie of a session: nodes in the order of 10 R269 steps 1 and 2. -/
def trieOf (p : Params) : List TrieNode :=
  (p.bans ++ p.forces.map (·.1)).foldl
    (fun t w => (List.range w.length).foldl (fun t k => trieGrow t (w.take (k + 1))) t) [⟨[], []⟩]

/-- The path of node `n`. -/
def triePath (t : List TrieNode) (n : Nat) : List Nat := (t[n]?).elim [] (·.path)

/-- FAIL: the node of the longest proper suffix of the path that is a node; the root for the root. -/
def trieFail (t : List TrieNode) (n : Nat) : Nat :=
  let p := triePath t n
  (((List.range p.length).map (fun k => trieFind t (p.drop (k + 1)))).filterMap id).headD 0

/-- The FAIL chain of `n` without itself, the root last; `n` ends for the root. -/
def failChain (t : List TrieNode) : Nat → Nat → List Nat
  | 0, _ => []
  | fuel + 1, n => if n = 0 then [] else trieFail t n :: failChain t fuel (trieFail t n)

/-- Whether a ban ends at node `n`. -/
def banEnds (p : Params) (t : List TrieNode) (n : Nat) : Bool := n != 0 && p.bans.contains (triePath t n)

/-- The lowest force entry among the triggers that end at `n` or on its FAIL chain. -/
def forceEnds (p : Params) (t : List TrieNode) (n : Nat) : Option Nat :=
  let ends := (n :: failChain t 17 n).filter (· != 0)
  ((List.range p.forces.length).filter (fun i => ends.any (fun m => (p.forces.getD i ([], [])).1 == triePath t m))).head?

/-- HAS_BAN_EDGE. -/
def hasBanEdge (p : Params) (t : List TrieNode) (n : Nat) : Bool := (t[n]?).any (fun x => x.edges.any (fun e => banEnds p t e.2))

/-- The tokens banned at state `n` (10 R270). -/
def bannedAt (p : Params) (t : List TrieNode) (n : Nat) : List Nat :=
  (n :: failChain t 17 n).flatMap (fun m => (t[m]?).elim [] (fun x => (x.edges.filter (fun e => banEnds p t e.2)).map (·.1)))

/-- The state after token `k`: the edge of the first node on the FAIL chain that has one, else the root; the flag says that an
edge was followed. -/
def trieNext (t : List TrieNode) (n k : Nat) : Nat × Bool :=
  match ((n :: failChain t 17 n).filterMap (fun m => (t[m]?).bind (fun x => (x.edges.find? (fun e => e.1 == k)).map (·.2)))).head? with
  | some c => (c, true)
  | none => (0, false)

/-- The stored trie (10 Table 10-4): the nodes, then from the next 64-byte boundary the edges, each node's in ascending token ID. -/
def trieBytes (p : Params) : List Byte :=
  let t := trieOf p
  let sorted := t.map (fun n => sortBy (fun a b => decide (a.1 ≤ b.1)) n.edges)
  let firsts := sorted.foldl (fun (acc : List Nat × Nat) e => (acc.1 ++ [acc.2], acc.2 + e.length)) ([], 0)
  let node (i : Nat) : List Byte :=
    let bl := ((failChain t 17 i).find? (hasBanEdge p t)).getD 0xFFFFFFFF
    leBytes 4 (firsts.1.getD i 0) ++ leBytes 2 (sorted.getD i []).length ++ leBytes 1 (triePath t i).length ++
      leBytes 1 (b2n (hasBanEdge p t i)) ++ leBytes 4 (trieFail t i) ++ leBytes 4 bl
  let edge (e : Nat × Nat) : List Byte :=
    let fo := forceEnds p t e.2
    leBytes 4 (e.1 + 2 ^ 18 * b2n (banEnds p t e.2) + 2 ^ 19 * b2n fo.isSome + 2 ^ 20 * fo.getD 0) ++ leBytes 4 e.2
  let nodes := (List.range t.length).flatMap node
  padTo (ceilDiv nodes.length 64 * 64) nodes ++ sorted.flatMap (fun l => l.flatMap edge)

/-- Nodes and edges of a session's trie; none when it has no bans and no force entries. -/
def trieSize (p : Params) : Option (Nat × Nat) :=
  if p.bans.isEmpty && p.forces.isEmpty then none
  else some ((trieOf p).length, sumOn (fun n : TrieNode => n.edges.length) (trieOf p))

/-! ### Forcing (10 R271) -/

/-- Whether a parameter entry is armed, also beneath replay. -/
def TextState.armed (x : TextState) : Bool := x.forceSrc == 1 || (x.forceSrc == 2 && x.paramArmed)

/-- A parameter entry armed, or none. -/
def TextState.arm (x : TextState) (e : Option Nat) : TextState :=
  match e with
  | some i => { x with forceIndex := i, forceNext := 0, forceSrc := if x.forceSrc = 2 then 2 else 1, paramArmed := x.forceSrc == 2 }
  | none => { x with forceIndex := 0, forceNext := 0, forceSrc := if x.forceSrc = 2 then 2 else 0, paramArmed := false }

/-- The lowest entry with a zero-length trigger. -/
def Params.zeroTrigger (p : Params) : Option Nat := ((List.range p.forces.length).filter (fun i => (p.forces.getD i ([], [])).1.isEmpty)).head?

/-- A turn's first generated token is due: the matching state starts at the root and a zero-length trigger arms. -/
def TextState.beginTurn (p : Params) (x : TextState) : TextState :=
  { x with banNode := 0, stopMatch := List.replicate 16 0, scarry := [], hold := [], uncountedTurn := false }.arm p.zeroTrigger

/-- The token forced next, if any: from a replay list, or the armed entry's continuation. -/
def TextState.forced (p : Params) (x : TextState) : Option Nat :=
  if x.forceSrc = 1 then some ((p.forces.getD x.forceIndex ([], [])).2.getD x.forceNext 0) else none

/-- The matching state and the arming after token `t` (10 R270, R271). -/
def TextState.advance (p : Params) (x : TextState) (t : Nat) : TextState :=
  let tr := trieOf p
  let n := trieNext tr x.banNode t
  let y := { x with banNode := n.1 }
  if x.armed then
    if (p.forces.getD x.forceIndex ([], [])).2.length ≤ x.forceNext + 1 then y.arm none
    else { y with forceNext := x.forceNext + 1 }
  else if n.2 then
    match forceEnds p tr n.1 with
    | some i => y.arm (some i)
    | none => y
  else y

/-! ### The count table (10 R272): 8,192 entries of 8 bytes at local offset `a` -/

/-- The entry of token `t`: its index and whether it holds `t`; none when the table is full of others. -/
def countProbe (s : State) (a t : Nat) : Nat → Nat → Option (Nat × Bool)
  | 0, _ => none
  | fuel + 1, i =>
    let e := s.num (a + 8 * (i % 8192)) 4
    if e = t then some (i % 8192, true) else if e = 0xFFFFFFFF then some (i % 8192, false) else countProbe s a t fuel (i + 1)

/-- Where token `t` is or would be. -/
def countFind (s : State) (a t : Nat) : Option (Nat × Bool) := countProbe s a t 8192 (t * 0x9E3779B1 % 2 ^ 32 / 2 ^ 19)

/-- The count of token `t`. -/
def countOf (s : State) (a t : Nat) : Nat := match countFind s a t with
  | some (i, true) => s.num (a + 8 * i + 4) 2
  | _ => 0

/-- An empty count table. -/
def emptyCounts : List Byte := (List.replicate 8192 (leBytes 4 0xFFFFFFFF ++ zerosB 4)).flatten

/-- Token `t` counted in the table at `a` with `used` entries; none when it cannot be (the state then is unchanged). -/
def countAdd (a used t : Nat) (s : State) : Option (State × Nat) :=
  match countFind s a t with
  | some (i, true) => some (s.write (a + 8 * i + 4) (leBytes 2 (min 65535 (s.num (a + 8 * i + 4) 2 + 1))), used)
  | some (i, false) => some (s.write (a + 8 * i) (leBytes 4 t ++ leBytes 2 1 ++ [0, 0]), used + 1)
  | none => none

/-! ### Sampling (10 R273 to R275) -/

/-- One Philox-4x32 round. -/
def philoxRound (c : Nat × Nat × Nat × Nat) (k0 k1 : Nat) : Nat × Nat × Nat × Nat :=
  let p0 := c.1 * 0xD2511F53
  let p1 := c.2.2.1 * 0xCD9E8D57
  (((p1 / 2 ^ 32) ^^^ c.2.1) ^^^ k0, p1 % 2 ^ 32, ((p0 / 2 ^ 32) ^^^ c.2.2.2) ^^^ k1, p0 % 2 ^ 32)

/-- `n` rounds, the key raised between them. -/
def philox : Nat → Nat × Nat × Nat × Nat → Nat → Nat → Nat × Nat × Nat × Nat
  | 0, c, _, _ => c
  | n + 1, c, k0, k1 => philox n (philoxRound c k0 k1) ((k0 + 0x9E3779B9) % 2 ^ 32) ((k1 + 0xBB67AE85) % 2 ^ 32)

/-- The variate of a session's seed at position n, in units of 2^−24. -/
def variate (seed : W64) (n : Nat) : Nat := (philox 10 (n % 2 ^ 32, 0, 0, 0) (seed.toNat % 2 ^ 32) (seed.toNat / 2 ^ 32)).1 / 256

/-- The variate as FP32. -/
def variateFp (seed : W64) (n : Nat) : W32 := fpOf (.fin false (variate seed n) (-24))

/-- A logit with the penalties of 10 R273 for count `c`. -/
def penalise (p : Params) (c : Nat) (x : W32) : W32 :=
  if c = 0 then x else
  let x := if p.rep = fpOne then x else if fpLt fpZero x then fpDiv x p.rep else fpMul x p.rep
  fpSub (fpSub x p.presence) (fpMul p.frequency (fpNat c))

/-- The logits made ready: NaN to −∞, +∞ to the largest finite value, penalties, bans. -/
def readyLogits (p : Params) (count : Nat → Nat) (banned : List Nat) (l : NMap W32) : List (Nat × W32) :=
  l.map (fun e =>
    let x := if fpIsNan e.2 then fpInf true else if e.2 = fpInf false then 0x7F7FFFFF else e.2
    (e.1, if banned.contains e.1 then fpInf true else penalise p (count e.1) x))

/-- Sorted order: x descending, then token ID ascending. -/
def logitLe (a b : Nat × W32) : Bool := fpLt b.2 a.2 || (!fpLt a.2 b.2 && decide (a.1 ≤ b.1))

/-- Running sums of p. -/
def runSums (l : List (Nat × W32)) : List (Nat × W32) :=
  (l.foldl (fun (a : List (Nat × W32) × W32) e => let t := fpAdd a.2 e.2; (a.1 ++ [(e.1, t)], t)) ([], fpZero)).1

/-- The shortest prefix whose running sum reaches `lim`. -/
def topPrefix (lim : W32) (l : List (Nat × W32)) : List (Nat × W32) :=
  match (List.range l.length).find? (fun i => ((runSums l)[i]?).any (fun e => !fpLt e.2 lim)) with
  | some i => l.take (i + 1)
  | none => l

/-- The candidates with their probabilities, in sorted order (10 R274). -/
def candidates (p : Params) (c : List (Nat × W32)) : List (Nat × W32) :=
  let c := if 0 < p.topK then c.take p.topK else c
  let y := c.map (fun e => (e.1, fpDiv e.2 p.temperature))
  let y0 := (y.head?).elim fpZero (·.2)
  let e := y.map (fun x => (x.1, vuExp (fpSub x.2 y0)))
  let total := e.foldl (fun t x => fpAdd t x.2) fpZero
  let q := e.map (fun x => (x.1, fpDiv x.2 total))
  let q0 := (q.head?).elim fpZero (·.2)
  let q := if fpLt fpZero p.minP then q.filter (fun x => !fpLt x.2 (fpMul p.minP q0)) else q
  if fpLt p.topP fpOne then topPrefix p.topP q else q

/-- The token chosen with variate `u`; none when there is no candidate. -/
def sample (p : Params) (u : W32) (ready : List (Nat × W32)) : Option Nat :=
  let c := sortBy logitLe (ready.filter (fun e => fpLt (fpInf true) e.2))
  if c.isEmpty then none
  else if p.temperature = 0 || p.temperature = 0x80000000 then (c.head?).map (·.1)
  else
    let q := candidates p c
    let sums := runSums q
    let target := fpMul u ((sums.getLast?).elim fpZero (·.2))
    match sums.find? (fun e => fpLt target e.2) with
    | some e => some e.1
    | none => (q.getLast?).map (·.1)

/-- NaN logits of a row. -/
def nanCount (l : NMap W32) : Nat := (l.filter (fun e => fpIsNan e.2)).length

/-! ### Detokenisation and stop strings (10 R276 to R280) -/

/-- The longest prefix of `str` that is a suffix of `l`. -/
def prefixSuffix (str l : List Byte) : Nat :=
  ((List.range (min str.length l.length + 1)).reverse.find? (fun n => str.take n == l.drop (l.length - n))).getD 0

/-- STOP_MATCH after a character with bytes `c`. -/
def stopStep (stops : List (List Byte)) (match_ : List Nat) (c : List Byte) : List Nat :=
  stops.mapIdx (fun i str => prefixSuffix str (str.take (match_.getD i 0) ++ c))

/-- What one token does to the text: the new state, the bytes released, the length of determined text it adds to TEXT_END, and,
where it completes a stop string, the string and the bytes of the token discarded. -/
structure DetokOut where
  state : TextState
  released : List Byte
  added : Int
  stop : Option (Nat × Nat)
  deriving DecidableEq, Repr

/-- The characters of a token in turn. `src` counts the source bytes still to come after each. -/
def detokChars (p : Params) : List TextChar → Nat → TextState → List Byte → TextState × List Byte × Option (Nat × Nat)
  | [], _, x, acc => (x, acc, none)
  | c :: t, left, x, acc =>
    let m := stopStep p.stops x.stopMatch (utf8Of c.point)
    let acc := acc ++ utf8Of c.point
    match (List.range p.stops.length).find? (fun i => m.getD i 0 == (p.stops.getD i []).length) with
    | some i => ({ x with stopMatch := m }, acc, some (i, left - c.took))
    | none => detokChars p t (left - c.took) { x with stopMatch := m } acc

/-- A dry token passed through the detokeniser: `bytes` are those it contributes (10 R276). -/
def detok (p : Params) (bytes : List Byte) (x : TextState) : DetokOut :=
  let src := x.scarry ++ bytes
  let d := utf8Decode src.length src
  let r := detokChars p d.1 src.length x x.hold
  match r.2.2 with
  | some (i, left) =>
    let vis := if p.stopInclude then r.2.1 else r.2.1.take (r.2.1.length - (p.stops.getD i []).length)
    { state := { r.1 with hold := [], scarry := [], stopMatch := List.replicate 16 0 }, released := vis
      added := (vis.length : Int) - x.hold.length, stop := some (i, left) }
  | none =>
    let keep := r.1.stopMatch.foldl max 0
    let cut := r.2.1.length - keep
    { state := { r.1 with hold := r.2.1.drop cut, scarry := d.2 }, released := r.2.1.take cut
      added := (r.2.1.length : Int) - x.hold.length, stop := none }

/-- The bytes a token contributes: none for end tokens, nor for SPECIAL ones while SHOW_SPECIAL is clear. -/
def tokenText (s : State) (f : Nat) (p : Params) (t : Nat) : List Byte :=
  let e := tokString s (s.tokBase f) t
  if p.ends.contains t || (e.2 && !p.showSpecial) then [] else e.1

/-- The hold and an incomplete character released at a turn's end (10 R279). -/
def finishText (x : TextState) : TextState × List Byte :=
  ({ x with hold := [], scarry := [], stopMatch := List.replicate 16 0 },
   x.hold ++ (if x.scarry.isEmpty then [] else utf8Of 0xFFFD))

/-- Cache hits and misses of TOK work: the replacement of the cache is open, so both rise by free amounts; no cache, no hits
(10 R259, log entry 3). -/
def cacheUse (f : Nat) (s : State) : State :=
  let (h, s) := s.draw
  let (m, s) := s.draw
  (if (s.fold f).cacheWays = 0 then s else s.count (rTokCacheHits f) h).count (rTokCacheMisses f) m

end Sys2Proof.Machine
end

