-- ==== Sys2Proof/Machine/Image.lean ====
section
/-! DEFINITION. The session record as 512 bytes (04 Table 4-1), transcript entries (04 R98, R99), the session image with its page
table and page lists (08 R209, R211 to R213, R240), and runs of new sheets. -/
namespace Sys2Proof.Machine

/-! ### The record as bytes (04 R97, 10 Table 10-6, 09 Table 9-4) -/

/-- The lease word and the peer word (04 Table 4-5). -/
def Lease.word (l : Lease) : Nat := l.holder + l.lstate * 2 ^ 18 + l.epoch * 2 ^ 32
def leaseOf (w : Nat) : Lease := ⟨bitsOf w 17 0, bitsOf w 19 18, bitsOf w 63 32⟩
def Peer.word (p : Peer) : Nat := p.device + p.fold * 2 ^ 18 + p.epoch * 2 ^ 32
def peerOf (w : Nat) : Peer := ⟨bitsOf w 17 0, bitsOf w 23 18, bitsOf w 63 32⟩

/-- TEXT_STATE, bytes 184 to 383. -/
def textBytes (x : TextState) : List Byte :=
  padTo 200 ((List.range 16).flatMap (fun i => leBytes 1 (x.stopMatch.getD i 0)) ++ leBytes 4 x.banNode ++ leBytes 1 x.forceSrc ++
    leBytes 1 x.forceIndex ++ leBytes 2 x.forceNext ++ leBytes 1 x.scarry.length ++ padTo 3 x.scarry ++
    leBytes 1 (b2n x.uncountedTurn + 2 * b2n x.paramArmed) ++ leBytes 1 x.hold.length ++ leBytes 2 x.countUsed ++
    leBytes 8 x.replayNext ++ leBytes 8 x.replayEnd ++ padTo 63 x.hold)

/-- TEXT_STATE read from its 200 bytes. -/
def textOf (l : List Byte) : TextState :=
  { stopMatch := (List.range 16).map (fun i => leAt l i 1), banNode := leAt l 16 4, forceSrc := leAt l 20 1
    forceIndex := leAt l 21 1, forceNext := leAt l 22 2, scarry := sliceB l 25 (min 3 (leAt l 24 1))
    uncountedTurn := bitOf (leAt l 28 1) 0, paramArmed := bitOf (leAt l 28 1) 1, countUsed := leAt l 30 2
    replayNext := leAt l 32 8, replayEnd := leAt l 40 8, hold := sliceB l 48 (min 63 (leAt l 29 1)) }

/-- DRAFT_STATE, bytes 384 to 415. -/
def draftBytes (x : DraftState) : List Byte :=
  leBytes 1 x.len ++ leBytes 1 (b2n x.probing) ++ leBytes 1 x.rejectRun ++ [0] ++ leBytes 2 x.probeWait ++ [0, 0] ++
    leBytes 4 x.draftPos ++ zerosB 4 ++ leBytes 8 x.proposed.toNat ++ leBytes 8 x.accepted.toNat

/-- DRAFT_STATE read from its 32 bytes. -/
def draftOf (l : List Byte) : DraftState :=
  { len := leAt l 0 1, probing := bitOf (leAt l 1 1) 0, rejectRun := leAt l 2 1, probeWait := leAt l 4 2, draftPos := leAt l 8 4
    proposed := BitVec.ofNat 64 (leAt l 16 8), accepted := BitVec.ofNat 64 (leAt l 24 8) }

/-- The 512 bytes of a record. -/
def recordBytes (r : Record) : List Byte :=
  padTo 512 (leBytes 8 r.sessionId.toNat ++ leBytes 1 r.state ++ leBytes 1 r.priorState ++
    leBytes 1 (b2n r.latencyCritical + 2 * b2n r.turnHeld + 4 * b2n r.turnCarried + 8 * b2n r.notReplayable + 16 * b2n r.imagePoisoned) ++
    leBytes 1 r.imgFmt ++ zerosB 4 ++ leBytes 8 r.lease.word ++ leBytes 8 r.peer.word ++ leBytes 8 r.offerDeadline ++
    leBytes 8 r.lastActive ++ leBytes 4 r.parkAfter ++ leBytes 1 r.parkTier ++ leBytes 1 r.imageSlot ++ leBytes 1 r.ownerFold ++ [0] ++
    leBytes 6 r.streamBase ++ leBytes 1 r.streamLog2 ++ [0] ++ leBytes 6 r.streamHead ++ leBytes 2 r.sessionRing ++
    leBytes 4 r.streamProducer.toNat ++ leBytes 4 r.turn ++ leBytes 8 r.textOffset ++ leBytes 4 r.context ++ leBytes 4 r.turnStart ++
    leBytes 4 r.turnGen ++ leBytes 8 r.txBase ++ leBytes 2 r.tailSheets ++ [0, 0] ++ leBytes 8 r.txHead ++ leBytes 8 r.txFirst ++
    leBytes 8 r.imageRoot ++ leBytes 4 r.imageSheets ++ zerosB 4 ++ leBytes 8 r.snapStep.toNat ++ leBytes 8 r.paramSheet ++
    leBytes 8 r.seed.toNat ++ leBytes 1 r.carry.length ++ padTo 3 r.carry ++ zerosB 4 ++ leBytes 8 r.created ++ textBytes r.text ++
    draftBytes r.draft)

/-- A record read from its 512 bytes. -/
def recordOf (l : List Byte) : Record :=
  { sessionId := BitVec.ofNat 64 (leAt l 0 8), state := leAt l 8 1, priorState := leAt l 9 1
    latencyCritical := bitOf (leAt l 10 1) 0, turnHeld := bitOf (leAt l 10 1) 1, turnCarried := bitOf (leAt l 10 1) 2
    notReplayable := bitOf (leAt l 10 1) 3, imagePoisoned := bitOf (leAt l 10 1) 4, imgFmt := leAt l 11 1
    lease := leaseOf (leAt l 16 8), peer := peerOf (leAt l 24 8), offerDeadline := leAt l 32 8, lastActive := leAt l 40 8
    parkAfter := leAt l 48 4, parkTier := leAt l 52 1, imageSlot := leAt l 53 1, ownerFold := leAt l 54 1
    streamBase := leAt l 56 6, streamLog2 := leAt l 62 1, streamHead := leAt l 64 6, sessionRing := leAt l 70 2 % 4096
    streamProducer := BitVec.ofNat 32 (leAt l 72 4), turn := leAt l 76 4, textOffset := leAt l 80 8, context := leAt l 88 4
    turnStart := leAt l 92 4, turnGen := leAt l 96 4, txBase := leAt l 100 8, tailSheets := leAt l 108 2, txHead := leAt l 112 8
    txFirst := leAt l 120 8, imageRoot := leAt l 128 8, imageSheets := leAt l 136 4, snapStep := BitVec.ofNat 64 (leAt l 144 8)
    paramSheet := leAt l 152 8, seed := BitVec.ofNat 64 (leAt l 160 8), carry := sliceB l 169 (min 3 (leAt l 168 1))
    created := leAt l 176 8, text := textOf (sliceB l 184 200), draft := draftOf (sliceB l 384 32) }

/-- Whether every field of a record fits its place, each text as long as its count says. -/
def Record.inRange (r : Record) : Bool :=
  let w (n v : Nat) : Bool := decide (v < 2 ^ n)
  let t := r.text
  w 8 r.state && w 8 r.priorState && w 8 r.imgFmt && w 18 r.lease.holder && w 2 r.lease.lstate && w 32 r.lease.epoch && w 18 r.peer.device &&
  w 6 r.peer.fold && w 32 r.peer.epoch && w 64 r.offerDeadline && w 64 r.lastActive && w 32 r.parkAfter && w 8 r.parkTier && w 8 r.imageSlot &&
  w 8 r.ownerFold && w 48 r.streamBase && w 8 r.streamLog2 && w 48 r.streamHead && w 12 r.sessionRing && w 32 r.turn && w 64 r.textOffset &&
  w 32 r.context && w 32 r.turnStart && w 32 r.turnGen && w 64 r.txBase && w 16 r.tailSheets && w 64 r.txHead && w 64 r.txFirst &&
  w 64 r.imageRoot && w 32 r.imageSheets && w 64 r.paramSheet && decide (r.carry.length ≤ 3) && w 64 r.created && t.stopMatch.length == 16 &&
  t.stopMatch.all (w 8) && w 32 t.banNode && w 8 t.forceSrc && w 8 t.forceIndex && w 16 t.forceNext && decide (t.scarry.length ≤ 3) &&
  w 16 t.countUsed && w 64 t.replayNext && w 64 t.replayEnd && decide (t.hold.length ≤ 63) && w 8 r.draft.len && w 8 r.draft.rejectRun &&
  w 16 r.draft.probeWait && w 32 r.draft.draftPos

/-- A record with every field 0. -/
def Record.zero : Record := recordOf []

/-! ### States (04 Table 4-3) -/
/-- PARKED_x for tier t. -/
def parkedIn (t : Nat) : Nat := t + 1
/-- PARKED_x. -/
def isParked (st : Nat) : Bool := decide (parkedIn 2 ≤ st) && decide (st ≤ parkedIn 4)
def stateOpen : Nat := 0
def stateWaiting : Nat := 2
/-- A rest state. -/
def isRest (st : Nat) : Bool := st == stateOpen || st == stateWaiting || isParked st
def stateActive : Nat := 1
def stateMoving : Nat := 6
def stateStranded : Nat := 7
def stateClosed : Nat := 8

/-! ### Transcript entries (04 Table 4-2) -/

/-- An entry: token, SRC, PIN, TEXT_END. -/
def txWord (token src : Nat) (pin : Bool) (textEnd : Nat) : W64 :=
  BitVec.ofNat 64 (token % 2 ^ 18 + src % 4 * 2 ^ 18 + b2n pin * 2 ^ 20 + textEnd % 2 ^ 32 * 2 ^ 32)
def txToken (w : W64) : Nat := bitsOf w.toNat 17 0
def txSrc (w : W64) : Nat := bitsOf w.toNat 19 18
def txPin (w : W64) : Bool := bitOf w.toNat 20
def txTextEnd (w : W64) : Nat := bitsOf w.toNat 63 32

/-- Local offset, at the home, of transcript entry `c` (04 R98). -/
def txAddr (r : Record) (c : Nat) : Nat := r.txBase + c / 8192 % max 1 r.tailSheets * 65536 + c % 8192 * 8

/-- Transcript entry `c` as this device has it: from the area where it is the home, else from what it has at hand. -/
def State.txEntry (s : State) (y : Sess) (c : Nat) : W64 :=
  if y.isHome then BitVec.ofNat 64 (s.num (txAddr y.record c) 8) else getND y.txCache c 0

/-! ### Division of KV among members and lists (08 R209, R212) -/

/-- Heads per page under a format, and whether keys and values have pages of their own (08 R209). -/
def groupSize (format hdim s : Nat) : Nat × Bool :=
  let q := 63488 / (256 * kvEntryBytes format hdim)
  if q = 0 then (1, true) else (min s q, false)

/-- Lists of a layer. -/
def listCount (format hdim s : Nat) : Nat :=
  let g := groupSize format hdim s
  ceilDiv s (max 1 g.1) * (if g.2 then 2 else 1)

/-- The layers an image gives KV: main, then draft (08 R240); a draft layer is divided as for a drove of one member. -/
def kvLayerCount (x : Image) : Nat := x.layers.length
/-- The share of KV layer `l` on this device. -/
def State.layerShare (s : State) (f : Nat) (x : Image) (l : Nat) : List Nat × Nat × Nat :=
  let k := ((x.layers[l]?).elim 1 (·.kvHeads))
  if l < x.layers.length - x.draftLayers then shareOf k (s.kvMembers f) (s.memberIndex f) else shareOf k 1 0

/-- The position groups of KV layer `l` that this device holds: its own, and those of the members it has taken over whose heads are its own (14 R385). -/
def State.layerGroups (s : State) (f : Nat) (x : Image) (l : Nat) : List Nat :=
  let sh := s.layerShare f x l
  sh.2.2 :: (if sh.2.1 ≤ 1 then [] else (s.fold f).snap.absorbed.filterMap (fun a =>
    let h := shareOf ((x.layers[l]?).elim 1 (·.kvHeads)) (s.kvMembers f) a.1
    if a.2 = s.memberIndex f && h.1 = sh.1 then some h.2.2 else none))

/-- LISTS of a session's page table: enough for either format of every layer. -/
def State.listsFor (s : State) (f : Nat) (x : Image) : Nat :=
  (List.range (kvLayerCount x)).foldl (fun n l =>
    let hd := hdimOf ((x.layers[l]?).elim 0 (·.hdim))
    let sh := (s.layerShare f x l).1.length
    max n (max (listCount 0 hd sh) (listCount 1 hd sh))) 1

/-- The image in slot `k` of fold `f`. -/
def State.image (s : State) (f k : Nat) : Option Image := getN (s.fold f).images k
/-- The active image. -/
def State.activeImage (s : State) (f : Nat) : Option Image := (s.fold f).active.bind (s.image f)

/-! ### The page table (08 R211) -/

/-- The entry of list `k` of layer `l`: offset of its 8 bytes in the page-table sheet. -/
def ptEntryAt (lists l k : Nat) : Nat := 64 + (l * lists + k) * 8

/-- An empty page table. -/
def emptyPageTable (layers lists count param : Nat) : List Byte :=
  padTo 64 (leBytes 2 0x5054 ++ leBytes 2 layers ++ leBytes 2 lists ++ zerosB 2 ++ leBytes 4 count ++ leBytes 4 param) ++
    (List.range (layers * lists)).flatMap (fun _ => leBytes 4 0xFFFFFFFF ++ zerosB 4)

/-- LAYERS, LISTS, the count table's and the parameter sheet's index of the page table at local offset `a`. -/
def State.ptLayers (s : State) (a : Nat) : Nat := s.num (a + 2) 2
def State.ptLists (s : State) (a : Nat) : Nat := s.num (a + 4) 2
def State.ptCount (s : State) (a : Nat) : Nat := s.num (a + 8) 4
def State.ptParam (s : State) (a : Nat) : Nat := s.num (a + 12) 4

/-- The page-list sheet of a list, if it has one, and its page count. -/
def State.ptList (s : State) (a l k : Nat) : Option Nat × Nat :=
  let o := a + ptEntryAt (s.ptLists a) l k
  let i := s.num o 4
  if i = 0xFFFFFFFF then (none, 0) else (some i, s.num (o + 4) 4)

/-- The pages of a list, in list order, as map indices of fold `f`. -/
def State.listPages (s : State) (f a l k : Nat) : List Nat :=
  match s.ptList a l k with
  | (some i, n) => (List.range n).map (fun j => s.num (s.sheetOffset f i + 64 + 4 * j) 4)
  | (none, _) => []

/-- Pages of layer `l`, list by list. -/
def State.layerPages (s : State) (f a l : Nat) : List Nat := (List.range (s.ptLists a)).flatMap (fun k => s.listPages f a l k)

/-- The page-list sheets of a table. -/
def State.listSheets (s : State) (a : Nat) : List Nat :=
  (List.range (s.ptLayers a)).flatMap (fun l => (List.range (s.ptLists a)).filterMap (fun k => (s.ptList a l k).1))

/-- The trie's sheets, from the trie directory in the parameter sheet (10 R269). -/
def State.trieSheets (s : State) (f param : Nat) : List Nat :=
  ((List.range 4).map (fun i => s.num (s.sheetOffset f param + 65408 + 4 * i) 4)).filter (· != 0xFFFFFFFF)

/-- The sheets of a session outside its KV pages: page table, parameter sheet, count table, trie, page lists, history. -/
def State.baseSheets (s : State) (f : Nat) (y : Sess) : List Nat :=
  let a := y.record.imageRoot
  [s.mapIndex f a, s.ptParam a, s.ptCount a] ++ s.trieSheets f (s.ptParam a) ++ s.listSheets a

/-- MAX_POS of a KV page (08 Table 8-2). -/
def State.maxPos (s : State) (f i : Nat) : Nat := s.num (s.sheetOffset f i + 16) 4

/-- The image sheets in the order of 04 R107: group 0 the sheets outside KV, then each layer's pages by descending MAX_POS, ascending
map index among equals. -/
def State.reviveGroups (s : State) (f : Nat) (y : Sess) : List (List Nat) :=
  let a := y.record.imageRoot
  s.baseSheets f y :: (List.range (s.ptLayers a)).map (fun l =>
    sortBy (fun i j => decide (s.maxPos f j < s.maxPos f i) || (s.maxPos f i == s.maxPos f j && decide (i ≤ j))) (s.layerPages f a l))

/-- Every sheet of a session's image on this device. -/
def State.imageSheets (s : State) (f : Nat) (y : Sess) : List Nat := (s.reviveGroups f y).flatten

/-! ### New sheets in a run (02 R508) -/

/-- The lowest run of `n` indices that new sheets may take. -/
def State.freeRun (s : State) (f n : Nat) : Option Nat :=
  let free (i : Nat) : Bool := s.indexFree f i && decide (i < s.windowSheets f)
  firstFrom (fun i => (List.range n).all (fun j => free (i + j))) (s.windowSheets f) 0

/-- `n` sheets of `kind` in T2 at a run of indices: the first index. -/
def newRun (f n kind : Nat) (s : State) : Tried (Nat × State) :=
  match s.freeRun f n with
  | none => .error (stQuota, refuseQuota f 7 s)
  | some i =>
    andThen ((List.range n).foldl (fun t j => andThen t (placeSheet f (i + j) 2 kind none false false)) (.ok s)) (fun s => .ok (i, s))

/-- `n` sheets of `kind` for pen `pen` if given, tier `t` preferred, each at the lowest free index. -/
def newSheetsIn (f t kind : Nat) (pen : Option Nat) : Nat → State → Tried (List Nat × State)
  | 0, s => .ok ([], s)
  | n + 1, s => andThen (newSheet f t kind pen false false s) (fun r => andThen (newSheetsIn f t kind pen n r.2) (fun q => .ok (r.1 :: q.1, q.2)))

/-- `n` sheets of `kind` in T2, each at the lowest free index. -/
def newSheets (f kind n : Nat) (s : State) : Tried (List Nat × State) := newSheetsIn f 2 kind none n s

/-- Bytes written to sheet `i` by the device, whatever its tier. -/
def pokeSheet (f i o : Nat) (l : List Byte) (s : State) : State := s.write (s.sheetOffset f i + o) l

end Sys2Proof.Machine
end

