-- ==== Sys2Proof/Machine/Mail.lean ====
section
/-! DEFINITION. What the members of a drove say to each other beside data and reductions (05 R126, R134, R140, 04 R96, R104, R107, R108, R121,
09 R244): the members, the messages, and how they are laid out. The spec gives what is said and in which class; the layout is the model's (log
entry 134). -/
namespace Sys2Proof.Machine

/-! ### The drove's members -/

/-- The contributing member indices, rising (13 R345). -/
def State.contributors (s : State) (f : Nat) : List Nat :=
  (List.range (s.kvMembers f)).filter (fun i => !((s.fold f).snap.absorbed.any (fun a => a.1 == i)))

/-- Device number of member `i`. -/
def State.memberDev (s : State) (f i : Nat) : Nat :=
  if i = s.memberIndex f then s.selfNo else (s.fold f).members.getD i (if i = 0 then s.rootOf f else s.selfNo)

/-- The device numbers a remote operation's TARGET names, this device among them or not. -/
def State.targets (s : State) (f target : Nat) : List Nat :=
  if target = 0 then [s.rootOf f] else if target = 1 then (s.contributors f).map (s.memberDev f) else [s.selfNo]

/-- The drove's other devices; none for a drove of one. -/
def State.others (s : State) (f : Nat) : List Nat := (s.targets f 1).filter (· != s.selfNo)

/-! ### Messages -/

/-- A message from one member to another: an owner's request for admission, ADMIT_DEFERRED's REASON and AHEAD for it, a sequence that leaves, a turn
that has failed at a member, a suspend request; a session's share and its end; the work list; a draft reservation; the layers a holder has promoted;
a revive, a park asked about, begun, stopped, done; a drain and its stop; a cut; logits for the root, and its commit record (10 R255, 09 R248); a shard's
report, and the root's word that the snapshot is over (14 R378); a device lost, a shrink done (14 R384, R385); a join's report, with the field that
differs (1 FW_MAJOR, 2 IMAGE_DIGEST), and the root's verdict (18 R463). -/
inductive Mail where
  | askSlot (session : W64) (lc : Bool)
  | deferred (session : W64) (reason ahead : Nat)
  | leave (session : W64)
  | fail (session : W64) (turn : Nat) (status : W16)
  | suspend
  | seat (b : Seat)
  | drop (session : W64)
  | list (p : Posting)
  | reserved (session : W64) (held : Bool)
  | layers (session : W64) (turn n : Nat) (status : W16)
  | revive (session : W64)
  | park (session : W64) (target : Nat) (parked go : Bool)
  | parkStop (session : W64)
  | parked (session : W64) (status : W16) (target : Nat)
  | drain (kind arg limit depth : Nat)
  | drainStop
  | cut (step slot : Nat)
  | logits (n : LogitNews)
  | record (step attempt : Nat) (verdicts : List SeqVerdict)
  | shard (step : Nat) (r : ShardReport)
  | snapped (step : Nat) (good : Bool)
  | lost (device : Nat)
  | shrunk (member : Nat)
  | joinReport (index : Nat) (status : W16) (field : Nat)
  | joinVerdict (index : Nat) (status : W16)
  deriving DecidableEq, Repr

/-- The first `n` little-endian words of 8 bytes. -/
def takeWords : Nat → List Byte → List Nat
  | 0, _ => []
  | n + 1, l => ofLe (l.take 8) :: takeWords n (l.drop 8)

/-- Bytes as words of 8 bytes, and back. -/
def wordsOf (l : List Byte) : List Nat := takeWords (ceilDiv l.length 8) l
def packWords (l : List Nat) : List Byte := l.flatMap (leBytes 8)

/-- A list in a message: its length, then its rows, each of as many words; taken off again, with what follows. -/
def putRows (l : List (List Nat)) : List Nat := l.length :: l.flatten
def takeRows (k : Nat) (w : List Nat) : List (List Nat) × List Nat := (chunksOf k (w.tail.take (w.headD 0 * k)), w.tail.drop (w.headD 0 * k))

/-- A change of the prefix index as words. -/
def PrefixOp.words : PrefixOp → List Nat
  | .register x b k => [0, x.toNat, b, k]
  | .share d k => [1, d, k, 0]
  | .drop k => [2, k, 0, 0]

def PrefixOp.ofWords (w : List Nat) : PrefixOp :=
  if w.getD 0 0 = 0 then .register (BitVec.ofNat 64 (w.getD 1 0)) (w.getD 2 0) (w.getD 3 0)
  else if w.getD 0 0 = 1 then .share (w.getD 1 0) (w.getD 2 0) else .drop (w.getD 1 0)

/-- A work list as words. -/
def Posting.words (p : Posting) : List Nat :=
  [p.number, p.attempt, b2n p.empty] ++ putRows (p.cut.toList.map (fun c => [c.1, c.2])) ++
    putRows (p.items.map (fun i => [i.dseq, i.chunk, i.first, i.limit, i.resume.elim 0 (· + 1)])) ++
    putRows (p.roster.map (fun r => [r.1, r.2.toNat])) ++ putRows (p.limits.map (fun l => [l.1, l.2])) ++ putRows (p.ops.map (·.words)) ++
    putRows (p.displaced.map (fun d => [d.1.toNat, d.2])) ++ putRows (p.drained.toList.map (fun d => [d.1, d.2.1, d.2.2.1, d.2.2.2]))

def Posting.ofWords (w : List Nat) : Posting :=
  let n (r : List Nat) (k : Nat) : Nat := r.getD k 0
  let cut := takeRows 2 (w.drop 3)
  let items := takeRows 5 cut.2
  let roster := takeRows 2 items.2
  let limits := takeRows 2 roster.2
  let ops := takeRows 4 limits.2
  let displaced := takeRows 2 ops.2
  let drained := takeRows 4 displaced.2
  { number := n w 0, attempt := n w 1, empty := n w 2 != 0, cut := cut.1.head?.map (fun r => (n r 0, n r 1))
    items := items.1.map (fun r =>
      { dseq := n r 0, chunk := n r 1, first := n r 2, limit := n r 3, resume := if n r 4 = 0 then none else some (n r 4 - 1) })
    roster := roster.1.map (fun r => (n r 0, BitVec.ofNat 64 (n r 1))), limits := limits.1.map (fun r => (n r 0, n r 1))
    ops := ops.1.map PrefixOp.ofWords, displaced := displaced.1.map (fun r => (BitVec.ofNat 64 (n r 0), n r 1))
    drained := drained.1.head?.map (fun r => (n r 0, n r 1, n r 2, n r 3)) }

/-- A commit record as words, verdict by verdict. -/
def verdictWords (v : SeqVerdict) : List Nat :=
  [v.dseq, v.k, v.a, v.ending.elim 0 (· + 1), v.stopIndex, b2n v.poisoned] ++ putRows (v.dry.map (fun t => [t.token, b2n t.forced]))

def takeVerdicts : Nat → List Nat → List SeqVerdict
  | 0, _ => []
  | n + 1, w =>
    let d := takeRows 2 (w.drop 6)
    { dseq := w.getD 0 0, k := w.getD 1 0, a := w.getD 2 0, dry := d.1.map (fun r => ⟨r.getD 0 0, r.getD 1 0 != 0⟩)
      ending := if w.getD 3 0 = 0 then none else some (w.getD 3 0 - 1), stopIndex := w.getD 4 0, poisoned := w.getD 5 0 != 0 } :: takeVerdicts n d.2

/-- The slices of one LOGITS operation as words, row by row. -/
def LogitNews.words (n : LogitNews) : List Nat :=
  [n.step, n.attempt, n.rows.length] ++ n.rows.flatMap (fun r => [r.1, r.2.1, b2n r.2.2.1] ++ putRows (r.2.2.2.map (fun v => [v.toNat])))

def takeSlices : Nat → List Nat → List (Nat × Nat × Bool × List W32)
  | 0, _ => []
  | n + 1, w =>
    let v := takeRows 1 (w.drop 3)
    (w.getD 0 0, w.getD 1 0, w.getD 2 0 != 0, v.1.map (fun r => BitVec.ofNat 32 (r.getD 0 0))) :: takeSlices n v.2

/-- A session's share as words: the record, the parameter sheet and the count table whole. -/
def Seat.words (b : Seat) : List Nat :=
  [b.kvNext, b2n b.rebuild + 2 * b2n b.handoff + 4 * b.step.elim 0 (· + 1)] ++ wordsOf (recordBytes b.record) ++ wordsOf b.params ++ wordsOf b.counts ++ b.entries.map (·.toNat)

def Seat.ofWords (w : List Nat) : Seat :=
  { kvNext := w.getD 0 0, rebuild := bitOf (w.getD 1 0) 0, handoff := bitOf (w.getD 1 0) 1, record := recordOf (packWords ((w.drop 2).take 64))
    params := packWords ((w.drop 66).take 8192), counts := packWords ((w.drop 8258).take 8192), entries := (w.drop 16450).map (BitVec.ofNat 64)
    step := if w.getD 1 0 / 4 = 0 then none else some (w.getD 1 0 / 4 - 1) }

/-- A message's kind and words. -/
def Mail.words : Mail → Nat × List Nat
  | .askSlot x lc => (1, [x.toNat, b2n lc])
  | .deferred x r a => (2, [x.toNat, r, a])
  | .leave x => (3, [x.toNat])
  | .fail x t st => (4, [x.toNat, t, st.toNat])
  | .suspend => (5, [])
  | .seat b => (6, b.words)
  | .drop x => (7, [x.toNat])
  | .list p => (8, p.words)
  | .reserved x h => (9, [x.toNat, b2n h])
  | .layers x t n st => (10, [x.toNat, t, n, st.toNat])
  | .revive x => (11, [x.toNat])
  | .park x t p g => (12, [x.toNat, t, b2n p, b2n g])
  | .parkStop x => (13, [x.toNat])
  | .parked x st t => (14, [x.toNat, st.toNat, t])
  | .drain k a l d => (15, [k, a, l, d])
  | .drainStop => (16, [])
  | .cut c k => (17, [c, k])
  | .logits n => (18, n.words)
  | .record c a vs => (19, [c, a, vs.length] ++ vs.flatMap verdictWords)
  | .shard c r => (20, [c, r.member, r.device, r.dataSheets, r.status.toNat] ++ wordsOf r.digest)
  | .snapped c g => (21, [c, b2n g])
  | .lost d => (22, [d])
  | .shrunk i => (23, [i])
  | .joinReport i st k => (24, [i, st.toNat, k])
  | .joinVerdict i st => (25, [i, st.toNat])

/-- The message of kind `k` that the words say. -/
def Mail.ofWords (k : Nat) (w : List Nat) : Option Mail :=
  let x : W64 := BitVec.ofNat 64 (w.getD 0 0)
  let n (i : Nat) : Nat := w.getD i 0
  let st (i : Nat) : W16 := BitVec.ofNat 16 (n i)
  match k with
  | 1 => some (.askSlot x (n 1 != 0))
  | 2 => some (.deferred x (n 1) (n 2))
  | 3 => some (.leave x)
  | 4 => some (.fail x (n 1) (st 2))
  | 5 => some .suspend
  | 6 => some (.seat (Seat.ofWords w))
  | 7 => some (.drop x)
  | 8 => some (.list (Posting.ofWords w))
  | 9 => some (.reserved x (n 1 != 0))
  | 10 => some (.layers x (n 1) (n 2) (st 3))
  | 11 => some (.revive x)
  | 12 => some (.park x (n 1) (n 2 != 0) (n 3 != 0))
  | 13 => some (.parkStop x)
  | 14 => some (.parked x (st 1) (n 2))
  | 15 => some (.drain (n 0) (n 1) (n 2) (n 3))
  | 16 => some .drainStop
  | 17 => some (.cut (n 0) (n 1))
  | 18 => some (.logits { source := 0, step := n 0, attempt := n 1, rows := takeSlices (n 2) (w.drop 3) })
  | 19 => some (.record (n 0) (n 1) (takeVerdicts (n 2) (w.drop 3)))
  | 20 => some (.shard (n 0) { member := n 1, device := n 2, dataSheets := n 3, digest := packWords (w.drop 5), status := st 4 })
  | 21 => some (.snapped (n 0) (n 1 != 0))
  | 22 => some (.lost (n 0))
  | 23 => some (.shrunk (n 0))
  | 24 => some (.joinReport (n 0) (st 1) (n 2))
  | 25 => some (.joinVerdict (n 0) (st 1))
  | _ => none

/-! ### Sending -/

/-- Issuer SCH (13 Table 13-1). -/
def issSch : Nat := 67

/-- Whether a message goes as a notify-write: the work list and a holder's layers (05 R126, 04 R108); the others are ordered writes. -/
def Mail.notifies : Mail → Bool
  | .list _ | .layers .. => true
  | _ => false

/-- Message `m` of fold `f` to device `d`; OPARG marks it and gives its kind. -/
def mail (f : Nat) (m : Mail) (d : Nat) (purpose : Purpose) (desc : Option (Nat × Desc)) (s : State) : Tried State :=
  let l := packWords m.words.2
  fabRequest purpose (some f) desc
    (s.requestPacket (some f) issSch (if m.notifies then fabOpNotify else fabOpWrite) d 0 l.length false false 0 0
      (BitVec.ofNat 64 (2 ^ 63 + m.words.1)) l) s

/-- A message whose answer nothing waits for. -/
def mailTo (f : Nat) (m : Mail) (d : Nat) (s : State) : State := match mail f m d .other none s with
  | .ok s => s
  | .error e => e.2

/-- To the root, where that is another device. -/
def mailRoot (f : Nat) (m : Mail) (s : State) : State := if s.isRoot f then s else mailTo f m (s.rootOf f) s

/-- To every other member. -/
def mailOthers (f : Nat) (m : Mail) (s : State) : State := (s.others f).foldl (fun s d => mailTo f m d s) s

/-- A message of a join to device `d`, issued by SYS, while drove `drove` is not yet bound (18 R463). -/
def mailJoin (f : Nat) (drove : W32) (m : Mail) (d : Nat) (s : State) : State :=
  let l := packWords m.words.2
  match fabRequest (.joinReport f) (some f) none
      { s.requestPacket (some f) issSys fabOpWrite d 0 l.length false false 0 0 (BitVec.ofNat 64 (2 ^ 63 + m.words.1)) l with drove := drove } s with
  | .ok s => s
  | .error e => e.2

/-- The message a packet is, its fragments' payload being `l`; none for one that is no message of a drove. -/
def mailOf (p : Packet) (l : List Byte) : Option Mail :=
  if (p.issuer = issSch || p.issuer = issSys) && decide (2 ^ 63 ≤ p.oparg.toNat) then Mail.ofWords (p.oparg.toNat - 2 ^ 63) (wordsOf l) else none

end Sys2Proof.Machine
end

