-- ==== Sys2Proof/Machine/SessBase.lean ====
section
/-! DEFINITION. What the session chapters share (04): SPECIFIC bytes and events, the write-back to the home, the end of a session,
and the COMPLETION that follows a turn's END chunk. -/
namespace Sys2Proof.Machine

/-! ### SPECIFIC bytes (04 Table 4-10) -/

/-- The turn layout. -/
def turnSpecific (tokens state reason stopIndex discarded replaced : Nat) : List Byte :=
  leBytes 4 tokens ++ leBytes 1 state ++ leBytes 1 reason ++ leBytes 1 stopIndex ++ leBytes 1 discarded ++ leBytes 2 (min 65535 replaced) ++ [0]

/-- The other layout: EPOCH, STATE, HOLDER. -/
def sessSpecific (epoch state holder : Nat) : List Byte := leBytes 4 epoch ++ leBytes 1 state ++ leBytes 4 holder ++ [0, 0]

/-- The other layout of a session as its record stands; zeros for one this device does not know. -/
def State.sessInfo (s : State) (x : W64) : List Byte := match s.sess x with
  | some y => sessSpecific y.record.lease.epoch y.record.state y.record.lease.holder
  | none => zerosB 11

/-- STATE of a session; 0 for one this device does not know. -/
def State.stateOf (s : State) (x : W64) : Nat := (s.sess x).elim 0 (·.record.state)

/-! ### Session events (03 R75) -/

/-- A record of a session to its session ring's queue. -/
def postSession (type : Nat) (x : W64) (status flags tag : W16) (op : Nat) (spec : List Byte) (s : State) : State :=
  match s.sess x with
  | none => s
  | some y =>
    postTo (s.ringQueue y.record.sessionRing)
      { type := type, fold := y.fold, device := false, overrun := false, status := status, flags := flags
        ring := some y.record.sessionRing, session := x, tag := tag, opcode := op, count := 0, specific := spec } s

/-- OWNERSHIP_CHANGED with CAUSE (04 Table 4-10). -/
def postOwnership (x : W64) (cause : Nat) (s : State) : State :=
  postSession evOwnershipChanged x stOk 0 0 0 ((s.sessInfo x).take 9 ++ leBytes 1 cause ++ [0]) s

/-! ### The home (04 R94) -/

/-- Record `a` with what the home itself keeps and changes taken from `b`: lease, peer, deadline, STATE, PRIOR_STATE and SFLAGS. -/
def Record.homed (a b : Record) : Record :=
  { a with state := b.state, priorState := b.priorState, latencyCritical := b.latencyCritical, turnHeld := b.turnHeld, turnCarried := b.turnCarried
           notReplayable := b.notReplayable, imagePoisoned := b.imagePoisoned, lease := b.lease, peer := b.peer, offerDeadline := b.offerDeadline }

/-- The record as the home keeps it for the owner, whatever working copy stands here beside it. -/
def Sess.homeRecord (y : Sess) : Record := match y.away with
  | none => y.record
  | some a => a.homed y.record

/-- The home's record become `new`: where this device still keeps sheets of its own, their working copy stays beside it. -/
def Sess.takeRecord (new : Record) (y : Sess) : Sess :=
  if y.isOwner || y.share then { y with away := some new, record := y.record.homed new } else { y with record := new }

/-- IMAGE_SHEETS as the owner's page table stands (04 R97). -/
def countImage (x : W64) (s : State) : State :=
  match s.sess x with
  | none => s
  | some y => if y.isOwner then s.modRec x (fun r => { r with imageSheets := (s.imageSheets y.fold y).eraseDups.length }) else s

/-- The home's record read again after a refusal (04 R112). -/
def rereadHome (x : W64) (s : State) : State :=
  match s.sess x with
  | none => s
  | some y =>
    if y.isHome then s else
    match fabRequest (.record x) (some y.fold) none
        (s.requestPacket (some y.fold) issSess fabOpRead (sidDevice x) 0 512 false true y.record.lease.epoch x 0 []) s with
    | .ok s => s
    | .error e => e.2

/-- The ranges of a record that the owner is authoritative for and STATE, PRIOR_STATE and SFLAGS: (offset, bytes). -/
def writeBackRanges : List (Nat × Nat) := [(8, 4), (40, 14), (56, 24), (88, 12), (128, 12), (152, 20), (184, 232)]

/-- A write to bytes of the home record of `x`, sent to a home that is another device. A write that cannot be sent is lost: the
next operation on the session meets the same status. -/
def writeHome (x : W64) (purpose : Purpose) (off n : Nat) (s : State) : State :=
  match s.sess x with
  | none => s
  | some y =>
    if y.isHome then s else
    let l := sliceB (recordBytes y.record) off n
    match fabRequest purpose (some y.fold) none
        (s.requestPacket (some y.fold) issSess fabOpWrite (sidDevice x) off n false true y.record.lease.epoch x 0 l) s with
    | .ok s => s
    | .error e => e.2

/-- The write-back of a lifecycle transition or a turn's end (04 R94). -/
def writeBack (x : W64) (s : State) : State := writeBackRanges.foldl (fun s r => writeHome x (.record x) r.1 r.2 s) (countImage x s)

/-- STATE set, and LAST_ACTIVE on an entry to OPEN or WAITING (04 Table 4-1), written back. -/
def setState (x : W64) (st : Nat) (s : State) : State :=
  writeBack x (s.modRec x (fun r => { r with state := st, lastActive := if st = stateOpen || st = stateWaiting then s.now else r.lastActive }))

/-! ### How a recovery completes (04 R117, R123, 14 R382, R383) -/

/-- What a restore has chosen for session `x`, 0 for all of them: the step, its status, its report entries (14 R382). -/
def State.restored (s : State) (f x : Nat) : W64 × W16 × Nat := getND (s.fold f).snap.restores x (BitVec.allOnes 64, stOk, 0)

/-- SPECIFIC bytes of a restore (14 R382). -/
def restoreSpecific (r : W64 × W16 × Nat) : List Byte := leBytes 8 r.1.toNat ++ leBytes 2 (min 4096 r.2.2) ++ [0]

/-- The COMPLETION of a restore of session `x`, 0 for all: its own status where nothing else went wrong (14 R382, R383). -/
def finishRestore (f x : Nat) (d : Desc) (st flags : W16) (s : State) : State :=
  let r := s.restored f x
  complete opSnapshotRestore d (if st == stOk then r.2.1 else st) flags (restoreSpecific r)
    (s.modSnap f (fun q => { q with restores := delN q.restores x }))

/-- Whether a status reports a lease or epoch check (04 R111). -/
def leaseStatus (st : W16) : Bool := st == stNotOwner || st == stStaleEpoch

/-- SPECIFIC bytes of a recovery's COMPLETION: the turn layout with END_REASON 8 where it stands in for a turn in progress and a check other than
the lease's has failed (04 R123). -/
def recoverSpecific (y : Sess) (st : W16) (state : Nat) (l : Lease) : List Byte :=
  if y.record.priorState == stateActive && st != stOk && !leaseStatus st then turnSpecific y.record.turnGen state 8 0 0 0
  else sessSpecific l.epoch state l.holder

/-- The COMPLETION of a recovery's descriptor, if it has one, with its SPECIFIC bytes. -/
def recoverDone (x : W64) (m : Move) (st flags : W16) (spec : List Byte) (s : State) : State :=
  match m.desc with
  | some d => if m.op = opSnapshotRestore then finishRestore m.fold x.toNat d st flags s else complete m.op d st flags spec s
  | none => s

/-- SPECIFIC bytes of a recovery of session `x` that completes with `st`, the session as it stands. -/
def State.recoverInfo (s : State) (x : W64) (st : W16) : List Byte := match s.sess x with
  | some y => recoverSpecific y st y.record.state y.record.lease
  | none => zerosB 11

/-- A restore of every session ends once the last one it began has (14 R383). -/
def settleRestore (f : Nat) (s : State) : State :=
  let q := (s.fold f).snap
  match (if q.state = 3 then q.job else none) with
  | none => s
  | some d =>
    if s.sessions.any (fun p => p.2.move.any (fun m => m.op == opSnapshotRestore && m.desc.isNone && m.fold == f)) ||
        s.fab.outstanding.any (fun m => m.2.fold == some f && m.2.desc.isNone && m.2.packet.op == fabOpRead && (match m.2.purpose with
          | .leaseRecover _ => true
          | _ => false)) then s
    else finishRestore f 0 d stOk 0 (s.modSnap f (fun q => { q with state := 0, job := none, kept := [] }))

/-- The re-prefill of a recovery with no turn in progress is over (04 R117): PRIOR_STATE and the COMPLETION; after a failure the session
stays open to another recovery, with IMAGE_POISONED (log entry 54). -/
def endRebuild (x : W64) (st : W16) (s : State) : State :=
  match s.sess x with
  | none => s
  | some y =>
    let good := st == stOk
    let rest := if good && y.record.priorState == stateWaiting then stateWaiting else stateOpen
    let s := setState x rest (s.modSess x (fun y => { y with turn := none, move := none, record := { y.record with imagePoisoned := !good } }))
    match y.move with
    | none => s
    | some m => settleRestore m.fold (recoverDone x m st (if st == stPoison then flRestarted ||| flPoisoned else flRestarted) (s.recoverInfo x st) s)

/-! ### Releasing what a session holds -/

/-- The wet sheets reserved for a session and its history sheet discarded (09 R242, R244). -/
def releaseDraft (x : W64) (s : State) : State :=
  match s.sess x with
  | none => s
  | some y =>
    (discardAll y.fold (y.wet.getD [] ++ y.history.toList) s).modSess x (fun y => { y with wet := none, history := none })

/-- The image sheets of a session discarded, shared ones losing a reference (02 R33, R34); an owner's shares on the other members go with them (04
R96). -/
def dropImage (x : W64) (s : State) : State :=
  match s.sess x with
  | none => s
  | some y =>
    let s := releaseDraft x (if y.isOwner then mailOthers y.fold (.drop x) s else s)
    (s.imageSheets y.fold y).eraseDups.foldl (fun s i => dropRef y.fold i s) s

/-- The share of a session that this device has held for another owner given up (04 R96). -/
def dropShare (x : W64) (s : State) : State :=
  match s.sess x with
  | none => s
  | some y =>
    if !y.share then s else
    let s := dropImage x s
    if y.isHome then s.modSess x (fun y => { y with share := false, turn := none, closing := none, record := y.homeRecord, away := none })
    else { s with sessions := delN s.sessions x.toNat }

/-- The sheets of the transcript area as map indices. -/
def State.txSheets (s : State) (y : Sess) : List Nat :=
  (List.range y.record.tailSheets).map (fun k => s.mapIndex (sidFold y.record.sessionId) y.record.txBase + k)

/-- The home's part of a close: transcript area discarded, record gone (04 R95, Table 4-4). -/
def closeHome (x : W64) (s : State) : State :=
  match s.sess x with
  | none => s
  | some y =>
    let s := if y.isHome then discardAll (sidFold x) (s.txSheets y) s else s
    { s with sessions := delN s.sessions x.toNat }

/-- A park's or revive's descriptor that the session's end cuts short: ST_BUSY (log entry 34). -/
def dropJobs (x : W64) (s : State) : State :=
  match s.sess x with
  | none => s
  | some y =>
    let s := match y.park.bind (·.desc) with
      | some d => complete opSessionPark d stBusy 0 (s.sessInfo x) s
      | none => s
    let s := match y.revive.bind (·.desc) with
      | some d => complete opSessionRevive d stBusy 0 (s.sessInfo x) s
      | none => s
    s.modSess x (fun y => { y with park := none, revive := none })

/-- The session ends (04 R95, R101, R123): sheets discarded, SESSION_ENDED, and the SESSION_CLOSE that asked for it. -/
def endSession (x : W64) (c : Closing) (s : State) : State :=
  match s.sess x with
  | none => s
  | some y =>
    let s := dropImage x (dropJobs x s)
    let s := postSession evSessionEnded x c.status 0 0 0 (leBytes 4 y.record.turn ++ leBytes 1 c.reason ++ zerosB 6) s
    let s := s.modRec x (fun r => { r with state := stateClosed, lease := { r.lease with lstate := 3, holder := sidDevice x } })
    let spec := s.sessInfo x
    let s := closeHome x (if c.reason = 1 then s else writeHome x (.record x) 8 1 s)
    match c.desc with
    | some d => complete opSessionClose d c.status 0 spec s
    | none => s

/-- A closing session with no turn left ends. -/
def settleClosing (x : W64) (s : State) : State :=
  match s.sess x with
  | some y => match y.closing with
    | some c => if y.turn.isNone && y.endings.isEmpty then endSession x c s else s
    | none => s
  | none => s

/-- The COMPLETION of a turn that has ended, and what follows it (03 R91, 04 R101, R132). -/
def finishEnding (x : W64) (e : Ending) (s : State) : State :=
  let s := s.modSess x (fun y => { y with endings := dropFirst e y.endings })
  let s := complete e.opcode e.desc e.status e.flags e.spec s
  let s := match e.waiting with
    | some i => postSession evSessionWaiting x stOk 0 0 0 (leBytes 4 e.turn ++ leBytes 1 i ++ zerosB 6) s
    | none => s
  let s := match e.cancel with
    | some d => complete opTurnCancel d stOk 0 (leBytes 1 1 ++ zerosB 10) s
    | none => s
  settleClosing x s

/-- The ending of turn `n`, completed if it is there. -/
def finishTurn (x : W64) (n : Nat) (s : State) : State :=
  match (s.sess x).bind (fun y => y.endings.find? (fun e => e.turn == n)) with
  | some e => finishEnding x e s
  | none => s

end Sys2Proof.Machine
end

