-- ==== Sys2Proof/Machine/Stream.lean ====
section
/-! DEFINITION. Stream queues and stream rings (03 R80 to R90, R507), and the text a resend sends again (10 R280). -/
namespace Sys2Proof.Machine

/-! ### Packets and banks (03 R86, R87, R89) -/

/-- Even parity of a word. -/
def evenParity (w : Nat) : Bool := (popc 64 w) % 2 == 1

/-- Text as the words of a packet; `bad` says of each byte whether its source was poisoned, and tags its word (03 R88). -/
def streamWords (l : List Byte) (bad : List Bool) : List StreamWord :=
  (List.range (ceilDiv l.length 8)).map (fun i =>
    let v := leAt l (8 * i) 8
    ⟨BitVec.ofNat 64 v, evenParity v, ((bad.drop (8 * i)).take 8).any id⟩)

/-- The text of a packet. -/
def packetText (p : StreamPkt) : List Byte := (p.words.flatMap (fun w => leBytes 8 w.data.toNat)).take p.bytes

/-- Words held by a bank. -/
def bankWords (b : StreamBank) : Nat := sumOn (fun p : StreamPkt => p.words.length) b.packets

/-- The filling bank and the draining bank of a pen. -/
def Pen.filling (x : Pen) : StreamBank := if x.fillBank = 0 then x.bank0 else x.bank1
def Pen.draining (x : Pen) : StreamBank := if x.fillBank = 0 then x.bank1 else x.bank0
def Pen.setFilling (x : Pen) (b : StreamBank) : Pen := if x.fillBank = 0 then { x with bank0 := b } else { x with bank1 := b }
def Pen.setDraining (x : Pen) (b : StreamBank) : Pen := if x.fillBank = 0 then { x with bank1 := b } else { x with bank0 := b }

/-- Whether a bank takes packet `p`. -/
def bankTakes (b : StreamBank) (p : StreamPkt) : Bool :=
  !b.closed && decide (b.packets.length < 16) && decide (bankWords b + p.words.length ≤ 256)

/-- `p` put into the filling bank of pen `n` word by word, with the STREAM_LEVEL event as its occupancy reaches the level (03 R76, R89). -/
def fillPacket (n : Nat) (p : StreamPkt) (s : State) : State :=
  let b := (s.pen n).filling
  let lvl := s.act (rPenStreamLevel n)
  let w := bankWords b + p.words.length
  let hit := decide (0 < lvl) && decide (bankWords b < lvl) && decide (lvl ≤ w) && !b.levelDone
  let s' := s.modPen n (fun x => x.setFilling
    { b with packets := b.packets ++ [p], since := some (b.since.getD s.now), levelDone := b.levelDone || hit })
  match s.penFold n with
  | some f => if hit then postFold evStreamLevel f stOk 0 (leBytes 1 n ++ leBytes 1 (s.pen n).fillBank ++ leBytes 2 lvl ++ zerosB 7) s' else s'
  | none => s'

/-- `p` released to pen `n`'s stream queue; it waits while the bank cannot take it (03 R87). -/
def pushPacket (n : Nat) (p : StreamPkt) (s : State) : State :=
  if (s.pen n).waiting.isEmpty && bankTakes (s.pen n).filling p then fillPacket n p s
  else s.modPen n (fun x => { x with waiting := x.waiting ++ [p] })

/-- Waiting packets put into the filling bank while it takes them. -/
def pullWaiting (n : Nat) : Nat → State → State
  | 0, s => s
  | k + 1, s =>
    match (s.pen n).waiting with
    | [] => s
    | p :: t =>
      if bankTakes (s.pen n).filling p then pullWaiting n k (fillPacket n p (s.modPen n (fun x => { x with waiting := t }))) else s

/-- The filling bank closed at the end of a step's release (03 R87). -/
def closeBank (n : Nat) (s : State) : State :=
  s.modPen n (fun x => if x.filling.packets.isEmpty then x else x.setFilling { x.filling with closed := true })

/-- A bank without the packets of session `x`; one that is left empty is open again. -/
def StreamBank.without (x : W64) (b : StreamBank) : StreamBank :=
  let l := b.packets.filter (fun p => p.session != x)
  if l.isEmpty then { b with packets := [], closed := false, since := none } else { b with packets := l }

/-- The packets of session `x` dropped from both banks, from what waits, and from what is being drained (03 R85, R90). -/
def dropPackets (x : W64) (s : State) : State :=
  let keep (l : List StreamPkt) : List StreamPkt := l.filter (fun p => p.session != x)
  { s with pens := s.pens.map (fun p => (p.1, { p.2 with
      bank0 := p.2.bank0.without x
      bank1 := p.2.bank1.without x
      waiting := keep p.2.waiting
      reread := p.2.reread.filter (fun q => q.session != x) })) }

/-- What a swap lets in of the packets that waited; the release they are the end of has ended, so the bank that takes the last of them is closed
(03 R87). -/
def refillBank (n : Nat) (s : State) : State :=
  if (s.pen n).waiting.isEmpty then s else
  let t := pullWaiting n (s.pen n).waiting.length s
  if (t.pen n).waiting.isEmpty then closeBank n t else t

/-- STREAM_BANK_SWAP (03 R87): the draining bank is empty, and the filling one is full, closed, or has held data long enough. -/
def execStreamBankSwap (n : Nat) (s : State) : Host.Outcome State Fault Refusal :=
  .next (serve s fun s =>
    let x := s.pen n
    let b := x.filling
    let full := decide (16 ≤ b.packets.length) || decide (256 ≤ bankWords b) || (match x.waiting with
      | p :: _ => !bankTakes b p
      | [] => false)
    let old := match b.since with
      | some t => decide (t * 1000 + s.act (rPenStreamSwapWait n) ≤ s.now * 1000)
      | none => false
    onlyIf (x.draining.packets.isEmpty && x.reread.isNone && !b.packets.isEmpty && (full || b.closed || old)) s
      (refillBank n
        (s.modPen n (fun x => (x.setDraining StreamBank.reset) |> fun x => { x with fillBank := 1 - x.fillBank }))))

/-! ### Stream rings (03 R80 to R82) -/

/-- Units a chunk of `n` text bytes takes. -/
def chunkUnits (n : Nat) : Nat := ceilDiv (16 + n) 64

/-- The units a wrap chunk fills before a chunk of `u` units. -/
def wrapUnits (r : Record) (u : Nat) : Nat :=
  let left := 2 ^ r.streamLog2 - r.streamProducer.toNat % 2 ^ r.streamLog2
  if left < u then left else 0

/-- Whether the cached head leaves room for a chunk of `n` text bytes. -/
def hasRoom (y : Sess) (n : Nat) : Bool :=
  let u := chunkUnits n
  decide ((y.record.streamProducer - y.cachedHead).toNat + u + wrapUnits y.record u ≤ 2 ^ y.record.streamLog2)

/-- A chunk's bytes (03 Table 3-10). `flags` without PHASE. -/
def chunkBytes (r : Record) (units flags turn offset : Nat) (text : List Byte) : List Byte :=
  let phase := b2n (r.streamProducer.toNat / 2 ^ r.streamLog2 % 2 == 0)
  padTo (units * 64) (leBytes 2 text.length ++ leBytes 1 units ++ leBytes 1 (flags + 128 * phase) ++ leBytes 4 turn ++ leBytes 8 offset ++ text)

/-- One chunk written at the producer: units 1 onward, then unit 0 (03 R82). -/
def putChunk (x : W64) (units flags turn offset : Nat) (text : List Byte) (s : State) : State :=
  match s.sess x with
  | none => s
  | some y =>
    let r := y.record
    let l := chunkBytes r units flags turn offset text
    let a := r.streamBase + r.streamProducer.toNat % 2 ^ r.streamLog2 * 64
    let s := if units ≤ 1 then s else s.hostWrite y.fold (a + 64) (l.drop 64)
    (s.hostWrite y.fold a (l.take 64)).modRec x (fun r => { r with streamProducer := r.streamProducer + BitVec.ofNat 32 units })

/-- TAG, OPCODE and the turn flags of turn `n` of a session, running or ending; zeros for one that has ended: a STREAM_READY of text sent again is
said to be of that turn (03 R84, log entry 166). -/
def turnIdent (y : Sess) (n : Nat) : W16 × Nat × W16 :=
  match y.endings.find? (fun e => e.turn == n) with
  | some e => (e.desc.tag, e.opcode, e.flags)
  | none => match y.turn with
    | some t => if y.record.turn = n then (t.desc.tag, t.opcode, t.flags) else (0, 0, 0)
    | none => (0, 0, 0)

/-- STREAM_READY after a chunk of turn `n`: bits of byte 30, TEXT_END (03 R76, R78). -/
def postReady (x : W64) (n bits textEnd : Nat) (poison : Bool) (s : State) : State :=
  match s.sess x with
  | none => s
  | some y =>
    let id := turnIdent y n
    let fl := (if bits % 2 = 1 then id.2.2 &&& 0x000F else 0) ||| (if poison then flPoisoned else 0)
    postSession evStreamReady x stOk fl id.1 id.2.1 (leBytes 4 y.record.streamProducer.toNat ++ leBytes 6 textEnd ++ leBytes 1 bits) s

/-- A chunk with the wrap chunk it needs and its STREAM_READY. `bits` are those of STREAM_READY byte 30. -/
def writeChunk (x : W64) (flags turn offset : Nat) (text : List Byte) (bits textEnd : Nat) (s : State) : State :=
  match s.sess x with
  | none => s
  | some y =>
    let u := chunkUnits text.length
    let w := wrapUnits y.record u
    let s := if 0 < w then putChunk x w 8 turn offset [] s else s
    postReady x turn bits textEnd (flags % 2 == 1) (putChunk x u flags turn offset text s)

/-- POISONED noted for the COMPLETION of the turn whose delivered text held poison (03 R78). -/
def notePoison (x : W64) (n : Nat) (s : State) : State :=
  s.modSess x (fun y =>
    { y with endings := y.endings.map (fun e => if e.turn = n then { e with flags := e.flags ||| flPoisoned } else e)
             turn := y.turn.map (fun t => if y.record.turn = n then { t with flags := t.flags ||| flPoisoned } else t) })

/-- A live packet written as its chunk (03 R81, R82); after the chunk with END the turn completes. -/
def writeLive (x : W64) (p : StreamPkt) (poison : Bool) (s : State) : State :=
  let text := packetText p
  let s := if poison then notePoison x p.turn s else s
  let s := writeChunk x (b2n poison + 2 * b2n p.endOfTurn + 16 * b2n p.dropped) p.turn p.offset text (b2n p.endOfTurn)
    (p.offset + text.length) s
  if p.endOfTurn then finishTurn x p.turn s else s

/-- The head word of a session's stream ring re-read. -/
def rereadHead (x : W64) (s : State) : State :=
  match s.sess x with
  | none => s
  | some y => match s.hostRead y.fold y.record.streamHead 4 with
    | .ok l => s.modSess x (fun y => { y with cachedHead := BitVec.ofNat 32 (ofLe l), headAt := some s.now })
    | .error _ => s

/-! ### END chunks that wait (03 R85, R507) -/

/-- The waiting END chunks written while the ring has room: header only, END, and DROPPED in an overflow or for a cancelled turn. One that falls due
while a resend runs outside an overflow waits for the resend, which covers the turn's text (log entry 153). -/
def tryEnd (x : W64) : Nat → State → State
  | 0, s => s
  | fuel + 1, s =>
    match s.sess x with
    | none => s
    | some y =>
      match y.endWait with
      | [] => s
      | p :: t =>
        if (y.resend.isSome && y.overflow.isNone) || !hasRoom y 0 then s
        else
          let bits := 1 + 2 * b2n y.overflow.isSome
          let textEnd := y.overflow.getD p.offset
          let s := s.modSess x (fun y => { y with endWait := t })
          let s := writeChunk x (2 + 16 * b2n (p.dropped || y.overflow.isSome)) p.turn p.offset [] bits textEnd s
          tryEnd x fuel (finishTurn x p.turn s)

/-- An END chunk of turn `n` at output offset `o` asked for. -/
def askEnd (x : W64) (n o : Nat) (dropped : Bool) (s : State) : State :=
  let p : StreamPkt := { session := x, turn := n, words := [], bytes := 0, offset := o, endOfTurn := true, dropped := dropped }
  let s := s.modSess x (fun y => { y with endWait := y.endWait ++ [p] })
  tryEnd x ((s.sess x).elim 0 (fun y => y.endWait.length)) s

/-- A packet dropped by an overflow or covered by a resend; the end of its turn is still delivered. -/
def dropLive (x : W64) (p : StreamPkt) (s : State) : State :=
  if p.endOfTurn then
    askEnd x p.turn (p.offset + p.bytes) p.dropped s
  else s

/-! ### The text again (10 R280) -/

/-- The offset that a transcript entry's low 32 bits name, at or below `top`. -/
def nearOffset (top lo : Nat) : Nat :=
  let c := top / 2 ^ 32 * 2 ^ 32 + lo
  if c ≤ top then c else c - 2 ^ 32

/-- Where the text that needs no entry below `first` begins (03 R84): 0 while every entry is held. -/
def resendFloor (s : State) (y : Sess) : Nat :=
  let r := y.record
  if r.txFirst = 0 then 0 else
  let w := s.txEntry y r.txFirst
  let e := nearOffset (r.textOffset + 64) (txTextEnd w)
  if txSrc w < 2 then e
  else
    let l := (tokenText s y.fold (s.params r.paramSheet) (txToken w)).dropWhile (fun b => b.toNat / 64 == 2)
    e - sumOn (fun c : TextChar => (utf8Of c.point).length) (utf8Decode l.length l).1

/-- What regeneration has reached: the detokeniser, the offset of its determined text's end, and the text so far as (offset, bytes). -/
structure Regen where
  state : TextState
  det : Nat
  out : List (Nat × List Byte)

/-- The detokeniser with nothing held. -/
def TextState.clear (x : TextState) : TextState := { x with stopMatch := List.replicate 16 0, scarry := [], hold := [] }

/-- The held text released as at a turn's end. -/
def Regen.finish (g : Regen) : Regen :=
  let r := finishText g.state
  ⟨r.1, g.det - g.state.hold.length + r.2.length, g.out ++ [(g.det - g.state.hold.length, r.2)]⟩

/-- One transcript entry regenerated. -/
def Regen.step (s : State) (f : Nat) (p : Params) (top : Nat) (g : Regen) (w : W64) : Regen :=
  let e := nearOffset (top + 64) (txTextEnd w)
  if txSrc w < 2 then { (g.finish) with det := e }
  else
    let bytes := tokenText s f p (txToken w)
    let o := detok p bytes g.state
    let g' : Regen := ⟨o.state, ((g.det : Int) + o.added).toNat, g.out ++ [(g.det - g.state.hold.length, o.released)]⟩
    if g'.det = e then g'
    else
      let h := g.finish
      let o := detok p bytes h.state.clear
      let d := (o.added).toNat
      ⟨o.state, e, h.out ++ [(e - d, o.released)]⟩

/-- The released text from `from_` on, as the transcript gives it. -/
def regenerate (s : State) (y : Sess) (from_ : Nat) : List Byte :=
  let r := y.record
  let p := s.params r.paramSheet
  let ws := (List.range (r.txHead - r.txFirst)).map (fun i => s.txEntry y (r.txFirst + i))
  let g := ws.foldl (Regen.step s y.fold p r.textOffset) ⟨r.text.clear, resendFloor s y, []⟩
  let all := g.finish.out
  (List.range (r.textOffset - from_)).map (fun i =>
    match all.find? (fun c => c.1 ≤ from_ + i && from_ + i < c.1 + c.2.length) with
    | some c => c.2.getD (from_ + i - c.1) 0
    | none => 0)

/-- Whether every entry a resend from here needs is at hand. -/
def haveEntries (y : Sess) : Bool := y.isHome || (List.range (y.record.txHead - y.record.txFirst)).all (fun i => hasN y.txCache (y.record.txFirst + i))

/-- The transcript area's entries asked of a home that is another device (03 R84, 04 R116), for a STREAM_RESEND if `desc` gives one. -/
def askTranscript (x : W64) (desc : Option Desc) (s : State) : Tried State :=
  match s.sess x with
  | none => .ok s
  | some y =>
    fabRequest (.transcript x) (some y.fold) (desc.map (fun d => (opStreamResend, d)))
      (s.requestPacket (some y.fold) issSess fabOpRead (sidDevice x) y.record.txBase (y.record.tailSheets * 65536) false false
        y.record.lease.epoch x 0 []) s

/-- Bytes of `l`, at most `n`, cut at a character boundary. -/
def cutText (n : Nat) (l : List Byte) : List Byte :=
  let t := l.take n
  if l.length ≤ n then t else
    let d := utf8Decode t.length t
    if d.2.length < t.length then t.take (t.length - d.2.length) else t

/-- The turn whose text holds offset `o`, as this device knows it; a free value where it does not (log entry 3). -/
def turnAt (y : Sess) (o : Nat) (s : State) : Nat × State :=
  match (y.turnText.filter (fun p => p.2 ≤ o)).getLast? with
  | some p => (p.1, s)
  | none => let (r, s) := s.draw; (r % 2 ^ 32, s)

/-- Resent chunks written while there is room; the last is followed by RESEND_DONE, which ends any overflow (03 R84). -/
def pumpResend (x : W64) : Nat → State → State
  | 0, s => s
  | fuel + 1, s =>
    match s.sess x with
    | none => s
    | some y =>
      match y.resend with
      | none => s
      | some o =>
        if y.record.textOffset ≤ o then
          let s := s.modSess x (fun y => { y with resend := none, overflow := none })
          postReady x y.record.turn 4 y.record.textOffset false s
        else if !haveEntries y then s
        else
          let (n, s) := turnAt y o s
          let next := ((y.turnText.filter (fun p => o < p.2)).head?).elim y.record.textOffset (·.2)
          let t := cutText (min 2040 (next - o)) (regenerate s y o)
          if !hasRoom y t.length then s
          else
            let s := writeChunk x 4 n o t 0 (o + t.length) s
            pumpResend x fuel (s.modSess x (fun y => { y with resend := some (o + max 1 t.length) }))

/-- What a session's link writer can do without re-reading the head: END chunks, the resend, then the END chunks that waited for it. -/
def pumpSession (x : W64) (s : State) : State :=
  let ends (s : State) : State := tryEnd x ((s.sess x).elim 0 (fun y => y.endWait.length)) s
  let s := ends s
  ends (pumpResend x ((s.sess x).elim 0 (fun y => y.record.textOffset - y.resend.getD y.record.textOffset + 2)) s)

/-! ### The link writer's rows -/

/-- The draining bank of pen `n` without its first packet. -/
def popPacket (n : Nat) (s : State) : State :=
  s.modPen n (fun x => x.setDraining { x.draining with packets := x.draining.packets.drop 1 })

/-- The words of a packet read: parity mismatches counted; whether any word is poisoned (03 R88). -/
def readWords (n : Nat) (p : StreamPkt) (s : State) : Bool × State :=
  let bad := (p.words.filter (fun w => evenParity w.data.toNat != w.parity)).length
  (decide (0 < bad) || p.words.any (·.poison), if bad = 0 then s else s.count (rPenStreamParity n) bad)

/-- STREAM_CHUNK_WRITE (03 R81 to R83): the next packet of pen `n`'s draining bank. -/
def execStreamChunkWrite (n : Nat) (s : State) : Host.Outcome State Fault Refusal :=
  .next (serve s fun s =>
    if (s.pen n).reread.isSome then s else
    match (s.pen n).draining.packets with
    | [] => s
    | p :: _ =>
      match s.sess p.session with
      | none => popPacket n s
      | some y =>
        if y.overflow.isSome || y.resend.isSome then dropLive p.session p (popPacket n s)
        else if hasRoom y p.bytes then
          let (poison, s) := readWords n p s
          writeLive p.session p poison (popPacket n s)
        else s.modPen n (fun x => { x with reread := some p }))

/-- STREAM_HEAD_REREAD (03 R83): the head word read once for the packet that found too little space; if it is still short, the
stream has overflowed. -/
def execStreamHeadReread (n : Nat) (s : State) : Host.Outcome State Fault Refusal :=
  .next (serve s fun s =>
    match (s.pen n).reread with
    | none => s
    | some p =>
      let s := rereadHead p.session (popPacket n (s.modPen n (fun x => { x with reread := none })))
      match s.sess p.session with
      | none => s
      | some y =>
        if hasRoom y p.bytes then
          let (poison, s) := readWords n p s
          writeLive p.session p poison s
        else
          let s := s.modSess p.session (fun y => { y with overflow := some p.offset })
          dropLive p.session p (postReady p.session p.turn 2 p.offset false s))

/-- STREAM_HEAD_POLL (03 R84, R85, R507): the head word re-read for a resend or an END chunk that waits for room. -/
def execStreamHeadPoll (x : W64) (s : State) : Host.Outcome State Fault Refusal :=
  .next (serve s fun s =>
    match s.sess x with
    | none => s
    | some y => onlyIf ((y.resend.isSome || !y.endWait.isEmpty) && pollDue y.headAt s.now) s (pumpSession x (rereadHead x s)))

end Sys2Proof.Machine
end

