-- ==== Sys2Proof/Machine/Admit.lean ====
section
/-! DEFINITION. Admission requests (05 R129 to R133), the lease and state checks of session descriptors (04 R102, R111, R112),
transcript writes (04 R98 to R100), and the sheets a park or revive moves (04 R104, R107). -/
namespace Sys2Proof.Machine

/-! ### The sequence table and the admission queue -/

/-- Slots of a fold (05 R125). -/
def Fold.seqSlots (x : Fold) : Nat := 512 * x.penList.length

/-- Requests that stand in the admission queue. -/
def Fold.queued (x : Fold) : List AdmitReq := x.queue.filter (fun q => !q.granted)

/-- The order of requests: those with a slot promised, then latency-critical ones, each by arrival (05 R130). -/
def reqLe (a b : AdmitReq) : Bool :=
  if a.granted != b.granted then a.granted
  else if a.lc != b.lc then a.lc
  else decide (a.arrival ≤ b.arrival)

/-- A request put into its place. -/
def putReq (f : Nat) (q : AdmitReq) (s : State) : State := s.modFold f (fun x => { x with queue := insertBy reqLe q x.queue })

/-- Whether a request that arrives now has a free slot, beside those promised and those queued before it. -/
def Fold.hasSlot (x : Fold) : Bool := decide (x.seqs.length + x.queue.length < x.seqSlots + x.victims.length)

/-- Whether the admission queue takes `n` more requests beside the victims chosen (05 R131). -/
def State.queueRoom (s : State) (f n : Nat) : Bool :=
  decide ((s.fold f).queued.length + (s.fold f).victims.length + n ≤ s.act (rSchAdmitQueue f))

/-- `g` applied to the counters of a class. -/
def modClass (f : Nat) (lc : Bool) (g : ClassCounters → ClassCounters) (s : State) : State :=
  s.modFold f (fun x => if lc then { x with lcCount := g x.lcCount } else { x with beCount := g x.beCount })

/-- ADMIT_DEFERRED (05 R133), counted. -/
def postDeferred (f : Nat) (x : W64) (lc : Bool) (reason ahead : Nat) (tag : W16) (op : Nat) (s : State) : State :=
  modClass f lc (fun c => { c with deferrals := c.deferrals + 1 })
    (postSession evAdmitDeferred x stDeferred 0 tag op
      (leBytes 1 reason ++ leBytes 1 (b2n lc) ++ [0, 0] ++ leBytes 2 ahead ++ leBytes 4 ((s.fold f).stepNo) ++ [0]) s)

/-- Requests ahead of one of class `lc` that arrives at `t`. -/
def Fold.ahead (x : Fold) (lc : Bool) (t : Nat) : Nat :=
  (x.queued.filter (fun q => if lc then q.lc && decide (q.arrival ≤ t) else q.lc || decide (q.arrival ≤ t))).length

/-! ### Sheets a park moves (04 R104) -/

/-- The image sheets of session `y` that a park to tier `t` moves. -/
def State.parkSheets (s : State) (y : Sess) (t : Nat) (fromParked : Bool) : List Nat :=
  ((s.imageSheets y.fold y).eraseDups).filter (fun i =>
    let e := (s.fold y.fold).sheet i
    (s.fold y.fold).backed i && decide (e.refs ≤ 1) && !e.wet && (if fromParked then e.tier != t else decide (e.tier < t)))

/-- The check of R104 step 2. -/
def State.parkRoom (s : State) (y : Sess) (t : Nat) (fromParked : Bool) : Bool :=
  decide ((s.parkSheets y t fromParked).length ≤ s.room y.fold t)

/-! ### Requests (05 R129, R131) -/

/-- The best-effort entries that may be displaced, smallest LAST_STEP first, then DSEQ. -/
def Fold.candidates (x : Fold) : List (Nat × SeqEntry) :=
  sortBy (fun a b => decide (a.2.lastStep < b.2.lastStep) || (a.2.lastStep == b.2.lastStep && decide (a.1 ≤ b.1)))
    (x.seqs.filter (fun p => !p.2.lc && (p.2.phase == 1 || p.2.phase == 2 || p.2.phase == 3) && !x.victims.any (fun v => v.1 == p.1)))

/-- The victim a latency-critical request takes: the first candidate whose park the quota admits. -/
def State.victim (s : State) (f : Nat) : Option Nat :=
  ((s.fold f).candidates.find? (fun p => (s.sess p.2.session).any (fun y => s.parkRoom y y.record.parkTier false))).map (·.1)

/-- What the root makes of a request for admission: a slot promised, a place in the queue with REASON and AHEAD, or one that a message of its own
announces to the owner, or no room. -/
inductive Placed where
  | granted
  | queued (reason ahead : Nat)
  | announced
  | full
  deriving DecidableEq, Repr

/-- A request for admission of session `x`, from another member if `owner` says so, placed by the root (05 R131, R132): a free slot, a victim's
slot, the queue, or none of them. -/
def placeRequest (f : Nat) (x : W64) (lc : Bool) (owner : Option Nat) (s : State) : Placed × State :=
  let grant (s : State) : Placed × State := (.granted, putReq f ⟨x, lc, s.now, true, owner⟩ s)
  let queue (reason : Nat) : Placed × State :=
    if s.queueRoom f 1 then (.queued reason ((s.fold f).ahead lc s.now), putReq f ⟨x, lc, s.now, false, owner⟩ s) else (.full, s)
  if (s.fold f).drain.isSome then queue 1
  else if (s.fold f).hasSlot then grant s
  else
    match (if lc && bitOf (s.act (rSchDisplace f)) 0 && s.queueRoom f 1 then s.victim f else none) with
    | some v => grant (s.modFold f (fun y => { y with victims := y.victims ++ [(v, s.now)] }))
    | none => queue 0

/-- The step's best-effort chunks to be suspended: the root's doing, at another member's request or its own (05 R140). -/
def suspendStep (f : Nat) (s : State) : State := s.modFold f (fun x => { x with step := x.step.map (fun st => { st with suspend := true }) })

/-- What an owner does once its request has been placed: with SCH_MIDSTEP a latency-critical one that has its slot asks for the suspension of the
step's best-effort chunks (05 R140); a deferred one is announced. -/
def settleRequest (f : Nat) (x : W64) (lc : Bool) (tag : W16) (op : Nat) (p : Placed) (s : State) : Tried State :=
  match p with
  | .granted =>
    .ok (if lc && bitOf (s.act (rSchMidstep f)) 0 then (if s.isRoot f then suspendStep f s else mailRoot f .suspend s) else s)
  | .queued r a => .ok (postDeferred f x lc r a tag op s)
  | .announced => .ok s
  | .full => .error (stSeqFull, s)

/-- A request for admission of session `x` at the root itself. -/
def requestAdmission (f : Nat) (x : W64) (lc : Bool) (tag : W16) (op : Nat) (s : State) : Tried State :=
  let r := placeRequest f x lc none s
  settleRequest f x lc tag op r.1 r.2

/-- A request for admission sent to the root by an owner that is another member (05 R126), with the descriptor that waits for the answer. -/
def askAdmission (f : Nat) (x : W64) (lc : Bool) (desc : Option (Nat × Desc)) (s : State) : Tried State :=
  mail f (.askSlot x lc) (s.rootOf f) (.askSlot x) desc s

/-- Admission of a turn that stands in its session already: asked of the root, wherever that is. -/
def admitTurn (f : Nat) (x : W64) (lc : Bool) (tag : W16) (op : Nat) (s : State) : Tried State :=
  if s.isRoot f then requestAdmission f x lc tag op s else askAdmission f x lc none s

/-- Session `x`'s request taken out of the queue. -/
def dequeue (f : Nat) (x : W64) (s : State) : State := s.modFold f (fun y => { y with queue := y.queue.filter (fun q => q.session != x) })

/-- The descriptor of the turn of session `x` that has been accepted or waits for the root's answer. -/
def State.turnDesc (s : State) (x : W64) : Option (Nat × Desc) := match (s.sess x).bind (·.turn) with
  | some t => some (t.opcode, t.desc)
  | none => (s.fab.outstanding.find? (fun m => m.2.purpose == .askSlot x)).bind (·.2.desc)

/-- ADMIT_DEFERRED for the turn of session `x`, with the TAG and OPCODE of its descriptor; zero for a displaced turn (05 R133). -/
def announce (f : Nat) (x : W64) (reason ahead : Nat) (s : State) : State :=
  if reason = 2 then postDeferred f x false 2 ahead 0 0 s else
  match s.turnDesc x with
  | some t => postDeferred f x ((s.sess x).any (·.record.latencyCritical)) reason ahead t.2.tag t.1 s
  | none => s

/-- Promised slots that turn into queued requests as admission stops for a drain (05 R132), as many as SCH_ADMIT_QUEUE has room for; the rest keep
their promise and wait beside the queue (05 R130, log entry 158). Another member's request is announced by that member. -/
def stopAdmission (f : Nat) (s : State) : State :=
  let room := s.act (rSchAdmitQueue f) - (s.fold f).queued.length - (s.fold f).victims.length
  let g := ((s.fold f).queue.filter (·.granted)).take room
  let s := s.modFold f (fun x => { x with queue := x.queue.filter (fun q => !g.contains q) })
  g.foldl (fun s q =>
    let ahead := (s.fold f).ahead q.lc q.arrival
    putReq f { q with granted := false } (match q.owner with
      | none => announce f q.session 1 ahead s
      | some d => mailTo f (.deferred q.session 1 ahead) d s)) s

/-- The entry of session `x` in fold `f`, if it holds one. -/
def Fold.entryOf (x : Fold) (id : W64) : Option (Nat × SeqEntry) := x.seqs.find? (fun p => p.2.session == id && p.2.phase != 4)

/-- The entry of session `x` becomes LEAVING (05 R128); what it had drafted is given back. An owner that is not the root has the root take it, or the
request that waits for it, out (05 R126). -/
def leaveTable (f : Nat) (x : W64) (s : State) : State :=
  let s := if (s.sess x).any (·.isOwner) then mailRoot f (.leave x) s else s
  let s := s.modFold f (fun y => { y with seqs := y.seqs.map (fun p => if p.2.session = x then (p.1, { p.2 with phase := 4, ready := none }) else p) })
  releaseDraft x s

/-! ### The lease and the state of a session descriptor -/

/-- Refusals by the lease and epoch checks (04 R111): EPOCH, STATE and HOLDER as the home records them. -/
def refuseLease (op : Nat) (d : Desc) (st : W16) (r : Record) (s : State) : State :=
  complete op d st 0 (sessSpecific r.lease.epoch r.state r.lease.holder) s

/-- The home record read for a descriptor whose lease this device does not hold as it is presented (04 R112); the descriptor goes on with
the answer. Session IDs of this device that it does not know are unknown. -/
def askHome (op : Nat) (d : Desc) (bad : State → List Byte) (s : State) : State :=
  if sidDevice d.session = s.selfNo then complete op d stBadDescriptor 0 (bad s) s
  else
    match fabRequest (.record d.session) (some (s.descFold d)) (some (op, d))
        (s.requestPacket (some (s.descFold d)) issSess fabOpRead (sidDevice d.session) 0 512 false true d.epoch.toNat d.session 0 []) s with
    | .ok s => s
    | .error e => complete op d e.1 0 (bad e.2) e.2

/-- The lease and epoch checks (04 R111, R112) on the home's record `r`, then `go` on the session. While the own offer stands the epoch before it
is taken as current, where it meets the state check; a lease ACCEPTED with the device itself as HOLDER is transient (log entry 36). -/
def judgeLease (op : Nat) (d : Desc) (bad : State → List Byte) (go : Sess → State → State) (r : Record) (s : State) : State :=
  let l := r.lease
  match s.sess d.session with
  | none => refuseLease op d stNotOwner r s
  | some y =>
    if l.lstate == 3 || l.holder != s.selfNo || !y.isOwner || y.fold != s.descFold d then refuseLease op d stNotOwner r s
    else if !(l.epoch == d.epoch.toNat || (l.lstate == 1 && l.epoch == d.epoch.toNat + 1)) then refuseLease op d stStaleEpoch r s
    else if l.lstate == 2 then complete op d stBusy 0 (bad s) s
    else go y s

/-- The record a descriptor presenting `epoch` is judged by on device `self` with no read of the home (04 R112): the home's own where it is here,
the cached one where that shows this device as HOLDER in HELD at that epoch. -/
def Sess.leaseRecord (y : Sess) (self epoch : Nat) : Option Record :=
  if y.isHome then some y.homeRecord else if y.isOwner && y.record.lease == ⟨self, 0, epoch⟩ then some y.record else none

/-- A session descriptor, judged by the record at hand where 04 R112 allows that, else by the home's record read anew. -/
def withLease (op : Nat) (d : Desc) (bad : State → List Byte) (go : Sess → State → State) (s : State) : State :=
  match (s.sess d.session).bind (·.leaseRecord s.selfNo d.epoch.toNat) with
  | some r => judgeLease op d bad go r s
  | none => askHome op d bad s

/-- Whether a session is in transit between states (04 R102): ACTIVE, MOVING, or being parked, revived or closed. -/
def Sess.busy (y : Sess) : Bool :=
  y.record.state == stateActive || y.record.state == stateMoving || y.park.isSome || y.revive.isSome || y.closing.isSome || y.move.isSome

/-- Whether a turn meets one of its session (04 R102): in transit, or a turn accepted that still waits for admission. -/
def Sess.turnBusy (y : Sess) : Bool := y.busy || y.turn.isSome

/-- The state a session rests in: PRIOR_STATE of a parked one (04 Table 4-4). -/
def Sess.rest (y : Sess) : Nat := if isParked y.record.state then y.record.priorState else y.record.state

/-! ### Transcript writes (04 R98 to R100) -/

/-- TX_HEAD grown by `n`: TX_FIRST, and NOT_REPLAYABLE once it is above 0 (04 R99). -/
def Record.txGrow (r : Record) (n : Nat) : Record :=
  let h := r.txHead + n
  let first := h - 8192 * r.tailSheets
  { r with txHead := h, txFirst := first, notReplayable := r.notReplayable || decide (0 < first) }

/-- Entries written into the area of a home that is this device. -/
def writeTx (f : Nat) (r : Record) : Nat → List W64 → State → Tried State
  | _, [], s => .ok s
  | c, w :: t, s =>
    andThen (writeSheet f (s.mapIndex f r.txBase + c / 8192 % max 1 r.tailSheets) (c % 8192 * 8) (leBytes 8 w.toNat) s) (writeTx f r (c + 1) t)

/-- Entries sent to a home that is another device: one ordered write, or two where the ring wraps; then TX_HEAD and TX_FIRST
(log entry 37). -/
def sendTx (x : W64) (y : Sess) (purpose : Purpose) (ws : List W64) (s : State) : Tried State :=
  let r := y.record
  let room := 8192 * max 1 r.tailSheets - r.txHead % (8192 * max 1 r.tailSheets)
  let put (purpose : Purpose) (c : Nat) (l : List W64) (s : State) : Tried State :=
    if l.isEmpty then .ok s else
    fabRequest purpose (some y.fold) none
      (s.requestPacket (some y.fold) issSess fabOpWrite (sidDevice x) (txAddr r c) (8 * l.length) false false
        r.lease.epoch x 0 (l.flatMap (fun w => leBytes 8 w.toNat))) s
  let a := ws.take room
  let b := ws.drop room
  andThen (put (if b.isEmpty then purpose else .record x) r.txHead a s) (put purpose (r.txHead + a.length) b)

/-- Entries appended to a session's transcript: TX_HEAD, TX_FIRST and the area at the home. -/
def appendTx (x : W64) (purpose : Purpose) (ws : List W64) (s : State) : Tried State :=
  match s.sess x with
  | none => .ok s
  | some y =>
    if ws.isEmpty then .ok s
    else if y.isHome then
      andThen (writeTx (sidFold x) y.record y.record.txHead ws s) (fun s => .ok (s.modRec x (fun r => r.txGrow ws.length)))
    else
      andThen (sendTx x y purpose ws s) (fun s =>
        let s := s.modSess x (fun y =>
          { y with record := y.record.txGrow ws.length
                   txCache := (List.range ws.length).foldl (fun m i => setN m (y.record.txHead + i) (ws.getD i 0)) y.txCache })
        .ok (writeHome x (.record x) 112 16 s))

end Sys2Proof.Machine
end

