-- ==== Sys2Proof/Machine/Turns.lean ====
section
/-! DEFINITION. Turns (04 R101, R102, R119, R123, 10 R260, R265, 05 R132): TURN_SUBMIT, TOOL_RESULT, TURN_CANCEL, SESSION_CLOSE,
STREAM_RESEND and the end of a turn. -/
namespace Sys2Proof.Machine

/-! ### The end of a turn -/

/-- The turn's text and forcing state at its end (10 R271, R279). -/
def TextState.endTurn (x : TextState) : TextState :=
  { x with stopMatch := List.replicate 16 0, scarry := [], hold := [], forceSrc := 0, forceIndex := 0, forceNext := 0
           paramArmed := false, replayNext := 0, replayEnd := 0 }

/-- Session `x`'s turn ends: what its COMPLETION will carry stands in `endings`, and STATE becomes `st` (04 R123, Table 4-4). -/
def recordEnd (x : W64) (e : TurnEnd) (st : Nat) (waiting : Option Nat) (cancel : Option Desc) (s : State) : State :=
  match s.sess x with
  | none => s
  | some y =>
    match y.turn with
    | none => s
    | some t =>
      let ending : Ending :=
        { turn := y.record.turn, opcode := t.opcode, desc := t.desc, status := e.status, flags := t.flags ||| e.flags
          spec := turnSpecific y.record.turnGen st e.reason e.stopIndex e.discarded t.replaced, waiting := waiting, cancel := cancel }
      setState x st (s.modSess x (fun y =>
        { y with turn := none, endings := y.endings ++ [ending]
                 record := { y.record with turnHeld := false, text := y.record.text.endTurn } }))

/-- The pen whose stream queue still holds packets of session `x`. -/
def State.penWith (s : State) (x : W64) : Option Nat :=
  (s.pens.find? (fun p => (p.2.bank0.packets ++ p.2.bank1.packets ++ p.2.waiting).any (fun q => q.session == x))).map (·.1)

/-- The end of turn `n` delivered behind what the session's stream queue still holds. -/
def deliverEnd (x : W64) (n : Nat) (pen : Option Nat) (text : List Byte) (bad : List Bool) (offset : Nat) (s : State) : State :=
  match pen.orElse (fun _ => s.penWith x) with
  | some p =>
    pushPacket p { session := x, turn := n, words := streamWords text bad, bytes := text.length, offset := offset, endOfTurn := true
                   dropped := false } s
  | none => askEnd x n offset false s

/-- The stream of a cancelled turn (03 R85): its packets dropped, then an END chunk with DROPPED; a turn before it whose END was among
them still gets its own. -/
def cancelStream (x : W64) (n : Nat) (s : State) : State :=
  let ends := s.pens.flatMap (fun p => (p.2.bank0.packets ++ p.2.bank1.packets ++ p.2.waiting).filter (fun q => q.session == x && q.endOfTurn))
  let o := (s.sess x).elim 0 (·.record.textOffset)
  let s := dropPackets x s
  let s := ends.foldl (fun s q => askEnd x q.turn (q.offset + q.bytes) true s) s
  askEnd x n o true s

/-- What a revive still waits for is not asked for any more; migrations under way go on (04 R106). -/
def stopRevive (x : W64) (s : State) : State :=
  match s.sess x with
  | none => s
  | some y =>
    let l := (y.revive.map (·.groups.flatten)).getD []
    (s.modFold y.fold (fun f => { f with requests := f.requests.filter (fun r => !(l.contains r.1 && r.2 == 2)) })).modSess x
      (fun y => { y with revive := none })

/-- The turn of session `x` cancelled (03 R85, 05 R132): out of the queue or the table, its text dropped, ST_CANCELLED once its END chunk
is out. A parked session stays parked, with PRIOR_STATE OPEN. -/
def cancelTurn (x : W64) (cancel : Option Desc) (s : State) : State :=
  match s.sess x with
  | none => s
  | some y =>
    let n := y.record.turn
    let parked := isParked y.record.state
    let s := leaveTable y.fold x (dequeue y.fold x (stopRevive x s))
    let s := s.modSess x (fun y => { y with txWait := none, heldPoison := false })
    let s := if parked then s.modRec x (fun r => { r with priorState := stateOpen }) else s
    cancelStream x n (recordEnd x ⟨stCancelled, 5, 0, 0, 0⟩ (if parked then y.record.state else stateOpen) none cancel s)

/-- The text held back, released where a turn ends without a stop (10 R279), less what software already has (04 R117); nothing where the
home refused a write or is lost (04 R100). -/
def heldText (y : Sess) (st : W16) : List Byte :=
  if st == stPeerLost || st == stStaleEpoch || st == stNotOwner then []
  else match y.turn with
    | some t => (finishText y.record.text).2.drop (y.record.textOffset + y.record.text.hold.length - t.detEnd)
    | none => []

/-- The turn of a share ends on this member: its entry is LEAVING, and the owner answers for it. -/
def endShare (f : Nat) (x : W64) (s : State) : State := (leaveTable f x s).modSess x (fun y => { y with turn := none })

/-- A turn that ends with an error status, END_REASON 8 (04 R123), or the re-prefill of a recovery given up; `flags` as 03 R78. A member that holds
a share of the session tells its owner. -/
def failTurn (x : W64) (st : W16) (flags : W16) (s : State) : State :=
  match s.sess x with
  | none => s
  | some y =>
    if y.share && !y.isOwner then mailTo y.fold (.fail x y.record.turn st) y.record.lease.holder (endShare y.fold x s) else
    if y.turn.any (·.rebuild) then endRebuild x st (leaveTable y.fold x (dequeue y.fold x s)) else
    let n := y.record.turn
    let parked := isParked y.record.state
    let pen := ((s.fold y.fold).entryOf x).map (·.2.pen)
    let o := y.record.textOffset
    let l := heldText y st
    let s := leaveTable y.fold x (dequeue y.fold x (stopRevive x s))
    let s := s.modSess x (fun y => { y with record := { y.record with textOffset := y.record.textOffset + l.length }, txWait := none, heldPoison := false })
    deliverEnd x n pen l (List.replicate l.length y.heldPoison) o (recordEnd x ⟨st, 8, 0, 0, flags⟩ (if parked then y.record.state else stateOpen) none none s)

/-! ### TURN_SUBMIT and TOOL_RESULT -/

/-- The 64 bytes of a descriptor. -/
def descImage (op : Nat) (d : Desc) : List Byte :=
  leBytes 1 op ++ [d.flags] ++ leBytes 2 d.tag.toNat ++ leBytes 4 d.epoch.toNat ++ leBytes 8 d.session.toNat ++ padTo 48 d.body

/-- Bytes written by the device into one of its own sheets, the cut's copy taken first. -/
def markAndPoke (f i o : Nat) (l : List Byte) (s : State) : State := pokeSheet f i o l (captureCopy f i s)

/-- A refusal of a turn descriptor: the turn layout, END_REASON 8 (04 R123). -/
def refuseTurn (op : Nat) (d : Desc) (st : W16) (replaced : Nat) (s : State) : State :=
  complete op d st 0 (turnSpecific 0 (s.stateOf d.session) 8 0 0 replaced) s

/-- What the other holders of a session have reported of its layers is looked for, in turn `n` (04 R108): those not heard of yet stand at layer 0. -/
def expectLayers (f : Nat) (x : W64) (n : Nat) (s : State) : State :=
  let old := (s.fold f).layersIn.filter (fun e => e.1 != x || e.2.1 == n)
  let l := (s.contributors f).filter (fun i => i != s.memberIndex f && !old.any (fun e => e.1 == x && e.2.2.1 == i))
  s.modFold f (fun z => { z with layersIn := old ++ l.map (fun i => (x, n, i, 0)) })

/-- The reports on session `x` no longer needed. -/
def forgetLayers (f : Nat) (x : W64) (s : State) : State := s.modFold f (fun z => { z with layersIn := z.layersIn.filter (fun e => e.1 != x) })

/-- A revive begun (04 R107): the image sheets in T3 and T4 asked for in its order. A SESSION_REVIVE has the other holders begin theirs; the share
of a turn tells them of a turn-out. -/
def startRevive (x : W64) (desc : Option Desc) (turnOut : Bool) (s : State) : State :=
  match s.sess x with
  | none => s
  | some y =>
    let gs := (s.reviveGroups y.fold y).map (fun g => g.filter (fun i => decide (3 ≤ ((s.fold y.fold).sheet i).tier) && (s.fold y.fold).backed i))
    let s := gs.flatten.foldl (fun s i => requestMove y.fold i 2 s) s
    let s := s.modSess x (fun y => { y with revive := some { groups := gs, layers := 0, desc := desc, turnOut := turnOut, source := y.record.state } })
    if !y.isOwner && !s.isRoot y.fold then s
    else if desc.isSome then mailOthers y.fold (.revive x) (expectLayers y.fold x y.record.turn (forgetLayers y.fold x s))
    else expectLayers y.fold x y.record.turn s

/-- What the other members need of session `y` to hold its share (04 R96). -/
def seatOf (s : State) (y : Sess) : Seat :=
  let r := y.record
  { record := r, kvNext := y.kvNext, rebuild := y.turn.any (·.rebuild), handoff := y.turn.any (·.handoff.isSome)
    params := s.read r.paramSheet 65536, step := y.restored
    counts := s.read (s.sheetOffset y.fold (s.ptCount r.imageRoot)) 65536
    entries := (List.range (r.txHead - r.txFirst)).map (fun i => s.txEntry y (r.txFirst + i)) }

/-- The share of session `x`, whose turn has been accepted, given to the other members. -/
def sendSeat (x : W64) (s : State) : State := match s.sess x with
  | some y => if (s.others y.fold).isEmpty then s else mailOthers y.fold (.seat (seatOf s y)) (s.modSess x (fun y => { y with restored := none }))
  | none => s

/-- The session as an accepted turn leaves it: input appended, turn begun. -/
def beginTurn (op : Nat) (d : Desc) (y : Sess) (e : Encoded) (s : State) : State :=
  let x := d.session
  let r := y.record
  let more := bitOf (descByte d 34) 0
  let p := s.params r.paramSheet
  let turn := if y.started then r.turn + 1 else 0
  let hd := bitsOf (descNum d 36 4) 17 0
  let t : Turn :=
    { opcode := op, desc := d, maxNew := descNum d 28 4, toolMask := descNum d 32 2, noGenerate := more || bitOf (descByte d 34) 2
      handoff := if hd = 0x3FFFF then none else some (hd, descByte d 40), replaced := e.replaced
      flags := if e.replaced = 0 then 0 else flTextReplaced, place := 0, detEnd := r.textOffset, cancel := none }
  let f := y.fold
  let sheet := s.mapIndex f r.paramSheet
  let s := markAndPoke f sheet 65472 (descImage op d) s
  let s := if p.countReset then markAndPoke f (s.ptCount r.imageRoot) 0 emptyCounts s else s
  s.modSess x (fun y =>
    { y with turn := some t, started := true, turnText := setN y.turnText turn r.textOffset
             record := { y.record with turn := turn, turnStart := r.context, turnGen := 0, context := r.context + e.tokens.length
                                       carry := e.carry, turnCarried := false
                                       text := { (y.record.text.beginTurn p) with countUsed := if p.countReset then 0 else y.record.text.countUsed } } })

/-- The checks of a turn's own chapters after the lease (04 R102, R119, 07 R202, 06 R180, 10 R260, 08 R227), the append, the request for
admission, and for a parked session the turn-out. An owner that is not the root asks it for admission first, and goes through all of it again with
the answer `placed` (05 R126, R131). -/
def startTurn (op : Nat) (d : Desc) (placed : Option Placed) (y : Sess) (s : State) : State :=
  let x := d.session
  let f := y.fold
  let r := y.record
  let tool := op == opToolResult
  let flags := descByte d 34
  if y.turnBusy then refuseTurn op d stBusy 0 s
  else if r.imagePoisoned || !isRest r.state || y.rest != (if tool then stateWaiting else stateOpen) then refuseTurn op d stBadDescriptor 0 s
  else if 16777216 < descNum d 24 4 || 64 ≤ descByte d 40 then refuseTurn op d stBadDescriptor 0 s
  else if (s.fold f).role = 1 && bitsOf (descNum d 36 4) 17 0 == 0x3FFFF then refuseTurn op d stBadDescriptor 0 s
  else if (s.fold f).active != some r.imageSlot then refuseTurn op d stVersion 0 s
  else if (s.fold f).faulted then refuseTurn op d stInternal 0 s
  else
    match s.hostRead f (descNum d 16 6) (descNum d 24 4) with
    | .error st => refuseTurn op d st 0 s
    | .ok text =>
      let p := s.params r.paramSheet
      let e := encodeText s f p.escapes (bitOf flags 0) (r.carry ++ text)
      let s₀ := s
      let s := (cacheUse f s).count (rTokInputReplaced f) e.replaced
      if p.strict && e.replaced != 0 then refuseTurn op d stBadText e.replaced (s.count (rTokBadText f) 1)
      else if s.act (rInkCtxMax f) < r.context + e.tokens.length then refuseTurn op d stLength e.replaced s
      else if r.context + e.tokens.length = 0 && !(bitOf flags 0 || bitOf flags 2) then refuseTurn op d stBadDescriptor e.replaced s
      else if placed.isNone && !s.isRoot f then (match askAdmission f x r.latencyCritical (some (op, d)) s₀ with
        | .ok s => s
        | .error er => refuseTurn op d er.1 e.replaced er.2)
      else
        let pin := tool || bitOf flags 1
        let ws := e.tokens.map (fun t => txWord t (b2n tool) pin r.textOffset)
        match appendTx x (.record x) ws s with
        | .error er => refuseTurn op d er.1 e.replaced er.2
        | .ok s₁ =>
          let t := beginTurn op d y e s₁
          match (match placed with
            | some p => settleRequest f x r.latencyCritical d.tag op p t
            | none => requestAdmission f x r.latencyCritical d.tag op t) with
          | .error er => refuseTurn op d er.1 e.replaced s
          | .ok s => sendSeat x (if isParked r.state then startRevive x none true s else s)

/-- A session descriptor that stops a park, on every holder, and proceeds once it has (04 R106). -/
def stopPark (op : Nat) (d : Desc) (y : Sess) (s : State) : State :=
  match y.park with
  | none => s
  | some p =>
    let s := if p.holders.isEmpty then s else mailOthers y.fold (.parkStop d.session) s
    let s := s.modSess d.session (fun y => { y with park := some { p with stopping := true, after := some (op, d), holders := [] } })
    s.modFold y.fold (fun f => { f with requests := f.requests.filter (fun r => !(p.left.contains r.1 && r.2 == p.target)) })

/-- A turn descriptor past its lease checks. -/
def turnBody (op : Nat) (d : Desc) (y : Sess) (s : State) : State :=
  match y.park with
  | some p => if p.after.isSome || y.turn.isSome then refuseTurn op d stBusy 0 s else stopPark op d y s
  | none => startTurn op d none y s

/-- The root's answer to a turn descriptor's request (05 R126): the turn goes on where it is placed; what comes to nothing gives its place back. -/
def turnPlaced (op : Nat) (d : Desc) (st : W16) (s : State) : State :=
  if st != stOk && st != stDeferred then refuseTurn op d st 0 s else
  let s := match (s.sess d.session).filter (·.isOwner) with
    | none => refuseTurn op d stNotOwner 0 s
    | some y => startTurn op d (some (if st == stOk then .granted else .announced)) y s
  if (s.sess d.session).any (fun y => y.turn.isSome) then s else mailRoot (s.descFold d) (.leave d.session) s

/-- The reserved bytes of a turn descriptor (04 Table 4-9). -/
def turnReserved (d : Desc) : Bool :=
  bodyReserved d [(16, 21), (24, 34), (36, 40)] && decide (descByte d 34 < 8) && decide (descNum d 36 4 < 2 ^ 18)

/-- SPECIFIC bytes of a turn descriptor refused before its lease is looked at. -/
def turnEarly (d : Desc) (s : State) : List Byte := turnSpecific 0 (s.stateOf d.session) 8 0 0 0

/-- A turn descriptor. -/
def turnDescriptor (op : Nat) (d : Desc) (s : State) : State :=
  descriptorAs op (turnReserved d) true (turnEarly d) d (fun s => .ok (withLease op d (turnEarly d) (turnBody op d) s)) s

/-- TURN_SUBMIT (10 R260, 04 R101). -/
def execTurnSubmit (d : Desc) (s : State) : Host.Outcome State Fault Refusal := .next (serve s (turnDescriptor opTurnSubmit d))

/-- TOOL_RESULT (04 R101): as TURN_SUBMIT, on a session that is WAITING, with SRC 1 and PIN. -/
def execToolResult (d : Desc) (s : State) : Host.Outcome State Fault Refusal := .next (serve s (turnDescriptor opToolResult d))

/-! ### TURN_CANCEL (04 R102, 05 R132, 09 Table 9-1) -/

/-- Whether the running step's decision has fallen and covers session `x`. -/
def State.decided (s : State) (f : Nat) (x : W64) : Bool :=
  match (s.fold f).step, (s.fold f).entryOf x with
  | some st, some e => st.verdicts.isSome && st.items.any (fun i => i.dseq == e.1)
  | _, _ => false

/-- SPECIFIC byte 20 of a TURN_CANCEL. -/
def cancelSpecific (n : Nat) : List Byte := leBytes 1 n ++ zerosB 10

/-- TURN_CANCEL past its lease checks. -/
def cancelBody (d : Desc) (y : Sess) (s : State) : State :=
  let x := d.session
  if y.park.isSome || y.move.isSome || y.record.state == stateMoving then complete opTurnCancel d stBusy 0 [] s
  else
    match y.turn with
    | some t =>
      if t.cancel.isSome || y.closing.isSome then complete opTurnCancel d stOk 0 (cancelSpecific 0) s
      else if s.decided y.fold x then s.modSess x (fun y => { y with turn := some { t with cancel := some d } })
      else cancelTurn x (some d) s
    | none =>
      if y.record.state = stateWaiting then complete opTurnCancel d stOk 0 (cancelSpecific 2) (setState x stateOpen s)
      else if isRest y.record.state then complete opTurnCancel d stOk 0 (cancelSpecific 0) s
      else complete opTurnCancel d stBadDescriptor 0 [] s

/-- TURN_CANCEL. -/
def execTurnCancel (d : Desc) (s : State) : Host.Outcome State Fault Refusal :=
  .next (serve s (descriptorAs opTurnCancel (bodyReserved d []) true (fun _ => []) d
    (fun s => .ok (withLease opTurnCancel d (fun _ => []) (cancelBody d) s))))

/-! ### SESSION_CLOSE (04 R101, Table 4-4) -/

/-- SESSION_CLOSE past its lease checks: a running turn is cancelled as R85, and the session ends once its END chunk is out. -/
def closeBody (d : Desc) (y : Sess) (s : State) : State :=
  let x := d.session
  if y.record.state == stateMoving || y.move.isSome || y.closing.isSome then complete opSessionClose d stBusy 0 (s.sessInfo x) s
  else
    match y.park with
    | some p =>
      if p.after.isSome then complete opSessionClose d stBusy 0 (s.sessInfo x) s else stopPark opSessionClose d y s
    | none =>
      let c : Closing := ⟨0, stOk, some d⟩
      let s := s.modSess x (fun y => { y with closing := some c })
      match y.turn with
      | some t =>
        if s.decided y.fold x then s.modSess x (fun y => { y with turn := some { t with cancel := t.cancel } })
        else cancelTurn x none s
      | none => settleClosing x (stopRevive x s)

/-- A STRANDED session closed at its home, which its VOID lease names; its SESSION_ENDED goes to the home fold's default queue (03 R75, 04 Table 4-4,
log entry 38). -/
def closeStranded (d : Desc) (y : Sess) (s : State) : State :=
  let x := d.session
  let s := postOwner (sidFold x)
    { plainRecord evSessionEnded (sidFold x) false stOk 0 (leBytes 4 y.record.turn ++ zerosB 7) with session := x, ring := some d.ring } s
  let s := s.modRec x (fun r => { r with state := stateClosed })
  let spec := s.sessInfo x
  complete opSessionClose d stOk 0 spec (closeHome x s)

/-- SESSION_CLOSE. -/
def execSessionClose (d : Desc) (s : State) : Host.Outcome State Fault Refusal :=
  .next (serve s (descriptorAs opSessionClose (bodyReserved d []) true (fun s => s.sessInfo d.session) d fun s =>
    .ok (match s.sess d.session with
      | some y =>
        if y.isHome && y.record.state == stateStranded && y.record.lease.epoch == d.epoch.toNat && sidFold d.session == s.descFold d then
          closeStranded d y s
        else withLease opSessionClose d (fun s => s.sessInfo d.session) (closeBody d) s
      | none => withLease opSessionClose d (fun s => s.sessInfo d.session) (closeBody d) s)))

/-! ### STREAM_RESEND (03 R84) -/

/-- STREAM_RESEND past its lease checks. An owner away from the home reads the transcript entries first. -/
def resendBody (d : Desc) (y : Sess) (s : State) : State :=
  let x := d.session
  let o := descNum d 16 8
  if y.record.textOffset < o then complete opStreamResend d stBadDescriptor 0 [] s
  else if !haveEntries y then
    match askTranscript x (some d) s with
    | .ok s => s
    | .error e => complete opStreamResend d e.1 0 [] e.2
  else if o < resendFloor s y then complete opStreamResend d stLength 0 [] s
  else if y.resend.isSome then complete opStreamResend d stBusy 0 [] s
  else pumpSession x ((complete opStreamResend d stOk 0 [] s).modSess x (fun y => { y with resend := some o }))

/-- A STREAM_RESEND that waited for transcript entries: performed once those are here (`st` ST_OK), completed with what has failed otherwise. -/
def resendAsked (x : W64) (desc : Option (Nat × Desc)) (st : W16) (s : State) : State :=
  match desc, s.sess x with
  | none, _ => s
  | some d, none => complete d.1 d.2 stNotOwner 0 [] s
  | some d, some y => if st = stOk then resendBody d.2 y s else complete d.1 d.2 st 0 [] s

/-- STREAM_RESEND. -/
def execStreamResend (d : Desc) (s : State) : Host.Outcome State Fault Refusal :=
  .next (serve s (descriptorAs opStreamResend (bodyReserved d [(16, 23)]) true (fun _ => []) d
    (fun s => .ok (withLease opStreamResend d (fun _ => []) (resendBody d) s))))

end Sys2Proof.Machine
end

