-- ==== Sys2Proof/Machine/Sessions.lean ====
section
/-! DEFINITION. Opening, parking and reviving sessions (04 R93 to R109, R122). -/
namespace Sys2Proof.Machine

/-! ### SESSION_OPEN (04 R93 to R95, R101, 10 R266, R267) -/

/-- The stream block of a descriptor (03 R80, 04 Table 4-9): its status for fold `f`. -/
def streamBlock (d : Desc) (f : Nat) (s : State) : W16 :=
  let n := descByte d 22
  let base := descNum d 16 6
  if n < 6 || 20 < n || base % (64 * 2 ^ n) != 0 || descNum d 24 6 % 4 != 0 then stBadDescriptor
  else match s.hostPhys f base (64 * 2 ^ n) 0, s.hostPhys f (descNum d 24 6) 4 0 with
    | .error e, _ => e
    | _, .error e => e
    | .ok _, .ok _ => stOk

/-- Whether TIER 3 can be a park's target (04 R122). -/
def State.parkTierOk (s : State) (f t : Nat) : Bool := t == 2 || t == 4 || (t == 3 && (s.fold f).ns.state != nsAbsent)

/-- Records of fold `f` in use (04 R95). -/
def State.dirUse (s : State) (f : Nat) : Nat := (s.sessions.filter (fun p => p.2.isHome && sidFold p.2.record.sessionId == f)).length

/-- The serial of the fold's next session (04 R93): SESS_SERIAL_NEXT, past those of sessions kept through a cold reset (log entry 154). -/
def State.nextSerial (s : State) (f : Nat) : Nat :=
  s.sessions.foldl (fun n p => if p.2.isHome && sidFold p.2.record.sessionId == f then max n (sidSerial p.2.record.sessionId + 1) else n)
    (s.act (rSessSerialNext f))

/-- A fresh session image, filled: page table, parameter sheet with its block and the trie directory, count table, trie. The first two
indices and the number of sheets. -/
def freshImage (f : Nat) (img : Image) (block : List Byte) (s : State) : Tried ((Nat × Nat × Nat) × State) :=
  let p := parseParams block
  andThen (newSheets f 0 3 s) fun b =>
  let size := trieSize p
  let bytes := if size.isSome then trieBytes p else []
  andThen (newSheets f 0 (ceilDiv bytes.length 65536) b.2) fun t =>
    let pt := b.1.getD 0 0
    let pr := b.1.getD 1 0
    let ct := b.1.getD 2 0
    let dir := (List.range 4).flatMap (fun i => leBytes 4 (t.1.getD i 0xFFFFFFFF)) ++ leBytes 4 ((size.map (·.1)).getD 0) ++
      leBytes 4 ((size.map (·.2)).getD 0)
    let s := pokeSheet f pt 0 (emptyPageTable img.layers.length (t.2.listsFor f img) ct pr) t.2
    let s := pokeSheet f pr 65408 dir (pokeSheet f pr 0 block s)
    let s := pokeSheet f ct 0 emptyCounts s
    let s := (List.range t.1.length).foldl (fun s i => pokeSheet f (t.1.getD i 0) 0 ((bytes.drop (i * 65536)).take 65536) s) s
    .ok ((pt, pr, 3 + t.1.length), s)

/-- The sheets a session opens with: the transcript area's index, page table, parameter sheet and the image's number of sheets. -/
def openSheets (f tails : Nat) (img : Image) (block : List Byte) (s : State) : Tried ((Nat × Nat × Nat × Nat) × State) :=
  andThen (newRun f tails 4 s) fun a => andThen (freshImage f img block a.2) fun r => .ok ((a.1, r.1.1, r.1.2.1, r.1.2.2), r.2)

/-- TEXT_STATE of a session that has no turn yet. -/
def TextState.fresh : TextState :=
  { stopMatch := List.replicate 16 0, banNode := 0, forceSrc := 0, forceIndex := 0, forceNext := 0, scarry := [], uncountedTurn := false
    paramArmed := false, countUsed := 0, replayNext := 0, replayEnd := 0, hold := [] }

/-- What is under way for a session that has just come to this device: nothing. -/
def Sess.idle (r : Record) (isHome isOwner : Bool) (fold : Nat) : Sess :=
  { record := r, isHome := isHome, isOwner := isOwner, fenceEpoch := r.lease.epoch, fold := fold, turn := none, endings := [], closing := none
    park := none, revive := none, move := none, cachedHead := 0, overflow := none, resend := none, endWait := [], txWait := none
    txCache := [], history := none, wet := none, parkTried := 0, restPrior := 0, kvNext := 0, started := false, turnText := [] }

/-- The record of a new session. -/
def openRecord (d : Desc) (s : State) (f serial tails area pt pr sheets : Nat) : Record :=
  let x := BitVec.ofNat 64 (s.selfNo * 2 ^ 46 + f * 2 ^ 40 + serial)
  { Record.zero with
    sessionId := x, state := stateOpen, latencyCritical := bitOf (descByte d 46) 0, imgFmt := s.act (rSessWriteCompat f)
    lease := ⟨s.selfNo, 0, 1⟩, lastActive := s.now, parkAfter := descNum d 40 4, parkTier := descByte d 44
    imageSlot := descByte d 45, ownerFold := f, streamBase := descNum d 16 6, streamLog2 := descByte d 22
    streamHead := descNum d 24 6, sessionRing := d.ring, txBase := s.sheetOffset f area, tailSheets := tails
    imageRoot := s.sheetOffset f pt, imageSheets := sheets, snapStep := BitVec.allOnes 64, paramSheet := s.sheetOffset f pr
    seed := BitVec.ofNat 64 (descNum d 48 8), created := s.now, text := TextState.fresh
    draft := { len := bitsOf (s.act (rBellLen f)) 11 8, probing := false, rejectRun := 0, probeWait := 0, draftPos := 0, proposed := 0, accepted := 0 } }

/-- SESSION_OPEN past the common checks. -/
def openBody (d : Desc) (s : State) : Tried State :=
  let f := s.descFold d
  let tails := if descNum d 56 2 = 0 then 16 else descNum d 56 2
  let len := descNum d 38 2
  if 256 < tails || !s.parkTierOk f (descByte d 44) then .error (stBadDescriptor, s)
  else if streamBlock d f s != stOk then .error (streamBlock d f s, s)
  else
    match (if descByte d 45 < 32 then s.image f (descByte d 45) else none) with
    | none => .error (stBadDescriptor, s)
    | some img =>
      match s.hostRead f (descNum d 32 6) len with
      | .error e => .error (e, s)
      | .ok block =>
        if !paramsOk img.vocab block len then .error (stBadDescriptor, s)
        else if s.act (rSessDirRecords f) ≤ s.dirUse f then .error (stQuota, s)
        else if 0xFFFFFFFFFF < s.nextSerial f then .error (stLength, s)
        else
          match openSheets f tails img block s with
          | .error e => .error (e.1, dropNew f s e.2)
          | .ok r =>
            let serial := s.nextSerial f
            let rec_ := openRecord d s f serial tails r.1.1 r.1.2.1 r.1.2.2.1 r.1.2.2.2
            let s := (r.2.setAct (rSessSerialNext f) (serial + 1)).setSess rec_.sessionId (Sess.idle rec_ true true f)
            .ok (completeAs opSessionOpen d rec_.sessionId stOk 0 (s.sessInfo rec_.sessionId) s)

/-- SESSION_OPEN. -/
def execSessionOpen (d : Desc) (s : State) : Host.Outcome State Fault Refusal :=
  .next (serve s (descriptorAs opSessionOpen
    (bodyReserved d [(16, 22), (24, 29), (32, 46), (48, 57)] && decide (descByte d 46 < 2)) false (fun _ => zerosB 11) d (openBody d)))

/-! ### Parking (04 R103 to R106) -/

/-- Steps 3 and 4 of a park (04 R104): the working copy written back, the sheets asked to move, here and on the share holders. -/
def goPark (x : W64) (s : State) : State :=
  match s.sess x with
  | none => s
  | some y =>
    match y.park with
    | none => s
    | some p =>
      let parked := isParked y.record.state
      let l := s.parkSheets y p.target parked
      let prior := if parked then y.record.priorState
        else match y.turn with
          | some u => if u.opcode = opToolResult then stateWaiting else stateOpen
          | none => y.record.state
      let s := writeBack x (s.modRec x (fun r => { r with priorState := prior }))
      let s := mailOthers y.fold (.park x p.target parked true) (l.foldl (fun s i => requestMove y.fold i p.target s) s)
      s.modSess x (fun y => { y with park := some { p with left := l, asked := [], holders := s.others y.fold } })

/-- A park begun (04 R104 steps 2 to 4): refused for quota with nothing moved. Share holders are asked for their room first. -/
def startPark (x : W64) (t : Nat) (desc : Option Desc) (s : State) : Tried State :=
  match s.sess x with
  | none => .ok s
  | some y =>
    let parked := isParked y.record.state
    if !s.parkRoom y t parked then .error (stQuota, s)
    else
      let l := s.others y.fold
      let p : Park := { target := t, left := [], desc := desc, stopping := false, fell := false, after := none, asked := l }
      match l.foldl (fun r d => andThen r (mail y.fold (.park x t parked false) d (.parkAsk x) none)) (.ok s) with
      | .error e => .error e
      | .ok s =>
        let s := s.modSess x (fun y => { y with park := some p })
        .ok (if l.isEmpty then goPark x s else s)

/-- SESSION_PARK past its lease checks; a session with IMAGE_POISONED has only recovery and close before it (04 R109). -/
def parkBody (d : Desc) (y : Sess) (s : State) : State :=
  let x := d.session
  let t := descByte d 16
  let no (st : W16) (s : State) : State := complete opSessionPark d st 0 (s.sessInfo x) s
  if !s.parkTierOk y.fold t then no stBadDescriptor s
  else if y.busy then no stBusy s
  else if !isRest y.record.state || y.record.imagePoisoned then no stBadDescriptor s
  else if y.record.state = parkedIn t then no stOk s
  else match startPark x t (some d) s with
    | .ok s => s
    | .error e => no e.1 e.2

/-- SESSION_PARK (04 R104). -/
def execSessionPark (d : Desc) (s : State) : Host.Outcome State Fault Refusal :=
  .next (serve s (descriptorAs opSessionPark (bodyReserved d [(16, 16)]) true (fun s => s.sessInfo d.session) d
    (fun s => .ok (withLease opSessionPark d (fun s => s.sessInfo d.session) (parkBody d) s))))

/-- One session looked at for a policy park (04 R103). -/
def policyPark (p : Nat × Sess) (s : State) : State :=
  let y := p.2
  let r := y.record
  if !y.isOwner || y.busy || r.imagePoisoned || r.lease.lstate != 0 || !(r.state == stateOpen || r.state == stateWaiting) || r.parkAfter = 0 then s
  else if s.now ≤ r.lastActive + r.parkAfter || s.now ≤ y.parkTried then s
  else match startPark r.sessionId r.parkTier none s with
    | .ok s => s
    | .error e => (e.2.count rSessAutoparkRefused 1).modSess r.sessionId (fun y => { y with parkTried := s.now + r.parkAfter })

/-- PARK_AFTER_CHECK (04 R103): every owned session that is OPEN or WAITING. -/
def execParkAfterCheck (s : State) : Host.Outcome State Fault Refusal := .next (serve s fun s => s.sessions.foldl (fun s p => policyPark p s) s)

/-- Whether a park has still to move sheet `i`. -/
def parkLeft (s : State) (y : Sess) (p : Park) (i : Nat) : Bool :=
  let e := (s.fold y.fold).sheet i
  (s.fold y.fold).backed i && decide (e.refs ≤ 1) && (if isParked y.record.state then e.tier != p.target else decide (e.tier < p.target))

/-- A holder's part of a park is over: the owner is told what it has come to and where its sheets are (04 R104, R105). -/
def endHolder (x : W64) (y : Sess) (p : Park) (st : W16) (s : State) : State :=
  mailTo y.fold (.parked x st p.target) y.record.lease.holder (s.modSess x (fun y => { y with park := none }))

/-- A park that stops: its descriptor completes with `st`, a policy park refused is counted, and the descriptor that stopped it goes on
(04 R103, R105, R106). -/
def endPark (x : W64) (st : W16) (s : State) : State :=
  match s.sess x with
  | none => s
  | some y =>
    match y.park with
    | none => s
    | some p =>
      let f := y.fold
      let s := s.modFold f (fun z => { z with requests := z.requests.filter (fun r => !(p.left.contains r.1 && r.2 == p.target)) })
      if !y.isOwner then endHolder x y p st s else
      let s := if p.holders.isEmpty then s else mailOthers f (.parkStop x) s
      let s := s.modSess x (fun y => { y with park := none })
      let s := if y.turn.isSome && y.record.state = stateActive then setState x y.record.priorState s else s
      let s := match p.desc with
        | some d => complete opSessionPark d st 0 (s.sessInfo x) s
        | none =>
          if y.turn.isNone && (st == stQuota || st == stFlashReadOnly) then
            (s.count rSessAutoparkRefused 1).modSess x (fun y => { y with parkTried := s.now + y.record.parkAfter })
          else s
      match p.after, s.sess x with
      | some a, some y => if a.1 = opSessionClose then closeBody a.2 y s else startTurn a.1 a.2 none y s
      | _, _ => s

/-- The park's sheets are where they belong, on every holder: STATE, write-back, ST_OK (04 R104 step 5). -/
def donePark (x : W64) (p : Park) (s : State) : State :=
  let s := setState x (parkedIn (if p.fell then 4 else p.target)) (s.modSess x (fun y => { y with park := none }))
  match p.desc with
  | some d => complete opSessionPark d stOk 0 (s.sessInfo x) s
  | none => s

/-- PARK_COMPLETE (04 R104 to R106): what the park's migrations have come to. -/
def execParkComplete (x : W64) (s : State) : Host.Outcome State Fault Refusal :=
  .next (serve s fun s =>
    match s.sess x with
    | none => s
    | some y =>
      match y.park with
      | none => s
      | some p =>
        let z := s.fold y.fold
        let left := p.left.filter (parkLeft s y p)
        let moving := p.left.any (fun i => (z.sheet i).migrating)
        let fails := left.filterMap (fun i => getN z.moveFail i)
        if p.stopping then onlyIf (!moving) s (endPark x stBusy s)
        else if !p.asked.isEmpty then s
        else if fails.contains stFlashReadOnly && p.target = 3 then
          if left.length ≤ s.room y.fold 4 then
            let s := s.modFold y.fold (fun z => { z with requests := z.requests.filter (fun r => !(left.contains r.1 && r.2 == 3)) })
            (left.foldl (fun s i => requestMove y.fold i 4 s) s).modSess x
              (fun y => { y with park := some { p with target := 4, left := left, fell := true } })
          else endPark x stFlashReadOnly s
        else if !fails.isEmpty then endPark x (fails.headD stQuota) s
        else if left.isEmpty then (if !y.isOwner then endHolder x y p stOk s else onlyIf p.holders.isEmpty s (donePark x p s))
        else (left.filter (fun i => !(z.sheet i).migrating && !hasN z.migs i && !z.requests.any (fun r => r.1 == i))).foldl
          (fun s i => requestMove y.fold i p.target s) s)

/-- A share holder's answer to an owner's question about room (04 R104 step 2). -/
def parkAnswered (x : W64) (d : Nat) (st : W16) (s : State) : State :=
  match (s.sess x).bind (·.park) with
  | none => s
  | some p =>
    if !p.asked.contains d then s
    else if st != stOk then endPark x st s
    else
      let l := p.asked.filter (· != d)
      let s := s.modSess x (fun y => { y with park := some { p with asked := l } })
      if l.isEmpty && !p.stopping then goPark x s else s

/-- A holder's part of a park, begun at the owner's word. -/
def holdPark (x : W64) (t : Nat) (parked : Bool) (s : State) : State :=
  match s.sess x with
  | none => s
  | some y =>
    let l := s.parkSheets y t parked
    (l.foldl (fun s i => requestMove y.fold i t s) s).modSess x (fun y =>
      { y with park := some { target := t, left := l, desc := none, stopping := false, fell := false, after := none }
               record := if y.isHome then y.record else { y.record with state := if parked then parkedIn 2 else stateOpen } })

/-- What a holder's part of a park has come to, at the owner. -/
def holderParked (x : W64) (d t : Nat) (st : W16) (s : State) : State :=
  match (s.sess x).bind (·.park) with
  | none => s
  | some p =>
    if !p.holders.contains d then s
    else if st != stOk then endPark x st s
    else s.modSess x (fun y => { y with park := some { p with holders := p.holders.filter (· != d), fell := p.fell || t == 4 && p.target == 3 } })

/-! ### Reviving (04 R107 to R109) -/

/-- SESSION_REVIVE, mode 0, past its lease checks. -/
def reviveBody (d : Desc) (y : Sess) (s : State) : State :=
  let x := d.session
  let no (st : W16) (s : State) : State := complete opSessionRevive d st 0 (s.sessInfo x) s
  if y.busy then no stBusy s
  else if !isParked y.record.state || y.record.imagePoisoned then no stBadDescriptor s
  else startRevive x (some d) false s

/-- SESSION_REVIVE in mode 0 (04 R107). A descriptor with MODE 1 is the other row's (log entry 5). -/
def execSessionRevive (d : Desc) (s : State) : Host.Outcome State Fault Refusal :=
  .next (if descByte d 32 = 1 then s else
    serve s (descriptorAs opSessionRevive (bodyReserved d [(32, 32)] && descByte d 32 == 0) true (fun s => s.sessInfo d.session) d
      (fun s => .ok (withLease opSessionRevive d (fun s => s.sessInfo d.session) (reviveBody d) s))))

end Sys2Proof.Machine
end

