-- ==== Sys2Proof/Machine/WorkList.lean ====
section
/-! DEFINITION. What a work list is built from (05 R134 to R137), the proposal limits it carries (09 R244), and a turn's positions (04 R119). -/
namespace Sys2Proof.Machine

/-! ### Positions of a turn -/

/-- The first position that the running turn does not prefill (04 R119): every input position but the last, or all of them where the
turn generates nothing. -/
def Sess.prefillEnd (y : Sess) : Nat :=
  if (y.turn.map (·.noGenerate)).getD false then y.record.context else y.record.context - 1

/-- The session of an entry. -/
def State.seqSess (s : State) (f dseq : Nat) : Option Sess := (getN (s.fold f).seqs dseq).bind (fun e => s.sess e.session)

/-- The wait of entry `i` ends: it is counted for the owner's class (05 R136, R141). -/
def endWait (f i : Nat) (s : State) : State :=
  match getN (s.fold f).seqs i with
  | none => s
  | some e =>
    match e.ready with
    | none => s
    | some t =>
      let s := s.modFold f (fun x => { x with seqs := modN x.seqs i (fun e => { e with ready := none }) })
      if (s.sess e.session).any (·.isOwner) then
        modClass f e.lc (fun k => { k with waitTotal := k.waitTotal + BitVec.ofNat 64 (s.now - t), waitMax := max k.waitMax (s.now - t) }) s
      else s

/-! ### Forced tokens (10 R271) -/

/-- Forced tokens that stand ahead of a session: replayed entries first, else an armed entry's continuation. -/
def State.forcedAhead (s : State) (y : Sess) (x : TextState) : Nat :=
  if x.forceSrc = 2 then x.replayEnd - x.replayNext
  else if x.forceSrc = 1 then ((s.params y.record.paramSheet).forces.getD x.forceIndex ([], [])).2.length - x.forceNext else 0

/-- The token forced next. -/
def State.forcedToken (s : State) (y : Sess) (x : TextState) : Option Nat :=
  if x.forceSrc = 2 then (if x.replayNext < x.replayEnd then some (txToken (s.txEntry y x.replayNext)) else none)
  else x.forced (s.params y.record.paramSheet)

/-! ### Proposal limits (09 R238, R244) -/

/-- The draft source in effect: 0 none, 1 draft model, 2 n-gram. -/
def State.draftSource (s : State) (f : Nat) : Nat :=
  let m := bitsOf (s.act (rBellMode f)) 1 0
  if m = 1 && !((s.activeImage f).any (·.draftModel)) then 0 else m

/-- LMAX of the fold. -/
def State.lmax (s : State) (f : Nat) : Nat := bitsOf (s.act (rBellLen f)) 3 0

/-- LEN of a session, clipped to LMAX (09 R251). -/
def State.draftLen (s : State) (f : Nat) (y : Sess) : Nat := min y.record.draft.len (s.lmax f)

/-- Whether this is the session's probe step. -/
def Sess.probe (y : Sess) : Bool := y.record.draft.probing && y.record.draft.probeWait == 63

/-- Whether the session's wet sheets, and its history where it needs one, are held. -/
def State.draftHeld (s : State) (f : Nat) (y : Sess) : Bool := y.wet.isSome && (s.draftSource f != 2 || y.history.isSome)

/-- Whether they are held as far as this member has to look: the root looks at what every other member has reported (09 R244). -/
def State.droveHeld (s : State) (f : Nat) (y : Sess) : Bool :=
  s.draftHeld f y && (!s.isRoot f || (s.contributors f).all (fun i => i == s.memberIndex f || (s.fold f).reserved.contains (y.record.sessionId, i)))

/-- The proposal limit K of a generation entry. -/
def State.proposalLimit (s : State) (f : Nat) (e : SeqEntry) : Nat :=
  match s.sess e.session with
  | none => 0
  | some y =>
    let r := y.record
    let ahead := s.forcedAhead y r.text
    let len := s.draftLen f y
    if s.draftSource f = 0 || e.reviving || !s.droveHeld f y || (y.turn.map (·.noGenerate)).getD true then 0
    else if ahead = 0 && (r.draft.probing || len == 0) && !y.probe then 0
    else
      let a := if 0 < ahead then min 8 ahead else if y.probe then 1 else len
      let m := (y.turn.map (·.maxNew)).getD 0
      let b := if m = 0 then a else min a (m - r.turnGen - 1)
      min b (s.act (rInkCtxMax f) - (r.context - 1) - 2)

/-! ### The list (05 R135) -/

/-- Whether a reviving entry whose limit is 0 is left out. -/
def SeqEntry.heldOut (e : SeqEntry) : Bool := e.reviving && e.layerLimit == 0

/-- Entries of a phase and class, by `key` and then DSEQ. -/
def Fold.entriesBy (x : Fold) (phase : Nat) (lc : Bool) (key : SeqEntry → Nat) : List (Nat × SeqEntry) :=
  sortBy (fun a b => decide (key a.2 < key b.2) || (key a.2 == key b.2 && decide (a.1 ≤ b.1)))
    (x.seqs.filter (fun p => p.2.phase == phase && p.2.lc == lc))

/-- The list under construction: items, generation entries per pen, cycles used, and the allowance, counted in cycles times the layers of the main
program so that what a resumed chunk has left is exact. -/
structure ListWork where
  items : List WorkItem
  gen : NMap Nat
  used : Nat
  allow : Int
  stop : Bool

/-- One generation entry. -/
def addGeneration (s : State) (f cpt : Nat) (w : ListWork) (p : Nat × SeqEntry) : ListWork :=
  let e := p.2
  if e.heldOut || e.movePending || s.act (rSchGenLimit f) ≤ getND w.gen e.pen 0 then w
  else
    let k := s.proposalLimit f e
    { w with items := w.items ++ [{ dseq := p.1, chunk := 0, first := (s.sess e.session).elim 0 (fun y => y.record.context - 1), limit := k
                                    resume := e.heldLayer }]
             gen := setN w.gen e.pen (getND w.gen e.pen 0 + 1), used := w.used + (k + 1) * cpt }

/-- Layers of the active image's main program. -/
def State.mainLayers (s : State) (f : Nat) : Nat := (s.activeImage f).elim 0 (fun x => x.layers.length - x.draftLayers)

/-- One suspended chunk, from RESUME_LAYER. -/
def addResumed (s : State) (f cpt : Nat) (old : List WorkItem) (w : ListWork) (p : Nat × SeqEntry) : ListWork :=
  let e := p.2
  if e.heldOut then w
  else
    let n := ((old.find? (fun i => i.dseq == p.1)).map (·.chunk)).getD 0
    let l := max 1 (s.mainLayers f)
    { w with items := w.items ++ [{ dseq := p.1, chunk := n, first := e.prefillNext, limit := 0, resume := some e.resumeLayer }]
             allow := w.allow - (n * cpt * (l - e.resumeLayer) : Nat) }

/-! ### Placement of a new entry (05 R137) -/

/-- The pen of a sheet's location: a slate's in T0, a channel's in T2. -/
def Sheet.pen (e : Sheet) : Option Nat := if e.tier = 0 then some (e.loc % 64) else if e.tier = 2 then some (e.loc % 256 / 4) else none

/-- The pen of the fold that a new entry of session `y` takes; none when every pen is full. -/
def State.pickPen (s : State) (f : Nat) (y : Sess) : Option Nat :=
  let x := s.fold f
  let base := s.baseSheets f y
  let held (p : Nat) : Nat := (base.filter (fun i => x.backed i && (x.sheet i).pen == some p)).length
  let gens (p : Nat) : Nat := (x.seqs.filter (fun e => e.2.pen == p && e.2.phase == 2)).length
  let free := x.penList.filter (fun p => decide ((x.seqs.filter (fun e => e.2.pen == p)).length < 512))
  minOn (fun p => (base.length - held p) * 1024 + gens p) free

end Sys2Proof.Machine
end

