-- ==== Sys2Proof/Machine/Inkwell.lean ====
section
/-! DEFINITION. Inkwell (08): KV pages and their slots, page lists, wet sheets, partials and their merge, score updates, eviction,
compaction, spill. The rows that call these stand in Layer, Fabric and Commit. -/
namespace Sys2Proof.Machine

/-! ### KV pages (08 R206 to R210); `a` is a page's local offset -/

/-- FORMAT, PART, LAYER, HEADS, HDIM in elements, FIRST_HEAD, COMPACTED, MIN_POS, MAX_POS, USED, LIVE. -/
def State.pgFormat (s : State) (a : Nat) : Nat := s.num (a + 2) 1
def State.pgPart (s : State) (a : Nat) : Nat := s.num (a + 3) 1
def State.pgHeads (s : State) (a : Nat) : Nat := s.num (a + 6) 1
def State.pgHdim (s : State) (a : Nat) : Nat := hdimOf (s.num (a + 7) 1)
def State.pgFirst (s : State) (a : Nat) : Nat := s.num (a + 8) 2
def State.pgCompacted (s : State) (a : Nat) : Bool := bitOf (s.num (a + 10) 1) 0
def State.pgMin (s : State) (a : Nat) : Nat := s.num (a + 12) 4
def State.pgMax (s : State) (a : Nat) : Nat := s.num (a + 16) 4
def State.pgUsed (s : State) (a : Nat) : Nat := s.num (a + 20) 2
def State.pgLive (s : State) (a : Nat) : Nat := s.num (a + 22) 2
def State.pgKScale (s : State) (a : Nat) : W32 := BitVec.ofNat 32 (s.num (a + 24) 4)
def State.pgVScale (s : State) (a : Nat) : W32 := BitVec.ofNat 32 (s.num (a + 28) 4)
/-- POS, VALID, PIN and SCORE of slot `i`. -/
def State.pgPos (s : State) (a i : Nat) : Nat := s.num (a + 64 + 4 * i) 4
def State.pgValid (s : State) (a i : Nat) : Bool := bitOf (s.num (a + 576) 16) i
def State.pgPin (s : State) (a i : Nat) : Bool := bitOf (s.num (a + 592) 16) i
def State.pgScore (s : State) (a i : Nat) : W32 := BitVec.ofNat 32 (s.num (a + 1024 + 4 * i) 4)
/-- The slots written. -/
def State.pgSlots (s : State) (a : Nat) : List Nat := List.range (min 128 (s.pgUsed a))

/-- Offsets in a page of head `g`'s key and value of slot `i`. -/
def keyAt (part e g i : Nat) : Nat := 2048 + (if part = 0 then g * 256 * e else 0) + i * e
def valueAt (part e g i : Nat) : Nat := 2048 + (if part = 0 then g * 256 * e + 128 * e else 0) + i * e

/-- A set of bits written back as a page's VALID or PIN map. -/
def bitMap (f : Nat → Bool) : List Byte := leBytes 16 (((List.range 128).map (fun i => b2n (f i) * 2 ^ i)).foldl (· + ·) 0)

/-- VALID as `valid` says, with LIVE, MIN_POS and MAX_POS to match (08 Table 8-2). -/
def setValidMap (a : Nat) (valid : Nat → Bool) (s : State) : State :=
  let v := (s.pgSlots a).filter valid
  let ps := v.map (s.pgPos a)
  let s := s.write (a + 576) (bitMap (fun i => decide (i < 128) && v.contains i))
  let s := s.write (a + 22) (leBytes 2 v.length)
  s.write (a + 12) (leBytes 4 (ps.foldl min 0xFFFFFFFF) ++ leBytes 4 (ps.foldl max 0))

/-- The stored bytes of one head's `hd` values in a page of `format`, and how many elements saturated (08 R210). -/
def encodeKv (format : Nat) (scale : W32) (vs : List W32) : List Byte × Nat :=
  if format = 0 then
    let q := vs.map (fun v => (fpVal v).div (fpVal scale))
    (packElems 8 (q.map (e4m3.encode true)), (q.filter (fun v => !v.isNan && (e4m3.encode false v) % 128 == 127)).length)
  else (encodeRow 9 true (vs.map fpVal), 0)

/-- One head's stored values as FP32 (08 R208, R219). -/
def decodeKv (format hd : Nat) (scale : W32) (l : List Byte) : List W32 :=
  if format = 0 then l.map (fun b => fpOf ((e4m3.decode b.toNat).mul (fpVal scale)))
  else rowVals 9 hd l

/-- The heads and the part of list `k` of a layer whose share is `heads` (08 R209). -/
def listHeads (format hd : Nat) (heads : List Nat) (k : Nat) : List Nat × Nat :=
  let g := groupSize format hd heads.length
  if g.2 then ([heads.getD (k / 2) 0], 1 + k % 2) else ((heads.drop (k * g.1)).take g.1, 0)

/-- The header and the empty maps of a new page. -/
def newPageBytes (format part layer code : Nat) (heads : List Nat) (ks vs : W32) : List Byte :=
  let one : W32 := 0x3F800000
  padTo 64 (leBytes 2 0x4B56 ++ leBytes 1 format ++ leBytes 1 part ++ leBytes 2 layer ++ leBytes 1 heads.length ++ leBytes 1 code ++
    leBytes 2 (heads.headD 0) ++ [0, 0] ++ leBytes 4 0xFFFFFFFF ++ leBytes 4 0 ++ leBytes 2 0 ++ leBytes 2 0 ++
    leBytes 4 (if format = 0 then ks else one).toNat ++ leBytes 4 (if format = 0 then vs else one).toNat) ++
  List.replicate 512 0xFF

/-- A page appended to list `k` of layer `l` of the page table at `a` (08 R211). -/
def appendPage (f a l k i : Nat) (s : State) : Tried State :=
  andThen (match s.ptList a l k with
    | (some j, n) => .ok (j, n, s)
    | (none, _) => andThen (newSheet f 2 0 none false false s) (fun r =>
        .ok (r.1, 0, pokeSheet f r.1 0 (padTo 64 (leBytes 2 0x504C ++ leBytes 2 l ++ leBytes 2 k)) r.2))) fun t =>
    let n := t.2.1
    let s := markAndPoke f t.1 (64 + 4 * n) (leBytes 4 i) t.2.2
    let s := pokeSheet f t.1 6 (leBytes 4 (n + 1)) s
    .ok (markAndPoke f (s.mapIndex f a) (ptEntryAt (s.ptLists a) l k) (leBytes 4 t.1 ++ leBytes 4 (n + 1)) s)

/-- The pages of a list replaced (compaction, eviction, sharing). -/
def putPages (f a l k : Nat) (pages : List Nat) (s : State) : State :=
  match s.ptList a l k with
  | (none, _) => s
  | (some j, _) =>
    if pages.isEmpty then
      markAndPoke f (s.mapIndex f a) (ptEntryAt (s.ptLists a) l k) (leBytes 4 0xFFFFFFFF ++ leBytes 4 0) (discardSheet f j s)
    else
      let s := markAndPoke f j 64 (pages.flatMap (leBytes 4)) s
      let s := pokeSheet f j 6 (leBytes 4 pages.length) s
      markAndPoke f (s.mapIndex f a) (ptEntryAt (s.ptLists a) l k) (leBytes 4 j ++ leBytes 4 pages.length) s

/-- A compaction that a write to page `i` abandons (08 R230): its new pages are discarded. -/
def dropCompact (f i : Nat) (s : State) : State :=
  let bad := (s.fold f).compacts.filter (fun c => c.run.contains i)
  bad.foldl (fun s c => discardAll f c.fresh s)
    (s.modFold f (fun x => { x with compacts := x.compacts.filter (fun c => !c.run.contains i) }))

/-- What a write to a page does first. -/
def touchPage (f i : Nat) (s : State) : State := writeMeetsMig f i (captureCopy f i (dropCompact f i s))

/-! ### Writing entries (08 R212, R213, R215) -/

/-- What a layer's entries need: KV layer index, HDIM code, the share, position groups, scales. -/
structure KvLayer where
  layer : Nat
  code : Nat
  heads : List Nat
  pg : Nat
  grps : List Nat
  info : LayerInfo

/-- KV layer `l` of image `x` on this device, HDIM by code. -/
def State.kvLayer (s : State) (f : Nat) (x : Image) (l code : Nat) : KvLayer :=
  let sh := s.layerShare f x l
  let none_ : LayerInfo := ⟨1, 1, 0, false, false, 1, 1, 0, 0, 0x3F800000, 0x3F800000, 0x3F800000⟩
  ⟨l, code, sh.1, sh.2.1, s.layerGroups f x l, (x.layers[l]?).getD none_⟩

/-- Whether this device holds position `p` of the layer. -/
def KvLayer.mine (v : KvLayer) (p : Nat) : Bool := v.grps.contains (p / 128 % v.pg)

/-- The pen that position `p`'s page lives on. -/
def State.posPen (s : State) (f : Nat) (v : KvLayer) (p : Nat) : Option Nat :=
  let l := (s.fold f).penList
  l[p / 128 / v.pg % max 1 l.length]?

/-- Page `i` of a list and the slot for position `p`: the slot that already records it, or the next of a tail of its block with room. -/
def slotFor (s : State) (f p : Nat) (pages : List Nat) : Option (Nat × Nat) :=
  let have_ := pages.filterMap (fun i =>
    let a := s.sheetOffset f i
    ((s.pgSlots a).find? (fun k => s.pgPos a k == p)).map (fun k => (i, k)))
  match have_.head? with
  | some r => some r
  | none =>
    match pages.getLast? with
    | none => none
    | some i =>
      let a := s.sheetOffset f i
      if !s.pgCompacted a && decide (s.pgUsed a < 128) && s.pgPos a 0 / 128 == p / 128 &&
          decide (((s.fold f).sheet i).refs ≤ 1) then some (i, s.pgUsed a) else none

/-- The fold's format of new pages. -/
def State.kvFormat (s : State) (f : Nat) : Nat := s.act (rInkKvFormat f) % 2

/-- The format in which position `p`'s entry is stored on layer `l`: that of the page of its block where there is one, else the fold's (08 R210,
R215). -/
def State.blockFormat (s : State) (f a l p : Nat) : Nat :=
  match ((List.range (s.ptLists a)).filterMap (fun k => slotFor s f p (s.listPages f a l k))).head? with
  | some r => s.pgFormat (s.sheetOffset f r.1)
  | none => s.kvFormat f

/-- One list's part of a position's entry stored: `data` the stored keys and values of its heads. -/
def storeSlot (f a : Nat) (v : KvLayer) (k fmt p : Nat) (pin bad : Bool) (data : List (List Byte × List Byte)) (s : State) : Tried State :=
  let hp := listHeads fmt (hdimOf v.code) v.heads k
  let e := kvEntryBytes fmt (hdimOf v.code)
  andThen (match slotFor s f p (s.listPages f a v.layer k) with
    | some r => .ok (r.1, r.2, s)
    | none => andThen (newSheet f 0 1 (s.posPen f v p) false false s) (fun r =>
        let s := pokeSheet f r.1 0 (newPageBytes fmt hp.2 v.layer v.code hp.1 v.info.kScale v.info.vScale) r.2
        andThen (appendPage f a v.layer k r.1 s) (fun s => .ok (r.1, 0, s)))) fun t =>
    let i := t.1
    let j := t.2.1
    let s := touchPage f i t.2.2
    let b := s.sheetOffset f i
    let s := s.write (b + 64 + 4 * j) (leBytes 4 p)
    let s := s.write (b + 592) (bitMap (fun n => if n = j then pin else s.pgPin b n))
    let s := s.write (b + 1024 + 4 * j) (leBytes 4 0)
    let s := s.write (b + 20) (leBytes 2 (max (s.pgUsed b) (j + 1)))
    .ok ((List.range data.length).foldl (fun s g =>
      let d := data.getD g ([], [])
      let s := if hp.2 = 2 then s else s.write (b + keyAt hp.2 e g j) d.1
      let s := if hp.2 = 1 then s else s.write (b + valueAt hp.2 e g j) d.2
      if bad then s.addPoison ((if hp.2 = 2 then [] else [(b + keyAt hp.2 e g j) / 64]) ++ (if hp.2 = 1 then [] else [(b + valueAt hp.2 e g j) / 64]))
      else s) s)

/-- The encoded keys and values of the heads of list `k`, and the saturated elements. -/
def listData (v : KvLayer) (k fmt : Nat) (keys vals : List (List W32)) : List (List Byte × List Byte) × Nat :=
  let hp := listHeads fmt (hdimOf v.code) v.heads k
  let es := hp.1.map (fun h =>
    let n := v.heads.findIdx (· == h)
    let kk := if hp.2 = 2 then ([], 0) else encodeKv fmt v.info.kScale (keys.getD n [])
    let vv := if hp.2 = 1 then ([], 0) else encodeKv fmt v.info.vScale (vals.getD n [])
    ((kk.1, vv.1), kk.2 + vv.2))
  (es.map (·.1), sumOn (fun e : (List Byte × List Byte) × Nat => e.2) es)

/-- A dry row's entry written (08 R215): nothing on a member that does not hold the position's block. -/
def writeDry (f a : Nat) (v : KvLayer) (p : Nat) (pin bad : Bool) (keys vals : List (List W32)) (s : State) : Tried State :=
  if !v.mine p then .ok s else
  let fmt := s.blockFormat f a v.layer p
  (List.range (listCount fmt (hdimOf v.code) v.heads.length)).foldl (fun t k => andThen t (fun s =>
    let d := listData v k fmt keys vals
    andThen (storeSlot f a v k fmt p pin bad d.1 s) (fun s => .ok (s.count (rInkSat f) d.2)))) (.ok s)

/-! ### Wet sheets (08 R216) -/

/-- The records of a sequence's wet sheets: layer, list, and bytes, in order; draft layers while the draft model is the source. -/
def wetRecords (s : State) (f : Nat) (x : Image) : List (Nat × Nat × Nat) :=
  let fmt := s.kvFormat f
  (List.range (if s.draftSource f = 1 then kvLayerCount x else s.mainLayers f)).flatMap (fun l =>
    let hd := hdimOf ((x.layers[l]?).elim 0 (·.hdim))
    let heads := (s.layerShare f x l).1
    (List.range (listCount fmt hd heads.length)).map (fun k =>
      let hp := listHeads fmt hd heads k
      (l, k, (if hp.2 = 0 then 16 else 8) * hp.1.length * kvEntryBytes fmt hd)))

/-- Where each record lies: (layer, list, sheet number of the sequence, byte), greedily packed, none across two sheets. -/
def wetPlaces (rs : List (Nat × Nat × Nat)) : List (Nat × Nat × Nat × Nat) :=
  (rs.foldl (fun (acc : List (Nat × Nat × Nat × Nat) × Nat × Nat) r =>
    let n := if 65536 < acc.2.2 + r.2.2 then (acc.2.1 + 1, 64) else acc.2
    (acc.1 ++ [(r.1, r.2.1, n.1, n.2)], n.1, n.2 + r.2.2)) ([], 0, 64)).1

/-- Wet sheets a sequence needs. -/
def wetNeed (s : State) (f : Nat) (x : Image) : Nat := ((wetPlaces (wetRecords s f x)).map (·.2.2.1 + 1)).foldl max 0

/-- The local offset of the record of (layer, list) in a sequence's wet sheets. -/
def wetAt (s : State) (f : Nat) (x : Image) (y : Sess) (l k : Nat) : Option Nat :=
  match (wetPlaces (wetRecords s f x)).find? (fun r => r.1 == l && r.2.1 == k) with
  | some r => ((y.wet.getD [])[r.2.2.1]?).map (fun i => s.sheetOffset f i + r.2.2.2)
  | none => none

/-- Offsets of head `g`'s key and value in wet slot `j` of a record. -/
def wetKey (part e g j : Nat) : Nat := (if part = 0 then g * 16 * e else 0) + j * e
def wetValue (part e g j : Nat) : Nat := (if part = 0 then g * 16 * e + 8 * e else 0) + j * e

/-- A wet row's entry written into slot `j` of the sequence's records of the layer. -/
def writeWet (f : Nat) (x : Image) (y : Sess) (v : KvLayer) (p j : Nat) (bad : Bool) (keys vals : List (List W32)) (s : State) : State :=
  if !v.mine p then s else
  let fmt := s.kvFormat f
  let e := kvEntryBytes fmt (hdimOf v.code)
  (List.range (listCount fmt (hdimOf v.code) v.heads.length)).foldl (fun s k =>
    match wetAt s f x y v.layer k with
    | none => s
    | some b =>
      let part := (listHeads fmt (hdimOf v.code) v.heads k).2
      let d := listData v k fmt keys vals
      let s := s.count (rInkSat f) d.2
      (List.range d.1.length).foldl (fun s g =>
        let kv := d.1.getD g ([], [])
        let s := if part = 2 then s else s.write (b + wetKey part e g j) kv.1
        let s := if part = 1 then s else s.write (b + wetValue part e g j) kv.2
        if bad then s.addPoison [(b + wetKey part e g j) / 64, (b + wetValue part e g j) / 64] else s) s) s

/-- The wet sheets' headers written for a step with `d` proposals from position `p` (08 R216). -/
def writeWetHeaders (f : Nat) (x : Image) (y : Sess) (dseq p d : Nat) (s : State) : State :=
  let places := wetPlaces (wetRecords s f x)
  let sheets := y.wet.getD []
  (List.range sheets.length).foldl (fun s n =>
    let ls := (places.filter (fun r => r.2.2.1 == n)).map (·.1)
    pokeSheet f (sheets.getD n 0) 0 (padTo 64 (leBytes 2 0x5754 ++ leBytes 2 dseq ++ leBytes 4 ((s.fold f).stepNo) ++
      leBytes 1 (ls.headD 0) ++ leBytes 1 (ls.eraseDups.length) ++ leBytes 1 d ++ [0] ++ leBytes 4 p)) s) s

/-- A sequence's wet sheets discarded (02 R35, 09 R248 step 2), and, as the member holds its sheets until the sequence leaves (09 R244), an empty
wet sheet in the slot of each. -/
def clearWet (f : Nat) (y : Sess) (s : State) : State :=
  (y.wet.getD []).foldl (fun s i =>
    let e := (s.fold f).sheet i
    putEntry f i { e with lastAccess := s.now, lastRead := (s.fold f).stepNo } (discardSheet f i s)) s

/-- Where head `h`'s keys (`part` 1) or values (`part` 2) of a layer lie in the wet sheets: the record's offset, its part, the head's number in it. -/
def wetHead (s : State) (f : Nat) (x : Image) (y : Sess) (v : KvLayer) (h part : Nat) : Option (Nat × Nat × Nat) :=
  let fmt := s.kvFormat f
  let hd := hdimOf v.code
  ((List.range (listCount fmt hd v.heads.length)).filterMap (fun k =>
    let hp := listHeads fmt hd v.heads k
    if hp.1.contains h && (hp.2 == 0 || hp.2 == part) then (wetAt s f x y v.layer k).map (fun b => (b, hp.2, hp.1.findIdx (· == h)))
    else none)).head?

/-- Head `h`'s key and value in wet slot `j`, as FP32, and whether either holds poison; none without a wet sheet. -/
def wetEntry (s : State) (f : Nat) (x : Image) (y : Sess) (v : KvLayer) (h j : Nat) : Option (List W32 × List W32 × Bool) :=
  let fmt := s.kvFormat f
  let hd := hdimOf v.code
  let e := kvEntryBytes fmt hd
  match wetHead s f x y v h 1, wetHead s f x y v h 2 with
  | some (kb, kp, g), some (vb, vp, g') =>
    let ka := kb + wetKey kp e g j
    let va := vb + wetValue vp e g' j
    some (decodeKv fmt hd v.info.kScale (s.read ka e), decodeKv fmt hd v.info.vScale (s.read va e), s.poisoned ka e || s.poisoned va e)
  | _, _ => none

/-- What list `k` of a layer takes of wet slot `j`, in the format `fmt` of its page: the bytes as they are where that is the wet sheets' format, else
each value converted to it (log entry 162). -/
def wetData (s : State) (f : Nat) (x : Image) (y : Sess) (v : KvLayer) (k fmt j : Nat) : Option (List (List Byte × List Byte)) :=
  if fmt = s.kvFormat f then
    let hp := listHeads fmt (hdimOf v.code) v.heads k
    let e := kvEntryBytes fmt (hdimOf v.code)
    (wetAt s f x y v.layer k).map (fun b =>
      (List.range hp.1.length).map (fun g => (s.read (b + wetKey hp.2 e g j) e, s.read (b + wetValue hp.2 e g j) e)))
  else
    let es := v.heads.map (fun h => (wetEntry s f x y v h j).getD ([], [], false))
    if (v.heads.any (fun h => (wetEntry s f x y v h j).isNone)) then none
    else some (listData v k fmt (es.map (·.1)) (es.map (·.2.1))).1

/-- The accepted entry of wet slot `j`, position `p`, copied into its dry pages on every layer `ls` (08 R216, 09 R248 step 1). -/
def copyWet (f : Nat) (x : Image) (y : Sess) (p j : Nat) (pin : Bool) (s : State) : Tried State :=
  (List.range (kvLayerCount x)).foldl (fun t l => andThen t (fun s =>
    let v := s.kvLayer f x l ((x.layers[l]?).elim 0 (·.hdim))
    let fmt := s.blockFormat f y.record.imageRoot l p
    if !v.mine p then .ok s else
    (List.range (listCount fmt (hdimOf v.code) v.heads.length)).foldl (fun t k => andThen t (fun s =>
      match wetData s f x y v k fmt j with
      | none => .ok s
      | some data => storeSlot f y.record.imageRoot v k fmt p pin false data s)) (.ok s))) (.ok s)

/-! ### Partials (08 R219, R220) -/

/-- A partial (m, l, o). -/
structure Partial where
  m : W32
  l : W32
  o : List W32
  deriving DecidableEq, Repr

/-- The empty partial. -/
def Partial.empty (n : Nat) : Partial := ⟨fpInf true, 0, List.replicate n 0⟩

/-- exp(a − m), 0 where a is −∞ (08 R220). -/
def expFrom (a m : W32) : W32 := if a = fpInf true then 0 else vuExp (fpSub a m)

/-- q · k × SCALE, dimensions in ascending order. -/
def scoreOf (q k : List W32) (scale : W32) : W32 := fpMul ((q.zip k).foldl (fun t e => fpAdd t (fpMul e.1 e.2)) fpZero) scale

/-- A visible slot taken into a partial. -/
def Partial.take (p : Partial) (sc : W32) (v : List W32) : Partial :=
  let m := fpMax p.m sc
  let a := expFrom p.m m
  let b := expFrom sc m
  ⟨m, fpAdd (fpMul p.l a) b, (p.o.zip v).map (fun e => fpAdd (fpMul e.1 a) (fpMul b e.2))⟩

/-- Two partials merged. -/
def Partial.merge (x y : Partial) : Partial :=
  let m := fpMax x.m y.m
  let a := expFrom x.m m
  let b := expFrom y.m m
  ⟨m, fpAdd (fpMul x.l a) (fpMul y.l b), (x.o.zip y.o).map (fun e => fpAdd (fpMul e.1 a) (fpMul e.2 b))⟩

/-- O of a merged partial: o ÷ l, 0 where l is 0. -/
def Partial.out (x : Partial) : List W32 := if (fpVal x.l).cmp (fpVal 0) = some 0 then x.o.map (fun _ => fpZero) else x.o.map (fun v => fpDiv v x.l)

/-- A row's view of a layer: its position, the layer's window (0 for a full layer), and the positions its sequence wrote in this step. -/
structure RowView where
  pos : Nat
  window : Nat
  fresh : List Nat

/-- Whether a row sees an entry (08 R217). -/
def RowView.sees (r : RowView) (q : Nat) (valid : Bool) : Bool :=
  (valid || r.fresh.contains q) && decide (q ≤ r.pos) && (r.window == 0 || decide (r.pos < q + r.window))

/-- A page with a head's keys: the page, those that hold its values (itself, or the values' list where the head is split), the head's number in
it. -/
structure HeadPage where
  page : Nat
  values : List Nat
  head : Nat
  deriving DecidableEq

/-- The pages that hold head `h`'s keys on a layer, in list order. -/
def headPages (s : State) (f a : Nat) (v : KvLayer) (h : Nat) : List HeadPage :=
  (List.range (s.ptLists a)).flatMap (fun k =>
    (s.listPages f a v.layer k).filterMap (fun i =>
      let b := s.sheetOffset f i
      let g := v.heads.findIdx (· == h) - v.heads.findIdx (· == s.pgFirst b)
      let in_ := decide (v.heads.findIdx (· == s.pgFirst b) ≤ v.heads.findIdx (· == h)) && decide (g < s.pgHeads b)
      if s.pgPart b = 0 && in_ then some ⟨i, [i], g⟩
      else if s.pgPart b = 1 && in_ then some ⟨i, s.listPages f a v.layer (k + 1), 0⟩ else none))

/-- Where the value of slot `i`'s position lies: the page's offset and the slot. A keys page and the values page of the same entries are compacted each
on its own (08 R230), so the position finds it. -/
def HeadPage.value (s : State) (f : Nat) (pg : HeadPage) (i : Nat) : Nat × Nat :=
  let b := s.sheetOffset f pg.page
  if s.pgPart b = 0 then (b, i)
  else
    let p := s.pgPos b i
    ((pg.values.filterMap (fun n =>
      let c := s.sheetOffset f n
      ((s.pgSlots c).find? (fun j => s.pgPos c j == p)).map (fun j => (c, j)))).head?).getD (b, i)

/-- The visible slots of a page for a row. -/
def visibleSlots (s : State) (b : Nat) (r : RowView) : List Nat := (s.pgSlots b).filter (fun i => r.sees (s.pgPos b i) (s.pgValid b i))

/-- The score of a slot of a page for a query. -/
def slotScore (s : State) (f : Nat) (scale : W32) (pg : HeadPage) (q : List W32) (i : Nat) : W32 :=
  let b := s.sheetOffset f pg.page
  let e := kvEntryBytes (s.pgFormat b) (s.pgHdim b)
  scoreOf q (decodeKv (s.pgFormat b) (s.pgHdim b) (s.pgKScale b) (s.read (b + keyAt (s.pgPart b) e pg.head i) e)) scale

/-- A page's partial for a row and query head (08 R219). -/
def pagePartial (s : State) (f : Nat) (scale : W32) (r : RowView) (q : List W32) (pg : HeadPage) : Partial :=
  let b := s.sheetOffset f pg.page
  let e := kvEntryBytes (s.pgFormat b) (s.pgHdim b)
  (visibleSlots s b r).foldl (fun p i =>
    let c := pg.value s f i
    p.take (slotScore s f scale pg q i)
      (decodeKv (s.pgFormat c.1) (s.pgHdim c.1) (s.pgVScale c.1) (s.read (c.1 + valueAt (s.pgPart c.1) e pg.head c.2) e))) (Partial.empty (s.pgHdim b))

/-- Whether a row reads poison in a page. -/
def pagePoison (s : State) (f : Nat) (r : RowView) (pg : HeadPage) : Bool :=
  let b := s.sheetOffset f pg.page
  let e := kvEntryBytes (s.pgFormat b) (s.pgHdim b)
  (visibleSlots s b r).any (fun i =>
    let c := pg.value s f i
    s.poisoned (b + keyAt (s.pgPart b) e pg.head i) e || s.poisoned (c.1 + valueAt (s.pgPart c.1) e pg.head c.2) e)

/-- The partial of a sequence's wet entries for a row and query head, positions `first` on, `n` of them; and whether poison is read. -/
def wetPartial (s : State) (f : Nat) (x : Image) (y : Sess) (v : KvLayer) (h : Nat) (r : RowView) (q : List W32) (first n : Nat) : Partial × Bool :=
  let js := (List.range n).filter (fun j => v.mine (first + j) && ({ r with fresh := [first + j] } : RowView).sees (first + j) true)
  (js.filterMap (wetEntry s f x y v h)).foldl (fun p e => (p.1.take (scoreOf q e.1 v.info.scale) e.2.1, p.2 || e.2.2))
    (Partial.empty (hdimOf v.code), false)

/-! ### Skipping, promotion, scores (08 R218, R221, R226) -/

/-- Whether a page holds an entry that its sequence wrote in this step. -/
def pageFresh (s : State) (b : Nat) (fresh : List Nat) : Bool := (s.pgSlots b).any (fun i => !s.pgValid b i && fresh.contains (s.pgPos b i))

/-- Whether a page is skipped for rows at positions lo to hi. -/
def pageSkipped (s : State) (f window lo hi : Nat) (fresh : List Nat) (i : Nat) : Bool :=
  let b := s.sheetOffset f i
  !pageFresh s b fresh &&
    (decide (hi < s.pgMin b) || s.pgLive b == 0 || (window != 0 && decide (s.pgMax b + window ≤ lo)))

/-- A page made ready to be read by a step: promoted with a stall counted, its ages renewed. -/
def readyPage (f i : Nat) (s : State) : Tried State :=
  let e := (s.fold f).sheet i
  let s := if e.tier = 3 || e.tier = 4 then s.count (rInkPrefetchStalls f) 1 else s
  andThen (touchSheet f i s) (fun s =>
    .ok (s.modFold f (fun x => { x with sheets := modN x.sheets i (fun e => { e with lastRead := x.stepNo }) })))

/-- δ of the fold. -/
def State.decay (s : State) (f : Nat) : W32 := fpOf (.fin false (bitsOf (s.act (rInkEvict f)) 47 32) (-16))

/-- The scores of a page's valid entries that a row saw (08 R221): `mu i` is slot i's part. -/
def scorePage (f i : Nat) (r : RowView) (mu : Nat → W32) (s : State) : State :=
  let b := s.sheetOffset f i
  if 1 < ((s.fold f).sheet i).refs then s else
  let slots := (visibleSlots s b r).filter (s.pgValid b)
  if slots.isEmpty then s else
  slots.foldl (fun s k => s.write (b + 1024 + 4 * k) (leBytes 4 (fpAdd (fpMul (s.pgScore b k) (s.decay f)) (mu k)).toNat)) (touchPage f i s)

/-! ### At the verification commit point -/

/-- Every list of a page table: (layer, list). -/
def State.allLists (s : State) (a : Nat) : List (Nat × Nat) :=
  (List.range (s.ptLayers a)).flatMap (fun l => (List.range (s.ptLists a)).map (fun k => (l, k)))

/-- VALID set for the slots of positions `ps` (08 R215). -/
def validate (f a : Nat) (layers : Nat → Bool) (ps : List Nat) (s : State) : State :=
  ((s.allLists a).filter (fun e => layers e.1)).foldl (fun s e =>
    (s.listPages f a e.1 e.2).foldl (fun s i =>
      let b := s.sheetOffset f i
      if (s.pgSlots b).any (fun k => !s.pgValid b k && ps.contains (s.pgPos b k)) then
        setValidMap b (fun k => s.pgValid b k || ps.contains (s.pgPos b k)) (touchPage f i s)
      else s) s) s

/-- Entries cleared: of each page of a list, the slots `gone` names; pages left without a valid entry are discarded and removed from the
list. The number cleared is counted. -/
def clearEntries (f a l k : Nat) (gone : Nat → Nat → Bool) (s : State) : State :=
  let pages := s.listPages f a l k
  let s := pages.foldl (fun s i =>
    let b := s.sheetOffset f i
    let n := ((s.pgSlots b).filter (fun j => s.pgValid b j && gone i j)).length
    if n = 0 then s else
      (setValidMap b (fun j => s.pgValid b j && !gone i j) (touchPage f i s)).count (rInkEvicted f) n) s
  let empty := pages.filter (fun i => s.pgLive (s.sheetOffset f i) == 0 && decide (((s.fold f).sheet i).refs ≤ 1))
  if empty.isEmpty then s else
  discardAll f empty (putPages f a l k (pages.filter (fun i => !empty.contains i)) s)

/-- The valid entries of a list: page, slot, position, score. -/
def listEntries (s : State) (f a l k : Nat) : List (Nat × Nat × Nat × W32) :=
  (s.listPages f a l k).flatMap (fun i =>
    let b := s.sheetOffset f i
    ((s.pgSlots b).filter (s.pgValid b)).map (fun j => (i, j, s.pgPos b j, s.pgScore b j)))

/-- Score eviction of one list (08 R228) for a session of `context` positions. -/
def evictList (f a l k context : Nat) (s : State) : State :=
  let keep := bitsOf (s.act (rInkEvict f)) 20 0
  let recent := bitsOf (s.act (rInkWindow f)) 24 8
  let es := listEntries s f a l k
  if keep = 0 || es.length ≤ keep then s else
  let open_ := es.filter (fun e => decide (4 ≤ e.2.2.1) && decide (e.2.2.1 + recent < context) && !s.pgPin (s.sheetOffset f e.1) e.2.1 &&
    decide (((s.fold f).sheet e.1).refs ≤ 1) && !((s.fold f).sheet e.1).wet)
  let order := sortBy (fun x y => fpLt x.2.2.2 y.2.2.2 || (!fpLt y.2.2.2 x.2.2.2 && decide (x.2.2.1 ≤ y.2.2.1))) open_
  let gone := (order.take (es.length - keep)).map (fun e => (e.1, e.2.1))
  clearEntries f a l k (fun i j => gone.contains (i, j)) s

/-- The window of a sliding layer (08 R229): entries at or below the newest position minus W. -/
def slideList (f a l k newest window : Nat) (s : State) : State :=
  if window = 0 then s else
  clearEntries f a l k (fun i j => decide (s.pgPos (s.sheetOffset f i) j + window ≤ newest) && decide (((s.fold f).sheet i).refs ≤ 1)) s

/-- Page pressure (08 R225). -/
def State.pressure (s : State) (f : Nat) : Bool :=
  decide (s.quota f 2 * bitsOf (s.act (rInkSpill f)) 7 4 ≤ (s.fold f).use 2 * 16)

/-- Whether the fold's T0 pool is full. -/
def State.poolFull (s : State) (f : Nat) : Bool := decide (s.quota f 0 ≤ (s.fold f).use 0)

/-- The longest admissible run of pages that starts a list (08 R230); none where none can be compacted. -/
def runAt (s : State) (f : Nat) (pages : List Nat) : Option (List Nat) :=
  let okPage (i : Nat) : Bool := let e := (s.fold f).sheet i; decide (e.refs ≤ 1) && !e.snap && !e.migrating && !((s.fold f).compacts.any (fun c => c.run.contains i))
  (([8, 7, 6, 5, 4, 3, 2] : List Nat).filter (fun n =>
    let r := pages.take n
    decide (n < pages.length) && r.all okPage && (r.map (s.kvPen f)).eraseDups.length == 1 &&
      (r.map (fun i => s.pgFormat (s.sheetOffset f i))).eraseDups.length == 1 &&
      decide (ceilDiv (sumOn (fun i => s.pgLive (s.sheetOffset f i)) r) 128 < n))).head?.map (fun n => pages.take n)

/-- One entry copied between pages: position, pin, score and every head's stored bytes. -/
def copyEntry (s₀ : State) (from_ i dest j : Nat) (s : State) : State :=
  let part := s₀.pgPart from_
  let e := kvEntryBytes (s₀.pgFormat from_) (s₀.pgHdim from_)
  let s := s.write (dest + 64 + 4 * j) (s₀.read (from_ + 64 + 4 * i) 4)
  let s := s.write (dest + 592) (bitMap (fun n => if n = j then s₀.pgPin from_ i else s.pgPin dest n))
  let s := s.write (dest + 1024 + 4 * j) (s₀.read (from_ + 1024 + 4 * i) 4)
  (List.range (if part = 0 then s₀.pgHeads from_ else 1)).foldl (fun s g =>
    let s := s.write (dest + keyAt part e g j) (s₀.read (from_ + keyAt part e g i) e)
    if part = 0 then s.write (dest + valueAt part e g j) (s₀.read (from_ + valueAt part e g i) e) else s) s

/-- The new pages of a run written (08 R230 step 1). -/
def writeCompact (f : Nat) (run fresh : List Nat) (s : State) : State :=
  let es := run.flatMap (fun i => let b := s.sheetOffset f i; ((s.pgSlots b).filter (s.pgValid b)).map (fun j => (b, j, s.pgPos b j)))
  let es := sortBy (fun x y : Nat × Nat × Nat => decide (x.2.2 ≤ y.2.2)) es
  let src := s.sheetOffset f (run.headD 0)
  let s := fresh.foldl (fun s i =>
    let b := s.sheetOffset f i
    let s := s.write b (s.read src 64 ++ List.replicate 512 0xFF)
    s.write (b + 10) [1]) s
  let s₀ := s
  let s := (List.range es.length).foldl (fun s n =>
    let e := es.getD n (0, 0, 0)
    copyEntry s₀ e.1 e.2.1 (s.sheetOffset f (fresh.getD (n / 128) 0)) (n % 128) s) s
  (List.range fresh.length).foldl (fun s m =>
    let b := s.sheetOffset f (fresh.getD m 0)
    let n := min 128 (es.length - m * 128)
    setValidMap b (fun j => decide (j < n)) (s.write (b + 20) (leBytes 2 n))) s

/-- A compaction begun on the first run of a list that allows one. -/
def startCompact (f : Nat) (x : W64) (a l k : Nat) (s : State) : State :=
  let pages := s.listPages f a l k
  match ((List.range pages.length).filterMap (fun n => runAt s f (pages.drop n))).head? with
  | none => s
  | some run =>
    let n := ceilDiv (sumOn (fun i => s.pgLive (s.sheetOffset f i)) run) 128
    match newSheetsIn f 0 1 (s.kvPen f (run.headD 0)) n s with
    | .error e => dropNew f s e.2
    | .ok (fresh, s) => (writeCompact f run fresh s).modFold f (fun z => { z with compacts := z.compacts ++ [⟨x, l, k, run, fresh⟩] })

/-- A compaction that no write has met takes its place in the list (08 R230 step 2). -/
def finishCompact (f : Nat) (c : Compact) (s : State) : State :=
  let s := s.modFold f (fun z => { z with compacts := dropFirst c z.compacts })
  match s.sess c.session with
  | none => discardAll f c.fresh s
  | some y =>
    let a := y.record.imageRoot
    let pages := s.listPages f a c.layer c.list
    match firstFrom (fun n => (pages.drop n).take c.run.length == c.run) pages.length 0 with
    | none => discardAll f c.fresh s
    | some n =>
      (discardAll f c.run (putPages f a c.layer c.list (pages.take n ++ c.fresh ++ pages.drop (n + c.run.length)) s)).count
        (rInkCompacted f) (c.run.length - c.fresh.length)

/-- Whether a page lies in its list's window (08 R224). -/
def State.inWindow (s : State) (f a l k i : Nat) : Bool :=
  let pages := s.listPages f a l k
  (pages.drop (pages.length - bitsOf (s.act (rInkWindow f)) 3 0)).contains i

/-- Every page in the window of an ACTIVE sequence of the fold. -/
def State.windowPages (s : State) (f : Nat) : List Nat :=
  (s.fold f).seqs.flatMap (fun e => match s.sess e.2.session with
    | none => []
    | some y =>
      let a := y.record.imageRoot
      (s.allLists a).flatMap (fun q =>
        let pages := s.listPages f a q.1 q.2
        pages.drop (pages.length - bitsOf (s.act (rInkWindow f)) 3 0)))

/-- The spill's candidates, oldest first (08 R225). -/
def State.spillOrder (s : State) (f : Nat) : List Nat :=
  let win := s.windowPages f
  let l := (s.fold f).sheets.filter (fun p => p.2.kind == 1 && p.2.tier == 2 && decide (p.2.refs ≤ 1) && !p.2.wet && !p.2.migrating && !win.contains p.1)
  (sortBy (fun x y => decide (x.2.lastRead < y.2.lastRead) || (x.2.lastRead == y.2.lastRead &&
    (decide (s.pgMin (s.sheetOffset f x.1) < s.pgMin (s.sheetOffset f y.1)) ||
      (s.pgMin (s.sheetOffset f x.1) == s.pgMin (s.sheetOffset f y.1) && decide (x.1 ≤ y.1))))) l).map (·.1)

/-- The demotions of a spill: down to LOW, a spill tier at quota stops it (08 R225, 02 R42). -/
def spill (f : Nat) (s : State) : State :=
  let t := s.spillTier f
  let target := s.quota f 2 * bitsOf (s.act (rInkSpill f)) 3 0 / 16
  let moving := ((s.fold f).requests.filter (fun r => decide (3 ≤ r.2))).length + ((s.fold f).migs.filter (fun m => decide (3 ≤ m.2.target) && m.2.phase != 7)).length
  let need := (s.fold f).use 2 - moving - target
  let l := (s.spillOrder f).filter (fun i => !(s.fold f).requests.any (fun r => r.1 == i))
  let s' := (l.take (min need (s.room f t - moving))).foldl (fun s i => requestMove f i t s) s
  if s.room f t - moving < min need l.length then refuseQuota f t s' else s'

/-- The T0 placement of a sequence's pages (08 R224): those that left the window to T2, window pages to T0 while there is room. -/
def windowMoves (f : Nat) (y : Sess) (promote : Bool) (s : State) : State :=
  let a := y.record.imageRoot
  (s.allLists a).foldl (fun s q =>
    (s.listPages f a q.1 q.2).foldl (fun s i =>
      let e := (s.fold f).sheet i
      let win := s.inWindow f a q.1 q.2 i
      if e.tier = 0 && !win then requestMove f i 2 s
      else if promote && win && e.tier != 0 && decide (((s.fold f).requests.filter (fun r => r.2 == 0)).length < s.room f 0) then requestMove f i 0 s
      else s) s) s

/-- Sheet `i` migrates into the slate of pen `b` (05 R137, R138). -/
def slateMove (f b i : Nat) (s : State) : State :=
  let t := (s.fold f).sheet i
  if t.migrating || hasN (s.fold f).migs i then s else
  s.modFold f (fun x => { x with
    sheets := modN x.sheets i (fun t => { t with migrating := true })
    migs := setN x.migs i { phase := 2, target := 0, targetPen := some b, writes := 0, newLoc := 0, oldTier := t.tier, oldLoc := t.loc, len := 1024 } })

/-- The count table and the parameter sheet of an admitted session brought into its pen's slate, while the pool has room (05 R137, log entry 129). -/
def takeSlate (f b : Nat) (y : Sess) (s : State) : State :=
  let a := y.record.imageRoot
  [s.ptCount a, s.ptParam a].foldl (fun s i =>
    let t := (s.fold f).sheet i
    let due := ((s.fold f).migs.filter (fun m => m.2.target == 0)).length
    if (s.fold f).backed i && decide (t.tier ≤ 2) && !(t.tier == 0 && t.loc % 64 == b) && decide (due < s.room f 0) &&
        decide (due < ((s.fold f).freeT0 b).length) then slateMove f b i s
    else s) s

/-- The T0 pages of a session that has left ACTIVE demoted to T2 (08 R224), and with them its sheets in the pen's slate. -/
def leaveWindow (f : Nat) (y : Sess) (s : State) : State :=
  let a := y.record.imageRoot
  let s := [s.ptCount a, s.ptParam a].foldl (fun s i =>
    if (s.fold f).backed i && ((s.fold f).sheet i).tier = 0 then requestMove f i 2 s else s) s
  (s.allLists a).foldl (fun s q =>
    (s.listPages f a q.1 q.2).foldl (fun s i => if ((s.fold f).sheet i).tier = 0 then requestMove f i 2 s else s) s) s

end Sys2Proof.Machine
end

