-- ==== Sys2Proof/Machine/Prefix.lean ====
section
/-! DEFINITION. The prefix index (08 R231 to R234) and the work list that is built with its help (05 R135). -/
namespace Sys2Proof.Machine

/-! ### The prefix index (08 R231 to R234) -/

/-- Tokens of block `b` of a session, by position. -/
def blockTokens (s : State) (y : Sess) (b : Nat) : List Nat := (List.range 128).map (fun i => txToken (s.txEntry y (128 * b + i)))

/-- The entry for block `b` of a session's tokens, found from the roots. -/
def prefixEntry (s : State) (f : Nat) (y : Sess) : Nat → Option Nat
  | 0 => (((s.fold f).prefix_.find? (fun p => p.2.parent.isNone && p.2.slot == y.record.imageSlot && p.2.tokens == blockTokens s y 0))).map (·.1)
  | b + 1 => match prefixEntry s f y b with
    | none => none
    | some e => (((s.fold f).prefix_.find? (fun p => p.2.parent == some e && p.2.slot == y.record.imageSlot &&
        p.2.tokens == blockTokens s y (b + 1)))).map (·.1)

/-- A change of the index noted for the next work list, where the drove has other members (08 R231). -/
def noteOp (f : Nat) (op : PrefixOp) (s : State) : State :=
  if (s.others f).isEmpty then s else s.modFold f (fun x => { x with prefixNews := x.prefixNews ++ [op] })

/-- The pages of block `b`, one for each list of the table, whole and unevicted; 0xFFFFFFFF for a list that holds none of its positions and for one
of a draft layer (09 R240); none where an entry is missing. -/
def blockPages (s : State) (f : Nat) (img : Image) (y : Sess) (b : Nat) : Option (List Nat) :=
  let a := y.record.imageRoot
  (s.allLists a).foldr (fun q acc =>
    let mine := (s.kvLayer f img q.1 ((img.layers[q.1]?).elim 0 (·.hdim))).mine (128 * b)
    match acc with
    | none => none
    | some l =>
      if s.mainLayers f ≤ q.1 || !mine || (s.ptList a q.1 q.2).1.isNone then some (0xFFFFFFFF :: l)
      else match (s.listPages f a q.1 q.2).find? (fun i => s.pgPos (s.sheetOffset f i) 0 == 128 * b && s.pgLive (s.sheetOffset f i) == 128) with
        | some i => some (i :: l)
        | none => none) (some [])

/-- One more reference to each of `l` (0xFFFFFFFF none): the sheets now referred to. -/
def takeRefs (f : Nat) : List Nat → State → Tried (List Nat × State)
  | [], s => .ok ([], s)
  | i :: t, s =>
    andThen (if i = 0xFFFFFFFF then .ok (i, s) else takeRef f i s) (fun r => andThen (takeRefs f t r.2) (fun q => .ok (r.1 :: q.1, q.2)))

/-- Entry `k` put into the index, one more child of its parent. -/
def indexEntry (f k : Nat) (e : PrefixEntry) (s : State) : State :=
  s.modFold f (fun x =>
    let m := match e.parent with
      | some j => modN x.prefix_ j (fun t => { t with children := t.children + 1 })
      | none => x.prefix_
    { x with prefix_ := setN m k e })

/-- Entry `k` taken out of the index on this member: its pages lose a reference (08 R234). -/
def removeEntry (f k : Nat) (s : State) : State :=
  match getN (s.fold f).prefix_ k with
  | none => s
  | some e =>
    let s := s.modFold f (fun x =>
      let m := match e.parent with
        | some j => modN x.prefix_ j (fun t => { t with children := t.children - 1 })
        | none => x.prefix_
      { x with prefix_ := delN m k })
    (e.pages.filter (· != 0xFFFFFFFF)).foldl (fun s i => dropRef f i s) s

/-- The least recently used leaf dropped, lowest entry first among equals (08 R234). -/
def dropLeaf (f : Nat) (s : State) : State :=
  match minOn (fun p : Nat × PrefixEntry => p.2.lastUse) ((s.fold f).prefix_.filter (fun p => p.2.children == 0)) with
  | none => s
  | some e => noteOp f (.drop e.1) (removeEntry f e.1 s)

/-- Leaves dropped until at most `n` entries are left; the root's doing (08 R231, R234). -/
def trimPrefix (f n : Nat) (s : State) : State :=
  if !s.isRoot f then s else
  (List.range ((s.fold f).prefix_.length - n)).foldl (fun s _ => dropLeaf f s) s

/-- This member's part of a registration (08 R232): a reference more to each page of block `b`, and the entry; `pages` are none where it holds no
whole block. -/
def enterBlock (f : Nat) (y : Sess) (b k : Nat) (parent : Option Nat) (pages : List Nat) (s : State) : State :=
  match takeRefs f pages s with
  | .error e => dropNew f s e.2
  | .ok r =>
    indexEntry f k { tokens := blockTokens s y b, parent := parent, slot := y.record.imageSlot, lastUse := (s.fold f).stepNo, children := 0
                     pages := r.1 } r.2

/-- Block `b` registered by the root (08 R232). -/
def registerBlock (f : Nat) (img : Image) (y : Sess) (b : Nat) (s : State) : State :=
  let max_ := s.act (rInkPrefix f)
  let input := (List.range (128 * b + 128)).all (fun p => txSrc (s.txEntry y p) < 2)
  let parent := if b = 0 then none else prefixEntry s f y (b - 1)
  if max_ = 0 || !s.isRoot f || !haveEntries y || y.record.txFirst != 0 || !input || (b != 0 && parent.isNone) || (prefixEntry s f y b).isSome then s
  else match blockPages s f img y b with
    | none => s
    | some pages =>
      let s := if (s.fold f).prefix_.length < max_ then s else dropLeaf f s
      if max_ ≤ (s.fold f).prefix_.length || (b != 0 && !hasN (s.fold f).prefix_ (parent.getD 0)) then s
      else match firstFrom (fun k => !hasN (s.fold f).prefix_ k) max_ 0 with
        | none => s
        | some k =>
          let s := enterBlock f y b k parent pages s
          if hasN (s.fold f).prefix_ k then noteOp f (.register y.record.sessionId b k) s else s

/-- Blocks that a committed chunk completes, registered. -/
def registerChunk (f : Nat) (img : Image) (i : WorkItem) (s : State) : State :=
  match s.seqSess f i.dseq with
  | none => s
  | some y =>
    if i.chunk = 0 || y.kvNext < i.first + i.chunk then s else
    ((List.range ((i.first + i.chunk) / 128)).filter (fun b => decide (i.first < 128 * (b + 1)))).foldl (fun s b => registerBlock f img y b s) s

/-- This member's part of a block shared to sequence `dseq` (08 R233): a reference more to each of the entry's pages, which end the session's lists;
PREFILL_NEXT is 128 on. -/
def shareEntry (f dseq k : Nat) (s : State) : Tried State :=
  match getN (s.fold f).seqs dseq, s.seqSess f dseq, getN (s.fold f).prefix_ k with
  | some e, some y, some t =>
    let a := y.record.imageRoot
    andThen ((((s.allLists a).zip t.pages).filter (fun q => q.2 != 0xFFFFFFFF)).foldl (fun r q => andThen r (fun s =>
        andThen (takeRef f q.2 s) (fun t => appendPage f a q.1.1 q.1.2 t.1 t.2))) (.ok s)) fun s =>
      let s := s.modFold f (fun x => { x with prefix_ := modN x.prefix_ k (fun t => { t with lastUse := x.stepNo })
                                              seqs := modN x.seqs dseq (fun e => { e with prefillNext := e.prefillNext + 128 }) })
      .ok (s.modSess e.session (fun y => { y with kvNext := max y.kvNext (e.prefillNext + 128) }))
  | _, _, _ => .ok s

/-- Blocks shared in place of prefill for one entry, at most `n` (08 R233). -/
def shareBlocks (f dseq : Nat) : Nat → State → State
  | 0, s => s
  | n + 1, s =>
    match getN (s.fold f).seqs dseq, s.seqSess f dseq with
    | some e, some y =>
      let p := e.prefillNext
      if p % 128 != 0 || s.act (rInkPrefix f) = 0 || !s.isRoot f || !haveEntries y || y.record.context < p + 129 then s else
      match prefixEntry s f y (p / 128) with
      | none => s
      | some k => match shareEntry f dseq k s with
        | .error _ => s
        | .ok s => shareBlocks f dseq n (noteOp f (.share dseq k) (s.count (rInkPrefixHits f) 1))
    | _, _ => s

/-! ### The list (05 R135) -/

/-- The chunk that stands next for a PREFILL entry: its first position and tokens; none where nothing is left, or where what fits is too little. -/
def nextChunk (s : State) (f cpt dseq : Nat) (allow : Int) : Option (Nat × Nat) :=
  match getN (s.fold f).seqs dseq with
  | none => none
  | some e =>
    let left := (s.sess e.session).elim 0 (·.prefillEnd) - e.prefillNext
    let most := if cpt = 0 then left else (allow / ((cpt * max 1 (s.mainLayers f) : Nat) : Int)).toNat
    let n := min (min (bitsOf (s.act (rSchPrefill f)) 12 0) left) most
    if n = 0 || (n < left && n < 16) then none else some (e.prefillNext, n)

/-- Whether an entry has positions left to prefill. -/
def State.prefillLeft (s : State) (e : SeqEntry) : Bool := decide (e.prefillNext < (s.sess e.session).elim 0 (·.prefillEnd))

/-- One prefill chunk; where one is built, blocks of the index take its place first (08 R233). -/
def addPrefill (f cpt : Nat) (t : ListWork × State) (p : Nat × SeqEntry) : ListWork × State :=
  let w := t.1
  if w.stop || p.2.heldOut || !t.2.prefillLeft p.2 then t
  else match nextChunk t.2 f cpt p.1 w.allow with
    | none => ({ w with stop := true }, t.2)
    | some _ =>
      let s := shareBlocks f p.1 64 t.2
      match nextChunk s f cpt p.1 w.allow with
      | none => (w, s)
      | some (first, n) =>
        ({ w with items := w.items ++ [{ dseq := p.1, chunk := n, first := first, limit := 0, resume := p.2.heldLayer }]
                  allow := w.allow - (n * (cpt * max 1 (s.mainLayers f)) : Nat) }, s)

/-- The work list of the fold's next step (05 R135), and the device after it; `old` is the list whose chunks may have been suspended. -/
def buildList (f : Nat) (old : List WorkItem) (s : State) : List WorkItem × State :=
  let x := s.fold f
  let cpt := (s.activeImage f).elim 0 (·.cpt)
  let w₀ : ListWork := ⟨[], [], 0, 0, false⟩
  let w := (x.entriesBy 2 true (·.lastStep) ++ x.entriesBy 2 false (·.lastStep)).foldl (addGeneration s f cpt) w₀
  let floor := bitsOf (s.act (rSchPrefill f)) 28 16
  let w := { w with allow := max ((s.act (rSchBudget f) : Int) - (w.used : Int)) ((floor * cpt : Nat) : Int) * (max 1 (s.mainLayers f) : Nat) }
  let susp := sortBy (fun a b : Nat × SeqEntry => decide (a.1 ≤ b.1)) (x.seqs.filter (fun p => p.2.phase == 3))
  let w := susp.foldl (addResumed s f cpt old) w
  let ready (e : SeqEntry) : Nat := e.ready.getD (2 ^ 64)
  let r := (x.entriesBy 1 true ready ++ x.entriesBy 1 false ready).foldl (addPrefill f cpt) (w, s)
  (r.1.items, r.2)

/-! ### The list published (05 R126, R134) -/

/-- The fold's next list, or an empty step, published by the root to every other member, with what there is to tell them. -/
def postList (f : Nat) (empty : Bool) (s : State) : State :=
  if !s.isRoot f then s else
  let x := s.fold f
  let live := x.seqs.filter (fun e => e.2.phase != 4)
  let p : Posting :=
    { number := x.stepNo, attempt := x.attempts, empty := empty, cut := x.cutAt, items := if empty then [] else x.nextWork
      roster := live.map (fun e => (e.1, e.2.session)), limits := (live.filter (·.2.reviving)).map (fun e => (e.1, e.2.layerLimit))
      ops := x.prefixNews, displaced := x.displaced, drained := x.drained }
  (s.others f).foldl (fun s d => match mail f (.list p) d (.posting f) none s with
    | .ok s => s
    | .error e => e.2) (s.modFold f (fun x => { x with prefixNews := [], displaced := [], drained := none }))

end Sys2Proof.Machine
end

