-- ==== Sys2Proof/Machine/Pass.lean ====
section
/-! DEFINITION. What the operations of a layer program share (06): the rows of a pass, operand addresses and rows, bindings, program
faults and abandoned steps, notify counters and accumulation. -/
namespace Sys2Proof.Machine

/-! ### Abandoning a step (06 R180, 07 R192, 13 R346) -/

/-- A pen stopped: its program, barrier and window dropped, its RACC count set back, the progress of open rounds discarded. -/
def Pen.abandon (x : Pen) : Pen :=
  { x with running := false, bar := none, pass := 0, opIndex := 0, excluded := [], route := none, groups := [], nextLayer := 0, stallSince := none
           section_ := none, dropped := true, raccCount := x.raccMark, accs := [], hold := [], word := none }

/-- The step of fold `f` stopped without a commit point: wet entries discarded, suspended chunks back in PREFILL. -/
def dropStep (f : Nat) (s : State) : State :=
  let items : List WorkItem := ((s.fold f).step.map (·.items)).getD []
  let s : State := items.foldl (fun s i => match s.seqSess f i.dseq with
    | some y => clearWet f y s
    | none => s) s
  let s : State := { s with pens := s.pens.map (fun p => if (s.fold f).pens.toNat.testBit p.1 then (p.1, p.2.abandon) else p) }
  let back (p : Nat × SeqEntry) : Nat × SeqEntry :=
    (p.1, { p.2 with heldLayer := none, phase := if p.2.phase = 3 && items.any (fun i => i.dseq == p.1) then 1 else p.2.phase })
  s.modFold f (fun x => { x with step := none, seqs := x.seqs.map back })

/-- The turns of the running step end with `st`. -/
def failStepTurns (f : Nat) (st : W16) (s : State) : State :=
  (((s.fold f).step.map (·.items)).getD []).foldl (fun s i =>
    match getN (s.fold f).seqs i.dseq with
    | some e => if e.phase = 4 then s else failTurn e.session st 0 s
    | none => s) s

/-- The step's number given a new list: the turns of the step failed with `st`, what is left listed by the root. -/
def relist (f : Nat) (st : W16) (s : State) : State :=
  let items := ((s.fold f).step.map (·.items)).getD []
  let s := dropStep f (failStepTurns f st s)
  let r := if s.isRoot f then buildList f items s else ([], s)
  postList f false (r.2.modFold f (fun x => { x with attempts := 0, nextWork := r.1 }))

/-- A step abandoned for a cause of 06 Table 6-10: causes 1, 2, 3 and 5 mark the image faulted and fail the turns; cause 4 republishes the
same step, and fails the turns with ST_PEER_LOST after 3 consecutive attempts. What is published the root publishes; the other members wait for it. -/
def abandonStep (f cause : Nat) (s : State) : State :=
  let items := ((s.fold f).step.map (·.items)).getD []
  if cause = 4 then
    if (s.fold f).attempts + 1 < 3 then
      postList f false ((dropStep f s).modFold f (fun x =>
        { x with attempts := x.attempts + b2n (s.isRoot f), nextWork := if s.isRoot f then items else [] }))
    else relist f stPeerLost s
  else (relist f stInternal s).modFold f (fun x => { x with faulted := true })

/-- The fold's pen that index `k` names. -/
def State.penNamed (s : State) (f k : Nat) : Option Nat := (s.fold f).penList[k]?

/-- Whether `n` bytes at `a` lie in the reduction buffers of a pen of the fold: its pinned slots from the reduction base on. -/
def State.inReduction (s : State) (f a n : Nat) : Bool :=
  decide (0x380000000000 ≤ a) && decide (a < 0x390000000000) && (s.pinnedOk f a n).isNone &&
    decide (Config.reductionBase f ≤ (a - 0x380000000000) % 0x1000000)

/-! ### The step control word (06 R177) -/

/-- The word as it ends the payload of the root's broadcast notify: DSEQ and layer limit of each reviving sequence, their number, ABORT and SUSPEND
(log entry 122). -/
def StepWord.bytes (w : StepWord) : List Byte :=
  w.limits.flatMap (fun l => leBytes 2 l.1 ++ leBytes 1 l.2) ++ leBytes 2 w.limits.length ++ leBytes 1 (b2n w.abort + 2 * b2n w.suspend)

/-- A payload with its control word stripped; none where it is too short for the word it says. -/
def stripWord (l : List Byte) : Option (List Byte × StepWord) :=
  let n := leAt l (l.length - 3) 2
  let flags := leAt l (l.length - 1) 1
  let at_ := l.length - 3 - 3 * n
  if l.length < 3 + 3 * n then none else
  some (l.take at_, { abort := bitOf flags 0, suspend := bitOf flags 1
                      limits := (List.range n).map (fun k => (leAt l (at_ + 3 * k) 2, leAt l (at_ + 3 * k + 2) 1)) })

/-- The word the root's sequencer sends as the fold's step stands. -/
def State.controlWord (s : State) (f : Nat) : StepWord :=
  { abort := ((s.fold f).step.map (·.abort)).getD false, suspend := ((s.fold f).step.map (·.suspend)).getD false
    limits := ((s.fold f).seqs.filter (fun p => p.2.reviving)).map (fun p => (p.1, p.2.layerLimit)) }

/-- The index of pen `n` in the ascending list of the fold's pens. -/
def State.penIndex (s : State) (f n : Nat) : Nat := (s.fold f).penList.findIdx (· == n)

/-! ### Program faults -/

/-- ABORT sent to the other members for a fault on the root (06 R180, Table 6-10): on each pen, the word alone as the next broadcast notify of its
program, which completes the barrier that waits for it there (log entry 150). -/
def sendAbort (f : Nat) (s : State) : State :=
  if !s.isRoot f then s else
  (s.fold f).penList.foldl (fun s n =>
    let p := s.pen n
    let word : List Byte := { s.controlWord f with abort := true : StepWord }.bytes
    match (p.program.drop p.opIndex).find? (fun o => opBits o 7 0 == 0x41 && opBits o 68 67 == 1) with
    | none => s
    | some o =>
      ((s.targets f 1).filter (· != s.selfNo)).foldl (fun s d =>
        match fabRequestWith [] (.reduction n) (some f) none (s.requestPacket (some f) n fabOpNotify d 0 word.length false false 0 0
            (BitVec.ofNat 64 (opBits o 66 62 + s.penIndex f n * 2 ^ 8)) word) s with
        | .ok s => s
        | .error e => e.2) s) s

/-- A program fault on pen `n` (06 R180, 18 Table 18-3): PROG_FAULT, one ERROR_UNCORRECTED, and the cause's action. -/
def programFault (f n cause : Nat) (s : State) : State :=
  let p := s.pen n
  let s := s.setAct (rPenProgFault n) (cause + p.layer % 256 * 2 ^ 8 + p.opIndex % 65536 * 2 ^ 16 + (s.fold f).stepNo % 2 ^ 32 * 2 ^ 32)
  let s := if cause = 4 then s else sendAbort f s
  abandonStep f cause (errorUncorrected (some f) 7 n cause 0xFFFFFFFF (p.opIndex % 65536 + p.layer % 256 * 65536) s)

/-! ### Rows of a pass (06 R162, R163, R166) -/

/-- Where an operation runs: fold, pen, and whether it is part of the draft program. -/
structure Ctx where
  fold : Nat
  pen : Nat
  draft : Bool

/-- ROW_CAP of the active image. -/
def State.rowCap (s : State) (f : Nat) : Nat := (s.activeImage f).elim 16 (fun x => max 1 x.rowCap)

/-- The rows of the fold's step. -/
def State.stepRows (s : State) (f : Nat) : List Row := ((s.fold f).step.map (·.rows)).getD []

/-- The rows of the pen's row pass. -/
def Ctx.rows (c : Ctx) (s : State) : List Row := ((s.stepRows c.fold).drop ((s.pen c.pen).pass * s.rowCap c.fold)).take (s.rowCap c.fold)

/-- The numbers, within the pass, of the rows that are not excluded. -/
def Ctx.live (c : Ctx) (s : State) : List Nat := (List.range (c.rows s).length).filter (fun r => !(s.pen c.pen).excluded.contains r)

/-- Row `r` of the step marked. -/
def modRow (f r : Nat) (g : Row → Row) (s : State) : State :=
  s.modFold f (fun x => { x with step := x.step.map (fun st => { st with rows := st.rows.mapIdx (fun i w => if i = r then g w else w) }) })

/-- Row `r` of the pass marked. -/
def Ctx.modRow (c : Ctx) (r : Nat) (g : Row → Row) (s : State) : State :=
  Sys2Proof.Machine.modRow c.fold ((s.pen c.pen).pass * s.rowCap c.fold + r) g s

/-- S of a row of `n` elements in format `fmt`. -/
def rowStride (fmt n : Nat) : Nat := ceilDiv (rowBytes fmt n) 64 * 64

/-- The shift of the window group of the layer whose section runs (07 R189), for a slate offset inside group 0 of a streamed image. -/
def Ctx.shift (c : Ctx) (s : State) (off : Nat) : Nat :=
  match s.activeImage c.fold, (s.pen c.pen).section_ with
  | none, _ | _, none => 0
  | some x, some j =>
    if !c.draft && (s.fold c.fold).streamed && decide (x.fixedSlots * 65536 ≤ off) && decide (off < (x.fixedSlots + x.groupSlots) * 65536) then
      j % max 1 (s.fold c.fold).depthUsed * (x.groupSlots * 65536)
    else 0

/-- The local offset an OA names for an operand of `bytes` bytes (06 R165), or program fault cause 2. -/
def Ctx.oa (c : Ctx) (s : State) (oa bytes : Nat) : Except Nat Nat :=
  if oa / 2 ^ 20 = 0 then
    let o := oa % 2 ^ 17 * 64
    let off := o + c.shift s o
    if bitsOf oa 19 17 != 0 || decide (0x600000 < off + bytes) then .error 2 else .ok (slateAt c.pen off)
  else if oa / 2 ^ 20 = 1 then
    let w := bitsOf oa 19 14
    let off := oa % 2 ^ 14 * 64
    if (s.fold c.fold).pinnedWays.contains w && decide (off + bytes ≤ 0xC0000) then .ok (commonsAt w off) else .error 2
  else .error 2

/-- A format code an operand of `n` elements can have; cause 1 otherwise. -/
def fmtOk (fmt n : Nat) : Except Nat Unit := if fmtBits fmt = 0 || (fmtMx fmt && n % 32 != 0) then .error 1 else .ok ()

/-- The base of a per-row operand of `n` elements in format `fmt`, its OA in bits lo + 21 to lo of the operation. -/
def Ctx.operand (c : Ctx) (s : State) (op : OpWord) (lo n fmt : Nat) : Except Nat Nat := do
  fmtOk fmt n
  c.oa s (opBits op (lo + 21) lo) ((c.rows s).length * rowStride fmt n)

/-- Row `r` of an operand as FP32 values, and whether it holds poison. -/
def vecAt (s : State) (base fmt n r : Nat) : List W32 × Bool :=
  let a := base + r * rowStride fmt n
  (rowVals fmt n (s.read a (rowBytes fmt n)), s.poisoned a (rowBytes fmt n))

/-- Bytes written at local offset `a`, poisoned if `bad`. -/
def putBytes (a : Nat) (l : List Byte) (bad : Bool) (s : State) : State :=
  let s := s.write a l
  if bad then s.addPoison ((List.range (ceilDiv (a % 64 + l.length) 64)).map (fun k => a / 64 + k)) else s

/-- The rows `f` gives written to an operand: every live row's bytes, computed before any is written. -/
def Ctx.putRows (c : Ctx) (base stride : Nat) (f : Nat → List Byte × Bool) (s : State) : State :=
  ((c.live s).map (fun r => (r, f r))).foldl (fun s e => putBytes (base + e.1 * stride) e.2.1 e.2.2 s) s

/-- The rows `f` gives, converted to format `fmt` (06 R158, R159, R171). -/
def Ctx.putVals (c : Ctx) (op : OpWord) (base fmt n : Nat) (f : Nat → List W32 × Bool) (s : State) : State :=
  c.putRows base (rowStride fmt n) (fun r => let v := f r; (encodeRow fmt (bitOf op.toNat 9) (v.1.map fpVal), v.2)) s

/-- The constant an operation names. -/
def Ctx.const (c : Ctx) (s : State) (op : OpWord) : W32 := (s.activeImage c.fold).elim 0 (fun x => x.constants.getD (opBits op 123 114) 0)

/-! ### Bindings (06 R161, 07 R195) -/

/-- The local offset that entry `w` of an image's binding template names on pen `n`: none for a reserved base, an unused entry, and an offset
outside the pen's slate or the fold's pinned ways (02 R24, R27, 06 R152). -/
def resolveBind (s : State) (f n : Nat) (x : Image) (w : W64) : Option Nat :=
  let w := w.toNat
  let off := w / 256
  let slate (o : Nat) : Option Nat := if o < 0x600000 then some (slateAt n o) else none
  if w % 8 = 1 then slate off
  else if w % 8 = 2 then ((s.fold f).pinnedWays[off / 0xC0000]?).map (fun v => commonsAt v (off % 0xC0000))
  else if w % 8 = 3 then some (x.hbmBase + off)
  else if w % 8 = 4 then slate (Config.reductionBase f + off) else none

/-- Whether `n` bytes at `a` lie in the fold's window, or in the populated part of one slate or one way (02 R26, R27). -/
def regionOk (s : State) (f a n : Nat) : Bool :=
  if a < 0x300000000000 then decide (s.winBase f ≤ a) && decide (a + n ≤ s.winLimit f)
  else if a < 0x380000000000 then false
  else if a < 0x390000000000 then decide ((a - 0x380000000000) % 0x1000000 + n ≤ 0x600000)
  else decide (a < 0x394000000000) && decide ((a - 0x390000000000) % 0x100000 + n ≤ 0xC0000)

/-- Binding entry `k` of pen `n` for an access of `len` bytes; cause 3 where it names none, or the access leaves what it names (02 R24). -/
def bindAddr (s : State) (f n k len : Nat) : Except Nat Nat :=
  match (s.pen n).binding.getD k none with
  | some a => if regionOk s f a len then .ok a else .error 3
  | none => .error 3

/-! ### Notify counters and accumulation (06 R175 to R178, 13 R345 to R347) -/

/-- Counter `k` of pen `n` one higher; a count above 2^32 − 1 saturates. -/
def bumpCtr (n k : Nat) (s : State) : State :=
  s.modPen n (fun x =>
    let v := getND x.notify k 0
    if v = BitVec.allOnes 32 then { x with saturated := if x.saturated.contains k then x.saturated else x.saturated ++ [k] }
    else { x with notify := setN x.notify k (v + 1) })

/-- Fields of an ACC's OPARG (13 Table 13-2). -/
def accMember (p : Packet) : Nat := bitsOf p.oparg.toNat 17 0
def accRound (p : Packet) : Nat := bitsOf p.oparg.toNat 33 18
def accBf16 (p : Packet) : Bool := bitOf p.oparg.toNat 34
def accNotify (p : Packet) : Bool := bitOf p.oparg.toNat 35
def accCtr (p : Packet) : Nat := bitsOf p.oparg.toNat 40 36
def accAttempt (p : Packet) : Nat := bitsOf p.oparg.toNat 49 47

/-- How many contributions of a fragment pen `n` has applied in a round. -/
def accCount (s : State) (n : Nat) (p : Packet) : Nat := (getN (s.pen n).accs (accRound p)).elim 0 (fun a => getND a.applied p.frag 0)

/-- Whether `p` is the next contribution of its round and fragment at pen `n`. -/
def accNext (s : State) (f n : Nat) (p : Packet) : Bool := (s.contributors f)[accCount s n p]? == some (accMember p)

/-- The values a contribution carries. -/
def accVals (p : Packet) : List W32 :=
  if accBf16 p then (List.range (p.payload.length / 2)).map (fun i => BitVec.ofNat 32 (leAt p.payload (2 * i) 2 * 65536))
  else (List.range (p.payload.length / 4)).map (fun i => BitVec.ofNat 32 (leAt p.payload (4 * i) 4))

/-- Contribution `p` applied at pen `n`: the first of its round and fragment replaces, a later one adds. -/
def accApply (f n : Nat) (p : Packet) (s : State) : State :=
  let k := accCount s n p
  let a := p.addr + p.frag * (if accBf16 p then 8192 else 4096)
  let vs := accVals p
  let old (i : Nat) : W32 := BitVec.ofNat 32 (s.num (a + 4 * i) 4)
  let new := vs.mapIdx (fun i v => if k = 0 then v else fpAdd (old i) v)
  let was := (List.range (ceilDiv (4 * vs.length) 64)).filter (fun u => decide (0 < k) && s.poisoned (a + 64 * u) 64)
  let bad := (bitsSet 64 p.pmask.toNat).flatMap (fun u => if accBf16 p then [2 * u, 2 * u + 1] else [u])
  let s := (s.write a (new.flatMap (fun v => leBytes 4 v.toNat))).addPoison ((was ++ bad).map (fun u => a / 64 + u))
  let whole := p.last && k + 1 == (s.contributors f).length
  let s := s.modPen n (fun x =>
    let r := getND x.accs (accRound p) ⟨[], accAttempt p⟩
    { x with accs := if whole then delN x.accs (accRound p) else setN x.accs (accRound p) { r with applied := setN r.applied p.frag (k + 1) } })
  if accNotify p && p.last then bumpCtr ((s.fold f).penList.getD (bitsOf p.oparg.toNat 46 41) n) (accCtr p) s else s

/-- Held contributions applied as they become next. -/
def accDrain (f n : Nat) : Nat → State → State
  | 0, s => s
  | k + 1, s =>
    match (s.pen n).hold.find? (accNext s f n) with
    | none => s
    | some p => accDrain f n k (accApply f n p (s.modPen n (fun x => { x with hold := dropFirst p x.hold })))

/-- A contribution at pen `n`: applied if next, else held; none when the hold buffer of 128 fragments is full. The pen's own fragments wait at the
pen that issues them and take none of the buffer's room (06 R176, 13 R345, log entry 149). -/
def accArrive (f n : Nat) (p : Packet) (s : State) : Option State :=
  if accNext s f n p then some (accDrain f n ((s.pen n).hold.length + 1) (accApply f n p s))
  else if p.src = s.selfNo || ((s.pen n).hold.filter (fun q => q.src != s.selfNo)).length < 128 then some (s.modPen n (fun x => { x with hold := x.hold ++ [p] }))
  else none

end Sys2Proof.Machine
end

