-- ==== Sys2Proof/Machine/Vector.lean ====
section
/-! DEFINITION. What the operations of the quill arrays, the vector unit and the copier do on one pen (06 R155 to R159, R168 to R173). Each
answers the state after it or the cause of a program fault (06 Table 6-10). -/
namespace Sys2Proof.Machine

/-- FA, FB, FD of an operation, and L in bits 113:98. -/
def opFa (op : OpWord) : Nat := opBits op 19 16
def opFb (op : OpWord) : Nat := opBits op 23 20
def opFd (op : OpWord) : Nat := opBits op 27 24
def opSub (op : OpWord) : Nat := opBits op 31 28
def opLen (op : OpWord) : Nat := opBits op 113 98

/-- L of a vector operation, 1 to 65,535 (06 Table 6-6); RACC and LOGITS are held to the same range (06 R168, log entry 169). -/
def vecLen (op : OpWord) : Except Nat Nat := if opLen op = 0 then .error 1 else .ok (opLen op)

/-! ### VEW, VRED, NORM, ACT (06 R171) -/

/-- Element-wise f(A, B). -/
def vewBinary (g : W32 → W32 → W32) (op : OpWord) (c : Ctx) (s : State) : Except Nat State := do
  let n ← vecLen op
  let a ← c.operand s op 32 n (opFa op)
  let b ← c.operand s op 54 n (opFb op)
  fmtOk (opFd op) n
  let d ← c.operand s op 76 n (opFd op)
  .ok (c.putVals op d (opFd op) n (fun r =>
    let x := vecAt s a (opFa op) n r
    let y := vecAt s b (opFb op) n r
    ((x.1.zip y.1).map (fun e => g e.1 e.2), x.2 || y.2)) s)

/-- Element-wise f(A), f given the constant of the operation. -/
def vewUnary (g : W32 → W32 → W32) (op : OpWord) (c : Ctx) (s : State) : Except Nat State := do
  let n ← vecLen op
  let a ← c.operand s op 32 n (opFa op)
  let d ← c.operand s op 76 n (opFd op)
  .ok (c.putVals op d (opFd op) n (fun r => let x := vecAt s a (opFa op) n r; (x.1.map (fun v => g v (c.const s op)), x.2)) s)

/-- One FP32 or one 32-bit integer per row. -/
def vredScalar (g : List W32 → W32) (op : OpWord) (c : Ctx) (s : State) : Except Nat State := do
  let n ← vecLen op
  let a ← c.operand s op 32 n (opFa op)
  let d ← c.operand s op 76 1 0
  .ok (c.putRows d 64 (fun r => let x := vecAt s a (opFa op) n r; (leBytes 4 (g x.1).toNat, x.2)) s)

/-- Sum, maximum and sum of squares of a row, in the vector unit's order. -/
def rowSum (l : List W32) : W32 := reduceRow fpAdd fpZero l
def rowMax (l : List W32) : W32 := reduceRow fpMax fpZero l
def rowSquares (l : List W32) : W32 := rowSum (l.map (fun v => fpMul v v))

/-- The lowest index of the row maximum; a row with a NaN has none, and what the device then gives is a function of the row (log entry 20). -/
def rowArgmax (l : List W32) : W32 :=
  if l.any fpIsNan then Config.argmaxOfNan l
  else BitVec.ofNat 32 (l.findIdx (fun v => !fpLt v (rowMax l)))

/-- VRED argmax. -/
def vredArg (op : OpWord) (c : Ctx) (s : State) : Except Nat State := vredScalar rowArgmax op c s

/-- The route slots of row `r`: expert and weight (06 R173). -/
def routeSlots (s : State) (rt : Nat × Nat) (r : Nat) : List (Nat × W32) :=
  (List.range rt.2).map (fun j => (s.num (rt.1 + r * 64 + 8 * j) 1, BitVec.ofNat 32 (s.num (rt.1 + r * 64 + 8 * j + 4) 4)))

/-- Σ w_j × A_j in slot order, for one row of `n` elements a slot. -/
def combineRow (n : Nat) (ws : List (Nat × W32)) (x : List W32) : List W32 :=
  match ws.mapIdx (fun j w => ((x.drop (j * n)).take n).map (fun v => fpMul w.2 v)) with
  | [] => List.replicate n fpZero
  | t :: ts => ts.foldl (fun acc u => (acc.zip u).map (fun e => fpAdd e.1 e.2)) t

/-- VRED combine; with no ROUTE in the row pass it is a program fault of cause 5 (06 R173, log entry 171). -/
def vredCombine (op : OpWord) (c : Ctx) (s : State) : Except Nat State :=
  match (s.pen c.pen).route with
  | none => .error 5
  | some rt => do
    let n ← vecLen op
    let a ← c.operand s op 32 (rt.2 * n) (opFa op)
    let d ← c.operand s op 76 n (opFd op)
    .ok (c.putVals op d (opFd op) n (fun r =>
      let x := vecAt s a (opFa op) (rt.2 * n) r
      (combineRow n (routeSlots s rt r) x.1, x.2 || s.poisoned (rt.1 + r * 64) 64)) s)

/-- The vector of `n` values in format `fmt` at an OA, `skip` bytes on: gains and biases. -/
def gainAt (c : Ctx) (s : State) (op : OpWord) (n skip : Nat) : Except Nat (List W32 × Bool) := do
  fmtOk (opFb op) n
  let b ← c.oa s (opBits op 75 54) (skip + rowBytes (opFb op) n)
  .ok (vecAt s (b + skip) (opFb op) n 0)

/-- RMSNorm: (x × rsqrt(Σx² ÷ L + ε)) × g. -/
def normRms (op : OpWord) (c : Ctx) (s : State) : Except Nat State := do
  let n ← vecLen op
  let a ← c.operand s op 32 n (opFa op)
  let g ← gainAt c s op n 0
  let d ← c.operand s op 76 n (opFd op)
  .ok (c.putVals op d (opFd op) n (fun r =>
    let x := vecAt s a (opFa op) n r
    let k := vuRsqrt (fpAdd (fpDiv (rowSquares x.1) (fpNat n)) (c.const s op))
    ((x.1.zip g.1).map (fun e => fpMul (fpMul e.1 k) e.2), x.2 || g.2)) s)

/-- One row of LayerNorm: ((x − μ) × rsqrt(v + ε)) × g + b. -/
def layerNormRow (n : Nat) (eps : W32) (g b x : List W32) : List W32 :=
  let mu := fpDiv (rowSum x) (fpNat n)
  let y := x.map (fun v => fpSub v mu)
  let k := vuRsqrt (fpAdd (fpDiv (rowSquares y) (fpNat n)) eps)
  (y.zip (g.zip b)).map (fun e => fpAdd (fpMul (fpMul e.1 k) e.2.1) e.2.2)

/-- LayerNorm, the bias following the gain. -/
def normLayer (op : OpWord) (c : Ctx) (s : State) : Except Nat State := do
  let n ← vecLen op
  let a ← c.operand s op 32 n (opFa op)
  let g ← gainAt c s op n 0
  let b ← gainAt c s op n (rowBytes (opFb op) n)
  let d ← c.operand s op 76 n (opFd op)
  .ok (c.putVals op d (opFd op) n (fun r =>
    let x := vecAt s a (opFa op) n r
    (layerNormRow n (c.const s op) g.1 b.1 x.1, x.2 || g.2 || b.2)) s)

/-- SwiGLU: SiLU(A) × B. -/
def swiglu (a b : W32) : W32 := fpMul (vuSilu a) b

/-! ### ROPE (06 R172) -/

/-- One head of `hd` values rotated at position `p`: the first `rot` dimensions in pairs (SUB 0 halves, SUB 1 neighbours).
The sense of the rotation and the roundings are the model's choice (log entry 170). -/
def ropeHead (adjacent : Bool) (rot p : Nat) (theta : W32) (x : List W32) : List W32 :=
  x.mapIdx (fun i v =>
    if rot ≤ i then v else
    let pair := if adjacent then i / 2 else i % (rot / 2)
    let first := if adjacent then i % 2 == 0 else decide (i < rot / 2)
    let other := x.getD (if adjacent then (if i % 2 = 0 then i + 1 else i - 1) else if i < rot / 2 then i + rot / 2 else i - rot / 2) 0
    let sn := vuSin p pair rot theta
    let cs := vuCos p pair rot theta
    if first then fpSub (fpMul v cs) (fpMul other sn) else fpAdd (fpMul other sn) (fpMul v cs))

/-- ROPE on every head of every row. -/
def ropeOp (adjacent : Bool) (op : OpWord) (c : Ctx) (s : State) : Except Nat State :=
  let heads := opBits op 63 54
  let hd := opBits op 72 64
  let rot := opBits op 106 98
  if heads = 0 || 256 < heads || !([64, 96, 128, 192, 256].contains hd) || rot % 2 = 1 || rot < 2 || hd < rot then .error 1
  else do
    let n := heads * hd
    let a ← c.operand s op 32 n (opFa op)
    let d ← c.operand s op 76 n (opFd op)
    .ok (c.putVals op d (opFd op) n (fun r =>
      let x := vecAt s a (opFa op) n r
      let p := ((c.rows s)[r]?).elim 0 (·.position)
      ((chunksOf hd x.1).flatMap (ropeHead adjacent rot p (c.const s op)), x.2)) s)

/-! ### ROUTE (06 R173) -/

/-- softmax of a row: exp(x − max) ÷ Σ. -/
def softmax (l : List W32) : List W32 :=
  let m := rowMax l
  let e := l.map (fun v => vuExp (fpSub v m))
  e.map (fun v => fpDiv v (rowSum e))

/-- The `k` largest by value, then lower expert number. -/
def topK (k : Nat) (l : List (Nat × W32)) : List (Nat × W32) := (sortBy logitLe l).take k

/-- The route slots of a row of logits; with a NaN among them the spec gives no order, and the slots are a function of the row (06 R160). -/
def routeRow (sub k : Nat) (l : List W32) : List (Nat × W32) :=
  let numbered := l.mapIdx (fun i v => (i, v))
  if l.any fpIsNan then (List.range k).map (fun j => ((Config.routeOfNan sub k l j).1 % l.length, (Config.routeOfNan sub k l j).2))
  else if sub = 0 then
    let t := topK k numbered
    topK k ((t.map (·.1)).zip (softmax (t.map (·.2))))
  else
    let t := topK k ((numbered.map (·.1)).zip (softmax l))
    if sub = 1 then t else
    let sum := rowSum (t.map (·.2))
    topK k (t.map (fun e => (e.1, fpDiv e.2 sum)))

/-- ROUTE: K slots of 8 bytes per row. -/
def routeOp (sub : Nat) (op : OpWord) (c : Ctx) (s : State) : Except Nat State :=
  let k := opBits op 57 54
  let e := opLen op
  if k = 0 || 8 < k || e = 0 || 256 < e || e < k then .error 1
  else do
    let a ← c.operand s op 32 e 0
    let d ← c.oa s (opBits op 97 76) ((c.rows s).length * 64)
    let s' := c.putRows d 64 (fun r =>
      let x := vecAt s a 0 e r
      ((routeRow sub k x.1).flatMap (fun w => leBytes 1 w.1 ++ zerosB 3 ++ leBytes 4 w.2.toNat), x.2)) s
    .ok (s'.modPen c.pen (fun p => { p with route := some (d, k) }))

/-! ### MMA (06 R155, R156, R169, R173) -/

/-- Depth of a tile along K, by weight format. -/
def tileDepth (w : Nat) : Nat := if w = 1 then 128 else if w = 7 || w = 8 then 320 else if w = 9 then 512 else 256

/-- Table 6-3. -/
def pairing (a w : Nat) : Bool :=
  if [2, 3, 5, 6, 7, 8, 9].contains w then [2, 3, 5, 6].contains a
  else if w = 4 || w = 10 then a == 4 || a == 10
  else w == 1 && a == 1

/-- Column `n` of the tile at local offset `t`: its elements, and its scale bytes. -/
def tileColumn (s : State) (w t n : Nat) : List Num × List Nat :=
  let body := s.read (t + n * 256) 256
  ((List.range (tileDepth w)).map (fun i => decodeElem w (elemAt w body i)), (s.read (t + 32768 + n * 16) 16).map (·.toNat))

/-- The scale of block `b`: 2^0 for a format that is not MX. -/
def blockScale (fmt : Nat) (scales : List Nat) (b : Nat) : Option Int := if fmtMx fmt then scaleExp (scales.getD b 127) else some 0

/-- One block sum: 32 products summed exactly, scaled, rounded once to FP32 (06 R156 steps 1 to 3). -/
def blockSum (xs ws : List Num) (ea ew : Option Int) : W32 :=
  match ea, ew with
  | some a, some w => fpOf (((xs.zip ws).foldl (fun (t : Num) e => t.add (e.1.mul e.2)) (Num.fin false 0 0)).scale (a + w))
  | _, _ => fpNan

/-- A row of A: elements without scale, and scale bytes. -/
def actRow (s : State) (fmt k a : Nat) : List Num × List Nat :=
  let l := s.read a (rowBytes fmt k)
  ((List.range k).map (fun i => decodeElem fmt (elemAt fmt l i)), (List.range (k / 32)).map (fun b => (l.getD (ceilDiv (k * fmtBits fmt) 8 + b) 0).toNat))

/-- One element of C: the accumulator started at `c0`, the rounded block sums added in ascending K order. -/
def mmaDot (s : State) (fa w : Nat) (x : List Num × List Nat) (tiles : List Nat) (col : Nat) (c0 : W32) : W32 :=
  (List.range tiles.length).foldl (fun acc kt =>
    let t := tileColumn s w (tiles.getD kt 0) col
    (List.range (tileDepth w / 32)).foldl (fun acc b =>
      let at_ := kt * tileDepth w + 32 * b
      fpAdd acc (blockSum ((x.1.drop at_).take 32) ((t.1.drop (32 * b)).take 32) (blockScale fa x.2 (at_ / 32)) (blockScale w t.2 b))) acc) c0

/-- The row of N = NT × 128 results of one row of A against the weights whose first tile lies at `w0`; and whether it is poisoned. -/
def mmaRow (s : State) (fa fb kt nt a w0 : Nat) (start : List W32) : List W32 × Bool :=
  let k := kt * tileDepth fb
  let x := actRow s fa k a
  ((List.range nt).flatMap (fun n =>
      let tiles := (List.range kt).map (fun i => w0 + (n * kt + i) * 34816)
      (List.range 128).map (fun col => mmaDot s fa fb x tiles col (start.getD (n * 128 + col) fpZero))),
   s.poisoned a (rowBytes fa k) || s.poisoned w0 (kt * nt * 34816))

/-- MMA, with its weights at W or selected by route. -/
def mmaOp (op : OpWord) (c : Ctx) (s : State) : Except Nat State :=
  let fa := opFa op
  let fb := opFb op
  let fd := opFd op
  let kt := opBits op 107 98
  let nt := opBits op 117 108
  let acc := opBits op 119 118
  if fmtBits fa = 0 || fmtBits fb = 0 || 1 < fd || kt = 0 || nt = 0 || 1 < acc then .error 1
  else if !pairing fa fb then .error 5
  else do
    let n := nt * 128
    let bytes := kt * nt * 34816
    let a ← c.operand s op 32 (kt * tileDepth fb) fa
    let sa := rowStride fa (kt * tileDepth fb)
    if bitOf op.toNat 10 then
      match (s.pen c.pen).route with
      | none => .error 5
      | some rt => do
        let t ← c.oa s (opBits op 75 54) 1024
        let d ← c.operand s op 76 (rt.2 * n) fd
        let oas := (List.range 256).map (fun e => s.num (t + 4 * e) 4)
        let used := ((c.live s).flatMap (fun r => (routeSlots s rt r).map (·.1))).eraseDups
        let _ ← (used.filter (fun e => oas.getD e 0 != 0xFFFFFFFF)).mapM (fun e => c.oa s (oas.getD e 0) bytes)
        let w0 (e : Nat) : Option Nat := if oas.getD e 0 = 0xFFFFFFFF then none else (c.oa s (oas.getD e 0) bytes).toOption
        .ok (c.putVals op d fd (rt.2 * n) (fun r =>
          let old := if acc = 1 then (vecAt s d fd (rt.2 * n) r) else ([], false)
          let rows := (routeSlots s rt r).mapIdx (fun j e =>
            let start := (old.1.drop (j * n)).take n
            match w0 e.1 with
            | some w => mmaRow s fa fb kt nt (a + r * sa) w start
            | none => (List.replicate n fpZero, false))
          (rows.flatMap (·.1), old.2 || s.poisoned (rt.1 + r * 64) 64 || s.poisoned t 1024 || rows.any (·.2))) s)
    else do
      let w ← c.oa s (opBits op 75 54) bytes
      let d ← c.operand s op 76 n fd
      .ok (c.putVals op d fd n (fun r =>
        let old := if acc = 1 then vecAt s d fd n r else ([], false)
        let x := mmaRow s fa fb kt nt (a + r * sa) w old.1
        (x.1, x.2 || old.2)) s)

/-! ### GATHER, COPY, LOGITS (06 R168) -/

/-- GATHER: row r receives the L bytes of the table at its input token. -/
def gatherOp (op : OpWord) (c : Ctx) (s : State) : Except Nat State :=
  let n := opLen op
  if n % 64 != 0 then .error 1 else do
    let b ← bindAddr s c.fold c.pen (opBits op 61 54) 0
    let d ← c.oa s (opBits op 97 76) ((c.rows s).length * n)
    (c.live s).foldlM (fun s r =>
      let t := ((c.rows s)[r]?).elim 0 (·.token)
      match readLocal c.fold (b + t * n) n s with
      | .ok l => .ok (putBytes (d + r * n) l.1 (l.2.poisoned (b + t * n) n) l.2)
      | .error e => if e.1 = stPoison then .ok (putBytes (d + r * n) (zerosB n) true e.2) else .error 3) s

/-- COPY: L bytes per row. -/
def copyOp (op : OpWord) (c : Ctx) (s : State) : Except Nat State :=
  let n := opLen op
  if n % 64 != 0 then .error 1 else do
    let a ← c.oa s (opBits op 53 32) ((c.rows s).length * n)
    let d ← c.oa s (opBits op 97 76) ((c.rows s).length * n)
    .ok (c.putRows d n (fun r => (s.read (a + r * n) n, s.poisoned (a + r * n) n)) s)

/-- The LOGITS operations that cover the row with `op`: those before it in the main program, every one of the draft program. -/
def otherSlices (op : OpWord) (c : Ctx) (s : State) : List OpWord :=
  let l := (s.activeImage c.fold).elim [] (fun x => if c.draft then x.draftProgram.erase op else x.program.take (s.pen c.pen).opIndex)
  l.filter (fun o => opBits o 7 0 == 0x60 && !(bitOf o.toNat 8 && !s.isRoot c.fold))

/-- Whether two slices share a token ID. -/
def slicesMeet (a b : OpWord) : Bool :=
  decide (opBits a 71 54 < opBits b 71 54 + opLen b) && decide (opBits b 71 54 < opBits a 71 54 + opLen a)

/-- A token's logit put into its row; another pen of the fold may have given it for the same operation (log entry 75). -/
def setLogit (m : NMap W32) (t : Nat) (v : W32) : NMap W32 :=
  setN m t (match getN m t with
    | some u => if u = v then v else Config.logitOfPens u v
    | none => v)

/-- The slices of a LOGITS operation sent to the root by another member (10 R255). -/
def sendSlices (c : Ctx) (base a n : Nat) (s : State) : State :=
  if c.draft || s.isRoot c.fold then s else
  match (s.fold c.fold).step with
  | none => s
  | some st =>
    let rows := (c.live s).map (fun r =>
      let x := vecAt s a 0 n r
      ((s.pen c.pen).pass * s.rowCap c.fold + r, base, x.2, x.1))
    mailRoot c.fold (.logits { source := s.selfNo, step := st.number, attempt := st.attempt, rows := rows }) s

/-- A row with a slice put in. -/
def Row.putSlice (vocab base : Nat) (bad : Bool) (l : List W32) (w : Row) : Row :=
  { w with logits := (l.mapIdx (fun i v => (base + i, v))).foldl (fun m e => if e.1 < vocab then setLogit m e.1 e.2 else m) w.logits
           poisoned := w.poisoned || bad }

/-- LOGITS: each row's slice handed to verification and sampling (09 R245, 10 R255); tokens past the vocabulary are none, and a token that a
slice of another operation covers is a fault. -/
def logitsOp (op : OpWord) (c : Ctx) (s : State) : Except Nat State := do
  let n ← vecLen op
  let a ← c.operand s op 32 n 0
  let base := opBits op 71 54
  let vocab := s.vocab c.fold
  if (otherSlices op c s).any (slicesMeet op) then .error 1
  else .ok (sendSlices c base a n ((c.live s).foldl (fun s r =>
    let x := vecAt s a 0 n r
    c.modRow r (Row.putSlice vocab base x.2 x.1) s) s))

end Sys2Proof.Machine
end

