-- ==== Sys2Proof/Machine/Attn.lean ====
section
/-! DEFINITION. ATTN (08 R214 to R223): writing new entries, reading pages, attending reads asked for and answered, merging, scores. -/
namespace Sys2Proof.Machine

/-! ### Operands -/

/-- What an ATTN works on: the layer, formats, operand bases on the fold's lowest pen, O on every pen, query heads per KV head. -/
structure AttnArgs where
  img : Image
  kv : KvLayer
  fa : Nat
  fb : Nat
  fd : Nat
  q : Nat
  k : Nat
  v : Nat
  outs : List Nat
  qg : Nat

/-- HDIM in elements. -/
def AttnArgs.hd (g : AttnArgs) : Nat := hdimOf g.kv.code
/-- Elements of a row of Q and of a row of K or V. -/
def AttnArgs.qn (g : AttnArgs) : Nat := g.kv.heads.length * g.qg * g.hd
def AttnArgs.kn (g : AttnArgs) : Nat := g.kv.heads.length * g.hd
/-- W of the layer; 0 for a full one. -/
def AttnArgs.window (g : AttnArgs) : Nat := if g.kv.info.sliding then g.kv.info.window else 0

/-- The fold's lowest pen. -/
def State.lowPen (s : State) (f : Nat) : Nat := (s.fold f).penList.headD 0

/-- The operands of an ATTN. A draft program's LAYER field counts draft layers (09 R240). -/
def attnArgs (f : Nat) (draft : Bool) (op : OpWord) (s : State) : Except Nat AttnArgs :=
  match s.activeImage f with
  | none => .error 1
  | some x =>
    let l := opBits op 127 120 + (if draft then s.mainLayers f else 0)
    let c : Ctx := ⟨f, s.lowPen f, draft⟩
    if 4 < opSub op || 3 < opFa op || 3 < opFb op || 1 < opFd op || decide (x.layers.length ≤ l) || (!draft && decide (s.mainLayers f ≤ l)) then .error 1
    else do
      let kv := s.kvLayer f x l (opSub op)
      let qg := max 1 (kv.info.qHeads / max 1 kv.info.kvHeads)
      let kn := kv.heads.length * hdimOf (opSub op)
      let q ← c.operand s op 32 (kn * qg) (opFa op)
      let k ← c.operand s op 54 kn (opFb op)
      let v ← c.operand s op 76 kn (opFb op)
      let outs ← (s.fold f).penList.mapM (fun n => ({ c with pen := n } : Ctx).operand s op 98 (kn * qg) (opFd op))
      .ok ⟨x, kv, opFa op, opFb op, opFd op, q, k, v, outs, qg⟩

/-! ### The sequences of a pass -/

/-- The item of a sequence in the running step. -/
def State.stepItem (s : State) (f dseq : Nat) : Option WorkItem := (s.fold f).step.bind (fun st => st.items.find? (fun i => i.dseq == dseq))

/-- The positions whose dry entries a sequence writes in this step (08 R215, 09 R241). -/
def freshPositions (s : State) (f : Nat) (draft : Bool) (dseq : Nat) : List Nat :=
  match s.stepItem f dseq, s.seqSess f dseq with
  | some i, some y =>
    if draft then (List.range (i.first + b2n (i.chunk == 0) - y.record.draft.draftPos)).map (fun k => y.record.draft.draftPos + k)
    else if i.chunk = 0 then [i.first] else (List.range i.chunk).map (fun k => i.first + k)
  | _, _ => []

/-- The sequences of the pass's live rows, in row order, each with its rows. -/
def Ctx.seqRows (c : Ctx) (s : State) : List (Nat × List Nat) :=
  let rs := c.rows s
  let ds (r : Nat) : Nat := (rs[r]?).elim 0 (·.dseq)
  (((c.live s).map ds).eraseDups).map (fun d => (d, (c.live s).filter (fun r => ds r == d)))

/-- p_lo and p_hi of a sequence: the lowest and the highest position of its rows in the step (08 R218), and of `more`. -/
def State.rowSpan (s : State) (f dseq : Nat) (more : List Nat) : Nat × Nat :=
  let ps := more ++ ((s.stepRows f).filter (fun r => r.dseq == dseq)).map (·.position)
  (ps.foldl min (ps.headD 0), ps.foldl max 0)

/-- Position of row `r` of the pass. -/
def Ctx.posOf (c : Ctx) (s : State) (r : Nat) : Nat := ((c.rows s)[r]?).elim 0 (·.position)

/-- A sequence whose rows the step discards for quota (08 R226). -/
def markQuota (f dseq : Nat) (s : State) : State :=
  s.modFold f (fun x => { x with step := x.step.map (fun st => { st with quotaSeqs := if st.quotaSeqs.contains dseq then st.quotaSeqs else st.quotaSeqs ++ [dseq] }) })

/-- A page of a sequence refused for quota at layer `l`: the step discards its rows, but a turn-out is held at the layer and goes on from there (08
R226, 04 R108, log entry 163). -/
def quotaRefused (f dseq l : Nat) (s : State) : State :=
  if (getN (s.fold f).seqs dseq).any (·.reviving) then
    s.modFold f (fun x => { x with seqs := modN x.seqs dseq (fun e => { e with heldLayer := e.heldLayer.orElse (fun _ => some l) }) })
  else markQuota f dseq s

/-- Whether the step discards a sequence's rows for quota. -/
def State.quotaHit (s : State) (f dseq : Nat) : Bool := ((s.fold f).step).any (fun st => st.quotaSeqs.contains dseq)

/-! ### New entries, and the pages made ready -/

/-- The new K and V of every live row written (08 R215). -/
def attnWrite (c : Ctx) (g : AttnArgs) (s : State) : State :=
  (c.live s).foldl (fun s r =>
    match (c.rows s)[r]? with
    | none => s
    | some w =>
      match s.seqSess c.fold w.dseq with
      | none => s
      | some y =>
        if s.quotaHit c.fold w.dseq then s else
        let k := vecAt s g.k g.fb g.kn r
        let v := vecAt s g.v g.fb g.kn r
        let bad := k.2 || v.2
        let first := ((s.stepItem c.fold w.dseq).elim 0 (·.first)) + 1
        if w.wet then writeWet c.fold g.img y g.kv w.position (w.position - first) bad (chunksOf g.hd k.1) (chunksOf g.hd v.1) s
        else
          match writeDry c.fold y.record.imageRoot g.kv w.position (txPin (s.txEntry y w.position)) bad (chunksOf g.hd k.1) (chunksOf g.hd v.1) s with
          | .ok s => s
          | .error e => quotaRefused c.fold w.dseq (s.pen c.pen).layer e.2) s

/-- The pages of a layer that a sequence with rows at lo to hi reads. -/
def readPages (s : State) (f : Nat) (y : Sess) (l window lo hi : Nat) (fresh : List Nat) : List Nat :=
  (s.layerPages f y.record.imageRoot l).filter (fun i => !pageSkipped s f window lo hi fresh i)

/-- Pages promoted as far as they must be; skipped ones counted. The statuses of promotions refused. -/
def readyPages (f : Nat) (y : Sess) (l window lo hi : Nat) (fresh : List Nat) (s : State) : List W16 × State :=
  let all := s.layerPages f y.record.imageRoot l
  let read := readPages s f y l window lo hi fresh
  let s := if all.length = read.length then s else s.count (rInkPagesSkipped f) (all.length - read.length)
  read.foldl (fun t i => match readyPage f i t.2 with
    | .ok s => (t.1, s)
    | .error e => (t.1 ++ [e.1], e.2)) ([], s)

/-- The pages of every sequence of the pass made ready (08 R218, R226). -/
def attnReady (c : Ctx) (g : AttnArgs) (s : State) : State :=
  (c.seqRows s).foldl (fun s e =>
    match s.seqSess c.fold e.1 with
    | none => s
    | some y =>
      let ps := s.rowSpan c.fold e.1 []
      let r := readyPages c.fold y g.kv.layer g.window ps.1 ps.2 (freshPositions s c.fold c.draft e.1) s
      let s := if r.1.any (· != stPoison) then quotaRefused c.fold e.1 (s.pen c.pen).layer r.2 else r.2
      if r.1.contains stPoison then e.2.foldl (fun s k => c.modRow k (fun w => { w with poisoned := true }) s) s else s) s

/-! ### Attending reads (08 R222) -/

/-- The members that hold the same heads of the layer, by Table 8-4. -/
def State.splitGroup (s : State) (f : Nat) (v : KvLayer) : List Nat :=
  let m := s.kvMembers f
  let i := s.memberIndex f
  if v.pg ≤ 1 then [i]
  else if v.heads.length = 1 && decide (v.pg < m) then (List.range m).filter (fun j => j % (m / v.pg) == i % (m / v.pg))
  else List.range m

/-- The members whose partials are merged for the layer's heads of this member, rising (08 Table 8-4); one that a shrink has taken over is answered for
by its predecessor (14 R385). -/
def State.headGroup (s : State) (f : Nat) (v : KvLayer) : List Nat :=
  ((s.contributors f).filter (s.splitGroup f v).contains)

/-- The request payload for rows of one sequence and KV head. -/
def areadPayload (c : Ctx) (g : AttnArgs) (y : Sess) (h : Nat) (rs : List Nat) (s : State) : List Byte :=
  let n := g.kv.heads.findIdx (· == h)
  let w := fmtBits g.fa / 8
  let per := g.qg * g.hd * w
  padTo 32 (leBytes 8 y.record.sessionId.toNat ++ leBytes 4 y.record.lease.epoch ++ leBytes 2 g.kv.layer ++ leBytes 2 h ++
    leBytes 2 rs.length ++ leBytes 1 g.fa ++ leBytes 1 g.kv.code ++ leBytes 4 g.window) ++
  rs.flatMap (fun r => leBytes 4 (c.posOf s r)) ++
  rs.flatMap (fun r => s.read (g.q + r * rowStride g.fa g.qn + n * per) per)

/-- The attending reads of a pass sent: one per sequence, KV head, other member and 4,096 rows. The number sent, or the status that abandons
the step. -/
def attnAsk (c : Ctx) (g : AttnArgs) (s : State) : Tried (Nat × State) :=
  let others := (s.headGroup c.fold g.kv).filter (· != s.memberIndex c.fold)
  let asks := (c.seqRows s).flatMap (fun e => g.kv.heads.flatMap (fun h => others.flatMap (fun m =>
    (List.range (ceilDiv e.2.length 4096)).map (fun b => (e.1, h, m, b, (e.2.drop (b * 4096)).take 4096)))))
  asks.foldl (fun t a => andThen t (fun r =>
    match r.2.seqSess c.fold a.1 with
    | none => .ok r
    | some y =>
      let l := areadPayload c g y a.2.1 a.2.2.2.2 r.2
      andThen (fabRequest (.attend c.fold a.1 a.2.1 a.2.2.2.1 a.2.2.1) (some c.fold) none
        (r.2.requestPacket (some c.fold) issInk fabOpAread (r.2.memberDev c.fold a.2.2.1) 0 l.length true false y.record.lease.epoch
          y.record.sessionId 0 l) r.2) (fun s => .ok (r.1 + 1, s)))) (.ok (0, s))

/-- The partial a response holds for its row `i` and query head `q`. -/
def areadPartial (l : List Byte) (qg hd i q : Nat) : Partial :=
  let o := 16 + (i * qg + q) * (8 + 4 * hd)
  ⟨BitVec.ofNat 32 (leAt l o 4), BitVec.ofNat 32 (leAt l (o + 4) 4), (List.range hd).map (fun k => BitVec.ofNat 32 (leAt l (o + 8 + 4 * k) 4))⟩

/-- The partial of pages for one row and query head, from the empty one, in page-list order; and whether poison was read. -/
def pagesPartial (s : State) (f : Nat) (y : Sess) (v : KvLayer) (h : Nat) (pages : List Nat) (r : RowView) (q : List W32) : Partial × Bool :=
  ((headPages s f y.record.imageRoot v h).filter (fun p => pages.contains p.page)).foldl
    (fun t p => (t.1.merge (pagePartial s f v.info.scale r q p), t.2 || pagePoison s f r p)) (Partial.empty (hdimOf v.code), false)

/-- The answer to an attending read for fold `f`'s session `y` (08 R222), computed: status, response payload. -/
def areadCompute (f : Nat) (y : Sess) (l : List Byte) (s : State) : W16 × List Byte × State :=
  match s.activeImage f with
  | none => (stBadDescriptor, [], s)
  | some x =>
    let rows := leAt l 16 2
    let h := leAt l 14 2
    let fmt := leAt l 18 1
    let code := leAt l 19 1
    let window := leAt l 20 4
    let v := s.kvLayer f x (leAt l 12 2) code
    let qg := max 1 (v.info.qHeads / max 1 v.info.kvHeads)
    let hd := hdimOf code
    if 4096 < rows || rows = 0 || 3 < fmt || 4 < code || !v.heads.contains h then (stBadDescriptor, [], s) else
    let pos (i : Nat) : Nat := leAt l (32 + 4 * i) 4
    let ps := (List.range rows).map pos
    let dseq := ((s.fold f).entryOf y.record.sessionId).elim 0 (·.1)
    let fresh := freshPositions s f false dseq
    let span := s.rowSpan f dseq ps
    let r := readyPages f y v.layer window span.1 span.2 fresh s
    match r.1.head? with
    | some st => (st, [], r.2)
    | none =>
      let s := r.2
      let pages := readPages s f y v.layer window span.1 span.2 fresh
      let w := fmtBits fmt / 8
      let q (i g : Nat) : List W32 := rowVals fmt hd (sliceB l (32 + 4 * rows + (i * qg + g) * hd * w) (hd * w))
      let parts := (List.range rows).flatMap (fun i => (List.range qg).map (fun g => pagesPartial s f y v h pages ⟨pos i, window, fresh⟩ (q i g)))
      if parts.any (·.2) then (stPoison, [], s)
      else
        (stOk, padTo 16 (leBytes 8 y.record.sessionId.toNat ++ leBytes 2 rows ++ leBytes 2 qg) ++
          parts.flatMap (fun p => leBytes 4 p.1.m.toNat ++ leBytes 4 p.1.l.toNat ++ p.1.o.flatMap (fun e => leBytes 4 e.toNat)), s)

/-- The answer to an attending read: an identical one of the step has its answer already (08 R222). -/
def areadAnswer (f : Nat) (y : Sess) (l : List Byte) (s : State) : W16 × List Byte × State :=
  let r : W16 × List Byte × State := match ((s.fold f).step.map (·.served)).bind (fun t => t.find? (fun e => e.1 == l)) with
    | some e => (e.2.1, e.2.2, s)
    | none =>
      let a := areadCompute f y l s
      (a.1, a.2.1, a.2.2.modFold f (fun x => { x with step := x.step.map (fun st => { st with served := st.served ++ [(l, a.1, a.2.1)] }) }))
  (r.1, r.2.1, if r.1 = stOk then r.2.2.count (rInkAreadServed f) 1 else r.2.2)

/-! ### The result -/

/-- What a row and query head come to: this member's partial, merged with the others' in ascending member index (08 R220). -/
def attnPartial (c : Ctx) (g : AttnArgs) (got : List ((Nat × Nat × Nat × Nat) × List Byte)) (y : Sess) (dseq : Nat) (seqRows pages : List Nat)
    (r h qh : Nat) (s : State) : Partial × Bool :=
  let n := g.kv.heads.findIdx (· == h)
  let q := ((vecAt s g.q g.fa g.qn r).1.drop ((n * g.qg + qh) * g.hd)).take g.hd
  let view : RowView := ⟨c.posOf s r, g.window, freshPositions s c.fold c.draft dseq⟩
  let first := ((s.stepItem c.fold dseq).elim 0 (·.first)) + 1
  let mine := pagesPartial s c.fold y g.kv h pages view q
  let wetRows := (s.stepRows c.fold).any (fun w => w.dseq == dseq && w.wet && g.kv.mine w.position)
  let own := if wetRows then
      let w := wetPartial s c.fold g.img y g.kv h view q first 8
      (mine.1.merge w.1, mine.2 || w.2)
    else mine
  let grp := s.headGroup c.fold g.kv
  if grp.length ≤ 1 then own else
  let at_ := seqRows.findIdx (· == r)
  (grp.foldl (fun acc m =>
    let p := if m = s.memberIndex c.fold then own.1
      else match got.find? (fun e => e.1 == (dseq, h, at_ / 4096, m)) with
        | some e => areadPartial e.2 g.qg g.hd (at_ % 4096) qh
        | none => Partial.empty g.hd
    acc.merge p) (Partial.empty g.hd), own.2)

/-- The scores of the entries that a sequence's first row saw (08 R221), from the merged m and l of each query head. -/
def attnScores (c : Ctx) (g : AttnArgs) (y : Sess) (pages : List Nat) (view : RowView) (q : Nat → Nat → List W32) (merged : Nat → Nat → Partial)
    (s : State) : State :=
  let a := y.record.imageRoot
  let byHead := g.kv.heads.map (fun h => (h, headPages s c.fold a g.kv h))
  let keyPages := ((byHead.flatMap (fun e => e.2)).map (·.page)).eraseDups.filter (fun i => pages.contains i)
  let s₀ := s
  let mu (k i : Nat) : W32 :=
    (byHead.flatMap (fun e => (e.2.filter (fun p => p.page == k)).flatMap (fun p => (List.range g.qg).map (fun qh => (e.1, p, qh))))).foldl
      (fun t e =>
        let m := merged e.1 e.2.2
        fpAdd t (fpDiv (vuExp (fpSub (slotScore s₀ c.fold g.kv.info.scale e.2.1 (q e.1 e.2.2) i) m.m)) m.l)) fpZero
  let keyOf (split : List Nat) (p : Nat) : Option (Nat × Nat) :=
    (split.filterMap (fun k => let b := s₀.sheetOffset c.fold k; ((s₀.pgSlots b).find? (fun i => s₀.pgPos b i == p)).map (fun i => (k, i)))).head?
  let s := keyPages.foldl (fun s k => scorePage c.fold k view (mu k) s) s
  byHead.foldl (fun s e =>
    let split := (e.2.map (·.page)).filter (fun k => s₀.pgPart (s₀.sheetOffset c.fold k) == 1 && keyPages.contains k)
    let values := ((e.2.filter (fun p => split.contains p.page)).flatMap (·.values)).eraseDups
    values.foldl (fun s n => scorePage c.fold n view (fun j =>
      (keyOf split (s₀.pgPos (s₀.sheetOffset c.fold n) j)).elim fpZero (fun ki => mu ki.1 ki.2)) s) s) s

/-- Row `r`'s O written to every pen's O, and the row marked poisoned where it read poison. -/
def attnRow (c : Ctx) (g : AttnArgs) (r : Nat) (out : List W32) (bad : Bool) (s : State) : State :=
  let l := encodeRow g.fd false (out.map fpVal)
  let s := g.outs.foldl (fun s o => putBytes (o + r * rowStride g.fd g.qn) l bad s) s
  if bad then c.modRow r (fun w => { w with poisoned := true }) s else s

/-- The merge of a pass: O of every live row, the scores of each sequence's first row. -/
def attnFinish (c : Ctx) (g : AttnArgs) (got : List ((Nat × Nat × Nat × Nat) × List Byte)) (s : State) : State :=
  (c.seqRows s).foldl (fun s e =>
    match s.seqSess c.fold e.1 with
    | none => s
    | some y =>
      let span := s.rowSpan c.fold e.1 []
      let fresh := freshPositions s c.fold c.draft e.1
      let pages := readPages s c.fold y g.kv.layer g.window span.1 span.2 fresh
      let part (r h qh : Nat) : Partial × Bool := attnPartial c g got y e.1 e.2 pages r h qh s
      let rows := e.2.map (fun r =>
        let ps := g.kv.heads.flatMap (fun h => (List.range g.qg).map (fun qh => part r h qh))
        let bad := ps.any (·.2) || s.poisoned (g.q + r * rowStride g.fa g.qn) (rowBytes g.fa g.qn) || ((c.rows s)[r]?).any (·.poisoned)
        (r, ps.flatMap (fun p => p.1.out), bad))
      let base := (s.pen c.pen).pass * s.rowCap c.fold
      let r0 := (s.stepRows c.fold).findIdx (fun w => w.dseq == e.1)
      let s₁ := rows.foldl (fun s w => attnRow c g w.1 w.2.1 w.2.2 s) s
      if c.draft || !e.2.any (fun r => base + r == r0) then s₁
      else
        let r := r0 - base
        let q (h qh : Nat) : List W32 :=
          ((vecAt s g.q g.fa g.qn r).1.drop ((g.kv.heads.findIdx (· == h) * g.qg + qh) * g.hd)).take g.hd
        attnScores c g y pages ⟨c.posOf s r, g.window, fresh⟩ q (fun h qh => (part r h qh).1) s₁) s

/-- ATTN on the fold: entries written, pages made ready, and the result at once where no other member holds positions; else the attending
reads sent, with their number. -/
def attnStart (f : Nat) (draft : Bool) (op : OpWord) (s : State) : Except Nat (Nat × State) := do
  let g ← attnArgs f draft op s
  let c : Ctx := ⟨f, s.lowPen f, draft⟩
  let s := attnReady c g (attnWrite c g s)
  if (s.headGroup f g.kv).length ≤ 1 then .ok (0, attnFinish c g [] s)
  else match attnAsk c g s with
    | .ok r => .ok r
    | .error _ => .error 4

end Sys2Proof.Machine
end

