-- ==== Sys2Proof/Machine/Layer.lean ====
section
/-! DEFINITION. The layer-program sequencer (06): the encodings' checks, LAYER, END, remote operations, barriers, and one meaning per operation
row; a pen's operation happens when it is the program's next one there. -/
namespace Sys2Proof.Machine

/-! ### Encodings (06 R167, R168, Tables 6-4 to 6-7) -/

/-- Whether bits hi:lo of every listed range are zero. -/
def zeroBits (op : OpWord) (l : List (Nat × Nat)) : Bool := l.all (fun r => opBits op r.1 r.2 == 0)

/-- The sub-operations of an opcode: how many SUB codes it has; none for a reserved opcode. -/
def opSubs (opcode : Nat) : Option Nat :=
  match opcode with
  | 0x01 | 0x02 | 0x10 | 0x40 | 0x41 | 0x42 | 0x50 | 0x51 | 0x60 => some 1
  | 0x20 => some 11
  | 0x21 => some 5
  | 0x22 | 0x24 => some 2
  | 0x23 => some 4
  | 0x30 => some 5
  | 0x38 => some 3
  | _ => none

/-- Reserved bits of an opcode's header fields and body. -/
def opReserved (opcode : Nat) : List (Nat × Nat) :=
  match opcode with
  | 0x01 => [(27, 16), (127, 40)]
  | 0x02 => [(27, 16), (127, 32)]
  | 0x10 => [(127, 120)]
  | 0x20 | 0x21 | 0x22 | 0x23 => [(127, 124)]
  | 0x24 => [(23, 20), (75, 73), (113, 107), (127, 124)]
  | 0x38 => [(27, 16), (75, 58), (127, 114)]
  | 0x40 => [(23, 20), (97, 69), (127, 114)]
  | 0x41 => [(27, 20), (97, 69), (127, 114)]
  | 0x42 => [(27, 16), (61, 32), (69, 67), (127, 86)]
  | 0x50 => [(27, 16), (53, 32), (75, 62), (127, 114)]
  | 0x51 => [(27, 16), (75, 54), (127, 114)]
  | 0x60 => [(27, 16), (97, 72), (127, 114)]
  | _ => []

/-- Whether an operation's opcode and SUB are those of Tables 6-5 to 6-7 and its reserved bits are zero. -/
def opValid (op : OpWord) : Bool :=
  let o := opBits op 7 0
  match opSubs o with
  | none => false
  | some n => decide (opSub op < n) && zeroBits op ((15, 12) :: opReserved o)

/-! ### Remote operations (06 R175 to R178) -/

/-- What this member and each of the `k` it has taken over add up to, value by value: what their slices give is a free value (14 R386, log entry 3). -/
def addTaken (k : Nat) (l : List W32) (s : State) : List W32 × State :=
  l.foldl (fun t v =>
    let u := (List.range k).foldl (fun (u : W32 × State) _ => let d := u.2.draw; (fpAdd u.1 (BitVec.ofNat 32 d.1), d.2)) (v, t.2)
    (t.1 ++ [u.1], u.2)) ([], s)

/-- The members that this one has taken over. -/
def State.takenOver (s : State) (f : Nat) : Nat := ((s.fold f).snap.absorbed.filter (fun a => a.2 == s.memberIndex f)).length

/-- The rows of a reduction, each with its poison mark, with what was taken over added. -/
def sumTaken (f : Nat) (rows : List (List W32 × Bool)) (s : State) : List (List W32 × Bool) × State :=
  if s.takenOver f = 0 then (rows, s) else
  rows.foldl (fun t r => let u := addTaken (s.takenOver f) r.1 t.2; (t.1 ++ [(u.1, r.2)], u.2)) ([], s)

/-- RACC: the rows of the pass sent to a reduction buffer, row r at its offset plus r × L × 4. -/
def raccOp (op : OpWord) (c : Ctx) (s : State) : Except Nat State := do
  let n ← vecLen op
  let target := opBits op 68 67
  if 1 < opFd op || target = 3 then .error 1
  else do
    let a ← c.operand s op 32 n (opFa op)
    let span := (c.rows s).length * n * 4
    let addr ← bindAddr s c.fold c.pen (opBits op 61 54) span
    let bf := opFd op == 1
    let (rows, s) := sumTaken c.fold ((List.range (c.rows s).length).map (fun r => vecAt s a (opFa op) n r)) s
    let w := if bf then 2 else 4
    let payload := rows.flatMap (fun r => r.1.flatMap (fun v => leBytes w (if bf then bf16.encode false (fpVal v) else v.toNat)))
    let bad := ((List.range rows.length).filter (fun r => (rows.getD r ([], false)).2)).flatMap (fun r =>
      (List.range (ceilDiv (r * n * w % 64 + n * w) 64)).map (fun u => r * n * w / 64 + u))
    let p := s.pen c.pen
    let arg := s.memberIndex c.fold + p.raccCount % 65536 * 2 ^ 18 + b2n bf * 2 ^ 34 + b2n (bitOf op.toNat 11) * 2 ^ 35 + opBits op 66 62 * 2 ^ 36 +
      s.penIndex c.fold c.pen * 2 ^ 41 + ((s.fold c.fold).step.elim 0 (·.attempt)) % 8 * 2 ^ 47
    let s := s.modPen c.pen (fun x => { x with raccCount := x.raccCount + 1 })
    .ok ((s.targets c.fold target).foldl (fun s d =>
      let m := s.requestPacket (some c.fold) c.pen fabOpAcc d addr payload.length false false 0 0 (BitVec.ofNat 64 arg) payload
      if d = s.selfNo then
        if s.inReduction c.fold addr span then (fragmentsWith bad m).foldl (fun s q => (accArrive c.fold c.pen q s).getD s) s else s
      else match fabRequestWith bad (.reduction c.pen) (some c.fold) none m s with
        | .ok s => s
        | .error e => e.2) s)

/-- NOTIFY: the rows written to a buffer and a counter raised; from the root to every member it closes a reduction with the step control
word (06 R177). -/
def notifyOp (op : OpWord) (c : Ctx) (s : State) : Except Nat State := do
  let n := opLen op
  let target := opBits op 68 67
  if target = 3 then .error 1
  else do
    fmtOk (opFa op) n
    let len := (c.rows s).length * rowStride (opFa op) n
    let a ← c.operand s op 32 n (opFa op)
    let addr ← if n = 0 then .ok 0 else bindAddr s c.fold c.pen (opBits op 61 54) len
    let bad := badUnits s a len
    let root := target == 1 && s.isRoot c.fold
    let word := s.controlWord c.fold
    let payload := s.read a len
    let sent := payload ++ (if root then word.bytes else [])
    let arg := opBits op 66 62 + s.penIndex c.fold c.pen * 2 ^ 8
    let s := (s.targets c.fold target).foldl (fun s d =>
      if d = s.selfNo then
        match (if len = 0 then .ok s else writeLocal c.fold addr payload s : Tried State) with
        | .ok s => bumpCtr c.pen (opBits op 66 62) (s.addPoison (bad.map (fun u => addr / 64 + u)))
        | .error e => e.2
      else
        match fabRequestWith bad (.reduction c.pen) (some c.fold) none
            (s.requestPacket (some c.fold) c.pen fabOpNotify d addr sent.length false false 0 0 (BitVec.ofNat 64 arg) sent) s with
        | .ok s => s
        | .error e => e.2) s
    .ok (if root then s.modPen c.pen (fun x => { x with word := some word }) else s)

/-! ### LAYER and END (06 R174, 07 R189 to R191, 08 R226, 05 R136, R140) -/

/-- Whether row `w` takes no part from layer `j` on (04 R108, 05 R140, 06 R174). -/
def State.rowHeld (s : State) (f n j : Nat) (w : Row) : Bool :=
  let item := s.stepItem f w.dseq
  let limits := match (s.pen n).word with
    | some x => x.limits
    | none => ((s.fold f).step.map (·.limits)).getD []
  match getN (s.fold f).seqs w.dseq with
  | none => false
  | some e =>
    (item.bind (·.resume)).any (fun h => decide (j < h)) || e.heldLayer.any (fun h => decide (h ≤ j)) ||
      (e.phase == 3 && decide (e.resumeLayer ≤ j)) || (getN limits w.dseq).any (fun k => decide (k ≤ j))

/-- The layer a sequence is held at noted, the first time a limit holds it. -/
def noteHeld (f n j : Nat) (s : State) : State :=
  let limits := match (s.pen n).word with
    | some x => x.limits
    | none => ((s.fold f).step.map (·.limits)).getD []
  s.modFold f (fun x => { x with seqs := x.seqs.map (fun p =>
    if (getN limits p.1).any (fun k => decide (k ≤ j)) && p.2.heldLayer.isNone && x.step.any (fun st => st.items.any (fun i => i.dseq == p.1)) then
      (p.1, { p.2 with heldLayer := some j })
    else p) })

/-- Waits that end as a sequence's first layer of a step starts, for the sequences with rows in the pass (05 R136). -/
def endWaits (f : Nat) (rows : List Row) (s : State) : State := ((rows.map (·.dseq)).eraseDups).foldl (fun s i => endWait f i s) s

/-- The unskipped pages of layer `j` in T3 or T4 of one item's sequence (08 R226). -/
def prefetchPages (s : State) (f j : Nat) (i : WorkItem) : List Nat :=
  match (s.activeImage f).bind (fun x => x.layers[j]?), s.seqSess f i.dseq with
  | some info, some y =>
    let hi := if i.chunk = 0 then i.first + i.limit else i.first + i.chunk - 1
    if s.mainLayers f ≤ j then [] else
    (readPages s f y j (if info.sliding then info.window else 0) i.first hi []).filter (fun p => decide (3 ≤ ((s.fold f).sheet p).tier))
  | _, _ => []

/-- The promotions asked for ahead of layer `j` (08 R226): every unskipped page of the layer in T3 or T4 of the step's sequences. -/
def prefetchLayer (f j : Nat) (s : State) : State :=
  (((s.fold f).step.map (·.items)).getD []).foldl (fun s i => (prefetchPages s f j i).foldl (fun s p => requestMove f p 2 s) s) s

/-- Whether such a promotion of an item's sequence has been refused for quota (08 R226); a turn-out follows 04 R108. -/
def State.prefetchRefused (s : State) (f : Nat) (i : WorkItem) : Bool :=
  !(getN (s.fold f).seqs i.dseq).any (·.reviving) && (List.range (s.mainLayers f)).any (fun j =>
    (prefetchPages s f j i).any (fun p => getN (s.fold f).moveFail p == some stQuota && !hasN (s.fold f).quotaOut p))

/-- The window group that holds layer `j`, given back. -/
def freeGroup (n j : Nat) (s : State) : State :=
  s.modPen n (fun x => { x with groups := x.groups.map (fun g => if g.layer = some j then ⟨none, false⟩ else g) })

/-- Whether layer `j` is streamed on fold `f`. -/
def State.layerStreamed (s : State) (f j : Nat) : Bool :=
  (s.fold f).streamed && (s.activeImage f).any (fun x => decide (0 < (x.layers[j]?).elim 0 (·.streamTiles)))

/-- Whether the group of layer `j` is ready for it on pen `n`. -/
def State.groupReady (s : State) (f n j : Nat) : Bool :=
  ((s.pen n).groups[j % max 1 (s.fold f).depthUsed]?).any (fun g => g.layer == some j && g.ready)

/-- The rows that LAYER j leaves out of the rest of the pass. -/
def excludeRows (c : Ctx) (j : Nat) (s : State) : State :=
  let rs := c.rows s
  let ex := (List.range rs.length).filter (fun r => (rs[r]?).any (s.rowHeld c.fold c.pen j))
  noteHeld c.fold c.pen j (s.modPen c.pen (fun x => { x with layer := j, excluded := ex }))

/-- LAYER j issued on a pen of the main program. -/
def layerIssue (c : Ctx) (j : Nat) (s : State) : State :=
  let s := match (s.pen c.pen).section_ with
    | some old => if old = j then s else freeGroup c.pen old s
    | none => s
  let s := match (s.pen c.pen).stallSince with
    | some _ => let d := s.draw; d.2.count (rScrStallCycles c.fold) d.1
    | none => s
  let s := excludeRows c j (s.modPen c.pen (fun x => { x with stallSince := none, section_ := some j }))
  let s := if c.pen = s.lowPen c.fold then endWaits c.fold (c.rows s) s else s
  prefetchLayer c.fold (j + bitsOf (s.act (rInkPrefetch c.fold)) 3 0) s

/-! ### Issue -/

/-- The operation that pen `n` issues next, with its fold: a running program, no barrier waited on, no ATTN waiting for answers. -/
def State.nextOp (s : State) (n : Nat) : Option (Nat × OpWord) :=
  match s.penFold n with
  | none => none
  | some f =>
    let p := s.pen n
    if !p.running || p.bar.isSome || !((s.fold f).step.any (fun st => st.attn.isNone)) then none
    else (s.activeImage f).map (fun _ => (f, p.program.getD p.opIndex 0))

/-- The next operation of pen `n` done. -/
def advance (n : Nat) (s : State) : State := s.modPen n (fun x => { x with opIndex := x.opIndex + 1 })

/-- An operation row: `op` happens on pen `n` when it is the program's next there and bears the row's opcode and SUB (none: any); one that
no row bears is a program fault under every row. `go` is the rest. -/
def issue (opcode : Nat) (sub : Option Nat) (n : Nat) (op : OpWord) (go : Ctx → State → State) (s : State) : State :=
  match s.nextOp n with
  | none => s
  | some (f, o) =>
    if o != op then s
    else if !opValid op then programFault f n 1 s
    else if opBits op 7 0 != opcode || sub.any (· != opSub op) then s
    else if bitOf op.toNat 8 && !s.isRoot f then advance n s
    else go ⟨f, n, false⟩ s

/-- An operation that completes as it issues, or faults. -/
def compute (body : OpWord → Ctx → State → Except Nat State) (op : OpWord) (c : Ctx) (s : State) : State :=
  match body op c s with
  | .ok s => advance c.pen s
  | .error k => programFault c.fold c.pen k s

/-- A row of a computing operation. -/
def computeRow (opcode : Nat) (sub : Option Nat) (body : OpWord → Ctx → State → Except Nat State) (n : Nat) (op : OpWord) (s : State) :
    Host.Outcome State Fault Refusal :=
  .next (serve s (issue opcode sub n op (compute body op)))

/-- OP_LAYER (06 R174, 07 R191): with the layer's window group not ready the pen waits. -/
def execOpLayer (n : Nat) (op : OpWord) (s : State) : Host.Outcome State Fault Refusal :=
  .next (serve s (issue 0x01 none n op (fun c s =>
    let j := opBits op 39 32
    if 159 < j then programFault c.fold n 1 s
    else if s.layerStreamed c.fold j && !s.groupReady c.fold n j then
      if (s.pen n).stallSince.isSome then s
      else (s.modPen n (fun x => { x with stallSince := some s.now })).count (rScrStalls c.fold) 1
    else advance n (layerIssue c j s))))

/-- OP_END (06 R163): the row pass is done; the next begins, or the pen's program has run. -/
def execOpEnd (n : Nat) (op : OpWord) (s : State) : Host.Outcome State Fault Refusal :=
  .next (serve s (issue 0x02 none n op (fun c s =>
    let s := ((s.pen n).section_.elim s (fun j => freeGroup n j s)).count (rPenRowPasses n) 1
    let more := decide (((s.pen n).pass + 1) * s.rowCap c.fold < (s.stepRows c.fold).length)
    s.modPen n (fun x => { x with pass := x.pass + 1, opIndex := 0, excluded := [], route := none, section_ := none, running := more }))))

/-- OP_ATTN (08 R214): on all pens of the fold, once they all stand at it. -/
def execOpAttn (n : Nat) (op : OpWord) (s : State) : Host.Outcome State Fault Refusal :=
  .next (serve s (issue 0x30 none n op (fun c s =>
    let pens := (s.fold c.fold).penList
    let here (m : Nat) : Bool := (s.pen m).running && (s.pen m).bar.isNone && (s.pen m).pass == (s.pen n).pass && (s.pen m).opIndex == (s.pen n).opIndex
    if !pens.all here then s
    else match attnStart c.fold false op s with
      | .error k => programFault c.fold n k s
      | .ok (0, s) => pens.foldl (fun s m => advance m s) s
      | .ok (k, s) => s.modFold c.fold (fun x => { x with step := x.step.map (fun st => { st with attn := some ⟨op, k, []⟩ }) }))))

/-- The answers to a waiting ATTN are all in: it completes (08 R222). -/
def attnAnswered (f : Nat) (s : State) : State :=
  match (s.fold f).step.bind (·.attn) with
  | none => s
  | some w =>
    if 0 < w.left then s else
    let s := s.modFold f (fun x => { x with step := x.step.map (fun st => { st with attn := none }) })
    match attnArgs f false w.op s with
    | .error k => programFault f (s.lowPen f) k s
    | .ok g => (s.fold f).penList.foldl (fun s m => advance m s) (attnFinish ⟨f, s.lowPen f, false⟩ g w.got s)

/-- An answer to one attending read, or what its failure does (08 R223). -/
def attendResult (f dseq head row member : Nat) (st : W16) (l : List Byte) (s : State) : State :=
  match (s.fold f).step.bind (·.attn) with
  | none => s
  | some _ =>
    let note (s : State) : State := s.modFold f (fun x => { x with step := x.step.map (fun t => { t with attn := t.attn.map (fun w =>
      { w with left := w.left - 1, got := if st = stOk then w.got ++ [((dseq, head, row, member), l)] else w.got }) }) })
    if st = stOk then attnAnswered f (note s)
    else if st = stPeerLost then abandonStep f 4 s
    else if st = stPoison then
      let c : Ctx := ⟨f, s.lowPen f, false⟩
      let rs := (((c.seqRows s).filter (fun e => e.1 == dseq)).flatMap (·.2))
      attnAnswered f (note (((rs.drop (row * 4096)).take 4096).foldl (fun s r => c.modRow r (fun w => { w with poisoned := true }) s) s))
    else
      attnAnswered f (note (match getN (s.fold f).seqs dseq with
        | some e => rereadHome e.session (leaveTable f e.session s)
        | none => s))

/-- OP_BAR (06 R178): the wait begins; a saturated counter is a program fault. -/
def execOpBar (n : Nat) (op : OpWord) (s : State) : Host.Outcome State Fault Refusal :=
  .next (serve s (issue 0x42 none n op (fun c s =>
    let k := opBits op 66 62
    let m := opBits op 85 70
    if (s.pen n).saturated.contains k then programFault c.fold n 4 s
    else s.modPen n (fun x => { x with bar := some ⟨k, if m = 0 then (s.contributors c.fold).length else m, s.now⟩ }))))

/-- The layer at which a chunk stops when the rows of pass `pass` have run layer `j` (05 R140): the next one, layer 0 where its rows all come in a
later pass; none where it has run, or would reach its last layer at this boundary. -/
def State.suspendAt (s : State) (f pass j dseq : Nat) : Option Nat :=
  let cap := s.rowCap f
  let passes := (((s.stepRows f).mapIdx (fun r w => (r / cap, w.dseq))).filter (fun e => e.2 == dseq)).map (·.1)
  if passes.contains pass then (if j + 1 < s.mainLayers f then some (j + 1) else none)
  else if passes.any (fun p => decide (pass < p)) && !passes.any (fun p => decide (p < pass)) then some 0 else none

/-- The best-effort prefill chunks of the step stopped after layer `j` of pen `n`'s row pass (05 R140). -/
def suspendChunks (f n j : Nat) (s : State) : State :=
  (((s.fold f).step.map (·.items)).getD []).foldl (fun s i =>
    match getN (s.fold f).seqs i.dseq, s.suspendAt f (s.pen n).pass j i.dseq with
    | some e, some l =>
      if e.phase = 1 && !e.lc && 0 < i.chunk then
        modClass f false (fun k => { k with preemptions := k.preemptions + 1 })
          (s.modFold f (fun x => { x with seqs := modN x.seqs i.dseq (fun e => { e with phase := 3, resumeLayer := l }) }))
      else s
    | _, _ => s) s

/-- BAR_COMPLETE (06 R177, R178): the counter has reached N; a step control word is acted on. -/
def execBarComplete (n : Nat) (s : State) : Host.Outcome State Fault Refusal :=
  .next (serve s fun s =>
    match s.penFold n, (s.pen n).bar with
    | some f, some b =>
      let v := (getND (s.pen n).notify b.ctr 0).toNat
      if v < b.count then s else
      let s := advance n (s.modPen n (fun x => { x with bar := none, notify := setN x.notify b.ctr (BitVec.ofNat 32 (v - b.count)) }))
      match (s.pen n).word with
      | some w => if w.abort then abandonStep f 1 s else if w.suspend then suspendChunks f n (s.pen n).layer s else s
      | none => s
    | _, _ => s)

/-- BAR_TIMEOUT (06 R178): a barrier that has waited longer than BAR_LIMIT µs, 0 acting as 1. -/
def execBarTimeout (n : Nat) (s : State) : Host.Outcome State Fault Refusal :=
  .next (serve s fun s =>
    match s.penFold n, (s.pen n).bar with
    | some f, some b => if s.now ≤ b.since + max 1 (s.act (rPenBarLimit n)) then s else programFault f n 4 s
    | _, _ => s)

/-! ### The computing operations, one meaning per row -/

/-- MMA (06 R169). -/
def execOpMma (n : Nat) (op : OpWord) (s : State) : Host.Outcome State Fault Refusal := computeRow 0x10 none mmaOp n op s

/-- VEW add (06 Table 6-7). -/
def execVewAdd (n : Nat) (op : OpWord) (s : State) : Host.Outcome State Fault Refusal := computeRow 0x20 (some 0) (vewBinary fpAdd) n op s

/-- VEW subtract (06 Table 6-7). -/
def execVewSubtract (n : Nat) (op : OpWord) (s : State) : Host.Outcome State Fault Refusal := computeRow 0x20 (some 1) (vewBinary fpSub) n op s

/-- VEW multiply (06 Table 6-7). -/
def execVewMultiply (n : Nat) (op : OpWord) (s : State) : Host.Outcome State Fault Refusal := computeRow 0x20 (some 2) (vewBinary fpMul) n op s

/-- VEW maximum (06 Table 6-7). -/
def execVewMaximum (n : Nat) (op : OpWord) (s : State) : Host.Outcome State Fault Refusal := computeRow 0x20 (some 3) (vewBinary fpMax) n op s

/-- VEW minimum (06 Table 6-7). -/
def execVewMinimum (n : Nat) (op : OpWord) (s : State) : Host.Outcome State Fault Refusal := computeRow 0x20 (some 4) (vewBinary fpMin) n op s

/-- VEW multiply by constant (06 Table 6-7). -/
def execVewMultiplyConstant (n : Nat) (op : OpWord) (s : State) : Host.Outcome State Fault Refusal := computeRow 0x20 (some 5) (vewUnary fpMul) n op s

/-- VEW add constant (06 Table 6-7). -/
def execVewAddConstant (n : Nat) (op : OpWord) (s : State) : Host.Outcome State Fault Refusal := computeRow 0x20 (some 6) (vewUnary fpAdd) n op s

/-- VEW convert (06 Table 6-7). -/
def execVewConvert (n : Nat) (op : OpWord) (s : State) : Host.Outcome State Fault Refusal := computeRow 0x20 (some 7) (vewUnary (fun v _ => v)) n op s

/-- VEW exp (06 Table 6-7). -/
def execVewExp (n : Nat) (op : OpWord) (s : State) : Host.Outcome State Fault Refusal := computeRow 0x20 (some 8) (vewUnary (fun v _ => vuExp v)) n op s

/-- VEW reciprocal (06 Table 6-7). -/
def execVewReciprocal (n : Nat) (op : OpWord) (s : State) : Host.Outcome State Fault Refusal := computeRow 0x20 (some 9) (vewUnary (fun v _ => vuRecip v)) n op s

/-- VEW reciprocal square root (06 Table 6-7). -/
def execVewReciprocalSquareRoot (n : Nat) (op : OpWord) (s : State) : Host.Outcome State Fault Refusal := computeRow 0x20 (some 10) (vewUnary (fun v _ => vuRsqrt v)) n op s

/-- VRED sum (06 R171). -/
def execVredSum (n : Nat) (op : OpWord) (s : State) : Host.Outcome State Fault Refusal := computeRow 0x21 (some 0) (vredScalar rowSum) n op s

/-- VRED maximum (06 R171). -/
def execVredMaximum (n : Nat) (op : OpWord) (s : State) : Host.Outcome State Fault Refusal := computeRow 0x21 (some 1) (vredScalar rowMax) n op s

/-- VRED sum of squares (06 R171). -/
def execVredSumOfSquares (n : Nat) (op : OpWord) (s : State) : Host.Outcome State Fault Refusal := computeRow 0x21 (some 2) (vredScalar rowSquares) n op s

/-- VRED argmax (06 Table 6-7). -/
def execVredArgmax (n : Nat) (op : OpWord) (s : State) : Host.Outcome State Fault Refusal := computeRow 0x21 (some 3) vredArg n op s

/-- VRED combine (06 Table 6-7). -/
def execVredCombine (n : Nat) (op : OpWord) (s : State) : Host.Outcome State Fault Refusal := computeRow 0x21 (some 4) vredCombine n op s

/-- NORM RMSNorm (06 Table 6-7). -/
def execNormRmsnorm (n : Nat) (op : OpWord) (s : State) : Host.Outcome State Fault Refusal := computeRow 0x22 (some 0) normRms n op s

/-- NORM LayerNorm (06 Table 6-7). -/
def execNormLayernorm (n : Nat) (op : OpWord) (s : State) : Host.Outcome State Fault Refusal := computeRow 0x22 (some 1) normLayer n op s

/-- ACT SiLU (06 Table 6-7). -/
def execActSilu (n : Nat) (op : OpWord) (s : State) : Host.Outcome State Fault Refusal := computeRow 0x23 (some 0) (vewUnary (fun v _ => vuSilu v)) n op s

/-- ACT GELU, erf form (06 Table 6-7). -/
def execActGeluErf (n : Nat) (op : OpWord) (s : State) : Host.Outcome State Fault Refusal := computeRow 0x23 (some 1) (vewUnary (fun v _ => vuGeluErf v)) n op s

/-- ACT GELU, tanh form (06 Table 6-7). -/
def execActGeluTanh (n : Nat) (op : OpWord) (s : State) : Host.Outcome State Fault Refusal := computeRow 0x23 (some 2) (vewUnary (fun v _ => vuGeluTanh v)) n op s

/-- ACT SwiGLU (06 Table 6-7). -/
def execActSwiglu (n : Nat) (op : OpWord) (s : State) : Host.Outcome State Fault Refusal := computeRow 0x23 (some 3) (vewBinary swiglu) n op s

/-- ROPE, half pairs (06 R172). -/
def execRopeHalfPairs (n : Nat) (op : OpWord) (s : State) : Host.Outcome State Fault Refusal := computeRow 0x24 (some 0) (ropeOp false) n op s

/-- ROPE, adjacent pairs (06 R172). -/
def execRopeAdjacentPairs (n : Nat) (op : OpWord) (s : State) : Host.Outcome State Fault Refusal := computeRow 0x24 (some 1) (ropeOp true) n op s

/-- ROUTE, softmax over the K (06 R173). -/
def execRouteTopkSoftmax (n : Nat) (op : OpWord) (s : State) : Host.Outcome State Fault Refusal := computeRow 0x38 (some 0) (routeOp 0) n op s

/-- ROUTE, softmax over all (06 R173). -/
def execRouteSoftmaxTopk (n : Nat) (op : OpWord) (s : State) : Host.Outcome State Fault Refusal := computeRow 0x38 (some 1) (routeOp 1) n op s

/-- ROUTE, softmax over all, normalised (06 R173). -/
def execRouteSoftmaxTopkNorm (n : Nat) (op : OpWord) (s : State) : Host.Outcome State Fault Refusal := computeRow 0x38 (some 2) (routeOp 2) n op s

/-- RACC (06 R175, R176). -/
def execOpRacc (n : Nat) (op : OpWord) (s : State) : Host.Outcome State Fault Refusal := computeRow 0x40 none raccOp n op s

/-- NOTIFY (06 R175, R177). -/
def execOpNotify (n : Nat) (op : OpWord) (s : State) : Host.Outcome State Fault Refusal := computeRow 0x41 none notifyOp n op s

/-- GATHER (06 R168). -/
def execOpGather (n : Nat) (op : OpWord) (s : State) : Host.Outcome State Fault Refusal := computeRow 0x50 none gatherOp n op s

/-- COPY (06 R168). -/
def execOpCopy (n : Nat) (op : OpWord) (s : State) : Host.Outcome State Fault Refusal := computeRow 0x51 none copyOp n op s

/-- LOGITS (06 R168, 10 R255). -/
def execOpLogits (n : Nat) (op : OpWord) (s : State) : Host.Outcome State Fault Refusal := computeRow 0x60 none logitsOp n op s

/-! ### The same operations in the draft program (09 R239), which has no remote one -/

/-- One operation of the draft program on one pen. -/
def draftOp (op : OpWord) (c : Ctx) (s : State) : Except Nat State :=
  if !opValid op then .error 1
  else if bitOf op.toNat 8 && !s.isRoot c.fold then .ok s
  else match opBits op 7 0, opSub op with
    | 0x01, _ => .ok (s.modPen c.pen (fun x => { x with layer := opBits op 39 32 }))
    | 0x10, _ => mmaOp op c s
    | 0x20, 0 => (vewBinary fpAdd) op c s
    | 0x20, 1 => (vewBinary fpSub) op c s
    | 0x20, 2 => (vewBinary fpMul) op c s
    | 0x20, 3 => (vewBinary fpMax) op c s
    | 0x20, 4 => (vewBinary fpMin) op c s
    | 0x20, 5 => (vewUnary fpMul) op c s
    | 0x20, 6 => (vewUnary fpAdd) op c s
    | 0x20, 7 => (vewUnary (fun v _ => v)) op c s
    | 0x20, 8 => (vewUnary (fun v _ => vuExp v)) op c s
    | 0x20, 9 => (vewUnary (fun v _ => vuRecip v)) op c s
    | 0x20, 10 => (vewUnary (fun v _ => vuRsqrt v)) op c s
    | 0x21, 0 => (vredScalar rowSum) op c s
    | 0x21, 1 => (vredScalar rowMax) op c s
    | 0x21, 2 => (vredScalar rowSquares) op c s
    | 0x21, 3 => vredArg op c s
    | 0x21, 4 => vredCombine op c s
    | 0x22, 0 => normRms op c s
    | 0x22, 1 => normLayer op c s
    | 0x23, 0 => (vewUnary (fun v _ => vuSilu v)) op c s
    | 0x23, 1 => (vewUnary (fun v _ => vuGeluErf v)) op c s
    | 0x23, 2 => (vewUnary (fun v _ => vuGeluTanh v)) op c s
    | 0x23, 3 => (vewBinary swiglu) op c s
    | 0x24, 0 => (ropeOp false) op c s
    | 0x24, 1 => (ropeOp true) op c s
    | 0x38, 0 => (routeOp 0) op c s
    | 0x38, 1 => (routeOp 1) op c s
    | 0x38, 2 => (routeOp 2) op c s
    | 0x50, _ => gatherOp op c s
    | 0x51, _ => copyOp op c s
    | 0x60, _ => logitsOp op c s
    | _, _ => .error 1

end Sys2Proof.Machine
end

