-- ==== Sys2Proof/Machine/Scroll.lean ====
section
/-! DEFINITION. The Scroll loader of a pen (07 R183 to R192): streamed layers brought into the window groups. -/
namespace Sys2Proof.Machine

/-- Tiles of streamed layer `j` per pen. -/
def Image.tilesOf (x : Image) (j : Nat) : Nat := (x.layers[j]?).elim 0 (·.streamTiles)

/-- The expanded sheets of a layer on a pen: bodies, two tiles each, then sidebands, 32 tiles each (07 R185, R193). -/
def State.expandedOf (s : State) (f n j : Nat) : List Nat := getND (s.fold f).expanded (j * 64 + s.penIndex f n) []

/-- Tile `t` of layer `j` on pen `n` in engine form, and whether it is poisoned (07 R183, R185). -/
def State.streamTile (s : State) (f n j tiles t : Nat) : List Byte × Bool :=
  let l := s.expandedOf f n j
  let body := s.sheetOffset f (l.getD (t / 2) 0) + t % 2 * 32768
  let side := s.sheetOffset f (l.getD (ceilDiv tiles 2 + t / 32) 0) + t % 32 * 2048
  (s.read body 32768 ++ s.read side 2048, s.poisoned body 32768 || s.poisoned side 2048)

/-- The window groups of a pen, all free before the first load. -/
def State.groupsOf (s : State) (f n : Nat) : List Group :=
  if (s.pen n).groups.isEmpty then List.replicate (s.fold f).depthUsed ⟨none, false⟩ else (s.pen n).groups

/-- The loader of pen `n` brings the next layer in the cyclic order into its group, if that is free; a window that an abandoned step has dropped is
loaded again once a step is republished or published (07 R192). -/
def loadLayer (n : Nat) (s : State) : State :=
  match s.penFold n with
  | none => s
  | some f =>
    match s.activeImage f with
    | none => s
    | some x =>
      let layers := s.mainLayers f
      let j := (s.pen n).nextLayer
      let gs := s.groupsOf f n
      let g := j % max 1 gs.length
      let hold := (s.pen n).dropped && (s.fold f).step.isNone && (s.fold f).nextWork.isEmpty
      if hold || !(s.fold f).streamed || layers = 0 || gs.isEmpty || !(gs[g]?).any (fun g => g.layer.isNone) then s else
      let tiles := x.tilesOf j
      let base := slateAt n ((x.fixedSlots + g * x.groupSlots) * 65536)
      let s := (List.range tiles).foldl (fun s t =>
        let b := s.streamTile f n j tiles t
        putBytes (base + t * 34816) b.1 b.2 s) s
      s.modPen n (fun p => { p with groups := gs.set g ⟨some j, true⟩, nextLayer := (j + 1) % layers, dropped := false })

/-- SCROLL_LAYER_LOAD (07 R190). -/
def execScrollLayerLoad (n : Nat) (s : State) : Host.Outcome State Fault Refusal := .next (serve s (loadLayer n))

end Sys2Proof.Machine
end

