-- ==== Sys2Proof/Machine/Bell.lean ====
section
/-! DEFINITION. Bellwether (09): proposals, the draft program, the start of a step, and the judgement of its rows. -/
namespace Sys2Proof.Machine

/-! ### A session's constraints under an overlay (09 R243, 10 R270 to R273) -/

/-- The text state after dry token `t`: matching and forcing state, replayed entries first (10 R271, 04 R117). -/
def afterToken (s : State) (y : Sess) (x : TextState) (t : Nat) : TextState :=
  let p := s.params y.record.paramSheet
  let z := x.advance p t
  if x.forceSrc = 2 then
    let n := x.replayNext + 1
    { z with replayNext := n, forceSrc := if n < x.replayEnd then 2 else b2n z.paramArmed, paramArmed := z.paramArmed && decide (n < x.replayEnd) }
  else z

/-- The count of token `t` with `dry` counted on top of the table (10 R272). -/
def overlayCount (s : State) (y : Sess) (dry : List Nat) (t : Nat) : Nat :=
  let a := s.sheetOffset y.fold (s.ptCount y.record.imageRoot)
  let inTable (v : Nat) : Bool := match countFind s a v with
    | some (_, true) => true
    | _ => false
  let room := 8192 - y.record.text.countUsed
  let fresh := (dry.eraseDups.filter (fun v => !inTable v)).take room
  if inTable t || fresh.contains t then min 65535 (countOf s a t + (dry.filter (· == t)).length) else 0

/-- The logits of a row made ready under an overlay (10 R273, R274). -/
def readyRow (s : State) (y : Sess) (x : TextState) (dry : List Nat) (l : NMap W32) : List (Nat × W32) :=
  let p := s.params y.record.paramSheet
  readyLogits p (overlayCount s y dry) (bannedAt p (trieOf p) x.banNode) l

/-- The token a draft row proposes: the highest logit after penalties and bans, the lowest ID of equals. -/
def draftPick (ready : List (Nat × W32)) : Option Nat := ((sortBy logitLe (ready.filter (fun e => fpLt (fpInf true) e.2))).head?).map (·.1)

/-! ### n-gram proposals (09 R242) -/

/-- The last SPAN dry tokens, oldest first. -/
def ngramHistory (s : State) (f : Nat) (y : Sess) : List Nat :=
  let r := y.record
  let n := min (bitsOf (s.act (rBellNgram f)) 28 16) (r.context - min r.context r.txFirst)
  (List.range n).map (fun i => txToken (s.txEntry y (r.context - n + i)))

/-- Where the longest key of length at most `n` recurs: the position after its most recent earlier occurrence. -/
def ngramFind (h : List Nat) (nmin : Nat) : Nat → Option Nat
  | 0 => none
  | n + 1 =>
    if n + 1 < nmin then none
    else if h.length < n + 1 then ngramFind h nmin n
    else
      let key := h.drop (h.length - (n + 1))
      match ((List.range (h.length - (n + 1))).reverse.find? (fun i => (h.drop i).take (n + 1) == key)) with
      | some i => some (i + n + 1)
      | none => ngramFind h nmin n

/-- Tokens kept as proposals until one that the bans refuse. -/
def keepAllowed (s : State) (y : Sess) : TextState → List Nat → List Nat → List Nat
  | _, _, [] => []
  | x, dry, t :: ts =>
    let p := s.params y.record.paramSheet
    if (bannedAt p (trieOf p) x.banNode).contains t then [] else t :: keepAllowed s y (afterToken s y x t) (dry ++ [t]) ts

/-- Proposals of SOURCE 2. -/
def ngramPropose (s : State) (f : Nat) (y : Sess) (k : Nat) : List Nat :=
  let h := ngramHistory s f y
  match ngramFind h (bitsOf (s.act (rBellNgram f)) 3 0) (bitsOf (s.act (rBellNgram f)) 7 4) with
  | some i => keepAllowed s y y.record.text [] ((h.drop i).take k)
  | none => []

/-- The run of forced tokens ahead, at most `k` (09 R243). -/
def forcedRun (s : State) (y : Sess) : Nat → TextState → List Nat
  | 0, _ => []
  | k + 1, x => match s.forcedToken y x with
    | some t => t :: forcedRun s y k (afterToken s y x t)
    | none => []

/-! ### The draft program (09 R239, R241) -/

/-- One pass of the draft program: every operation on every pen in order, ATTN once for the fold; END or the list's end stops it. -/
def draftOps (f : Nat) : List OpWord → State → Except (Nat × Nat × State) State
  | [], s => .error (1, s.lowPen f, s)
  | op :: t, s =>
    if opValid op && opBits op 7 0 == 0x02 then .ok s
    else do
      let s ← if opValid op && opBits op 7 0 == 0x30 then ((attnStart f true op s).map (·.2)).mapError (fun k => (k, s.lowPen f, s))
        else (s.fold f).penList.foldlM (fun s n => (draftOp op ⟨f, n, true⟩ s).mapError (fun k => (k, n, s))) s
      draftOps f t ((s.fold f).penList.foldl (fun s n => advance n s) s)

/-- The pens set to row pass `n` of a draft. -/
def draftAt (f n : Nat) (s : State) : State :=
  (s.fold f).penList.foldl (fun s p => s.modPen p (fun x => { x with pass := n, opIndex := 0, layer := 0, section_ := none, excluded := [], route := none })) s

/-- The draft program run over rows; their logits stand in the step's rows after it. Its passes are not counted in ROW_PASSES (06 R163, log entry
168). -/
def draftRun (f : Nat) (x : Image) (rows : List Row) (s : State) : Except (Nat × Nat × State) State :=
  let s := s.modFold f (fun z => { z with step := z.step.map (fun st => { st with rows := rows }) })
  (List.range (ceilDiv rows.length (s.rowCap f))).foldlM (fun s n => draftOps f x.draftProgram (draftAt f n s)) s

/-- A row at a position. -/
def rowAt (dseq position token : Nat) (wet : Bool) : Row :=
  { dseq := dseq, position := position, token := token, wet := wet, poisoned := false, logits := [] }

/-- The sequence noted as poisoned if a row of the draft was. -/
def notePoisonedDraft (f dseq : Nat) (s : State) : State :=
  if (s.stepRows f).any (·.poisoned) then
    s.modFold f (fun x => { x with step := x.step.map (fun st => { st with poisonedSeqs := st.poisonedSeqs ++ [dseq] }) })
  else s

/-- The later iterations: `left` more proposals after `props`, the last row's logits standing in the step. -/
def draftIterate (f : Nat) (x : Image) (y : Sess) (i : WorkItem) : Nat → TextState → List Nat → State → Except (Nat × Nat × State) (List Nat × State)
  | 0, _, props, s => .ok (props, s)
  | left + 1, t, props, s =>
    let logits := ((s.stepRows f).getLast?).elim [] (·.logits)
    let choice := match s.forcedToken y t with
      | some k => some k
      | none => draftPick (readyRow s y t props logits)
    match choice with
    | none => .ok (props, s)
    | some k =>
      let props' := props ++ [k]
      if left = 0 then .ok (props', s) else do
      let s ← draftRun f x [rowAt i.dseq (i.first + props'.length) k true] s
      draftIterate f x y i left (afterToken s y t k) props' (notePoisonedDraft f i.dseq s)

/-- The draft phase of one sequence under SOURCE 1: its catch-up rows, then its proposals. -/
def draftSeq (f : Nat) (x : Image) (y : Sess) (i : WorkItem) (s : State) : Except (Nat × Nat × State) (List Nat × State) :=
  let d := y.record.draft.draftPos
  let n := i.first + b2n (i.chunk == 0) - d
  let rows := (List.range n).map (fun k => rowAt i.dseq (d + k) (txToken (s.txEntry y (d + k))) false)
  if i.chunk = 0 && i.limit = 0 then .ok ([], s) else do
  let s ← if rows.isEmpty then .ok s else draftRun f x rows s
  let s := notePoisonedDraft f i.dseq s
  if i.chunk = 0 then
    let forced := (s.forcedToken y y.record.text).isSome
    draftIterate f x y i (if forced then min i.limit (s.forcedAhead y y.record.text) else i.limit) y.record.text [] s
  else .ok ([], s)

/-- The proposals of one item, from the fold's source. -/
def proposeItem (f : Nat) (x : Image) (i : WorkItem) (s : State) : Except (Nat × Nat × State) (List Nat × State) :=
  match s.seqSess f i.dseq with
  | none => .ok ([], s)
  | some y =>
    let src := s.draftSource f
    if ((getN (s.fold f).seqs i.dseq).any (·.reviving)) then .ok ([], s)
    else if src = 1 then draftSeq f x y i s
    else if i.chunk != 0 || i.limit = 0 then .ok ([], s)
    else if (s.forcedToken y y.record.text).isSome then .ok (forcedRun s y i.limit y.record.text, s)
    else if src = 2 then .ok (ngramPropose s f y i.limit, s) else .ok ([], s)

/-! ### STEP_START (06 R162, 09 R241) -/

/-- The rows of one item of the main step. -/
def itemRows (s : State) (f : Nat) (props : NMap (List Nat)) (i : WorkItem) : List Row :=
  match s.seqSess f i.dseq with
  | none => []
  | some y =>
    let tok (p : Nat) : Nat := txToken (s.txEntry y p)
    if i.chunk = 0 then
      rowAt i.dseq i.first (tok i.first) false ::
        ((getND props i.dseq []).mapIdx (fun k t => rowAt i.dseq (i.first + 1 + k) t true))
    else (List.range i.chunk).map (fun k => rowAt i.dseq (i.first + k) (tok (i.first + k)) false)

/-- Whether an item's entry still takes part. -/
def State.itemAlive (s : State) (f : Nat) (i : WorkItem) : Bool :=
  (getN (s.fold f).seqs i.dseq).any (fun e => e.phase != 4 && (s.sess e.session).isSome)

/-- The fold's step as it begins: the published list's entries, nothing computed. Members of a drove all run the whole list. -/
def openStep (f : Nat) (s : State) : State :=
  let items := (s.fold f).nextWork.filter (fun i => s.itemAlive f i || !(s.others f).isEmpty)
  let inList (d : Nat) : Bool := items.any (fun i => i.dseq == d)
  let st : Step :=
    { number := (s.fold f).stepNo, attempt := (s.fold f).attempts, items := items, rows := []
      limits := ((s.fold f).seqs.filter (fun p => p.2.reviving)).map (fun p => (p.1, p.2.layerLimit)), attn := none, proposals := [], verdicts := none
      abort := false, suspend := false, poisonedSeqs := [], quotaSeqs := [] }
  let wake (p : Nat × SeqEntry) : Nat × SeqEntry :=
    if inList p.1 then (p.1, { p.2 with heldLayer := none, phase := if p.2.phase = 3 then 1 else p.2.phase }) else p
  s.modFold f (fun x => { x with step := some st, nextWork := [], seqs := x.seqs.map wake })

/-- The draft phase of every item, in work-list order. -/
def draftPhase (f : Nat) (x : Image) (s : State) : Except (Nat × Nat × State) State :=
  (((s.fold f).step.map (·.items)).getD []).foldlM (fun s i => do
    let r ← proposeItem f x i s
    let s := r.2.modFold f (fun z => { z with step := z.step.map (fun st => { st with proposals := setN st.proposals i.dseq r.1 }) })
    .ok (match s.seqSess f i.dseq with
      | some y => if r.1.isEmpty then s else writeWetHeaders f x y i.dseq (i.first + 1) r.1.length s
      | none => s)) s

/-- The main step's rows set, and every pen's program started. -/
def startRows (f : Nat) (s : State) : State :=
  let props := ((s.fold f).step.map (·.proposals)).getD []
  let rows := (((s.fold f).step.map (·.items)).getD []).flatMap (itemRows s f props)
  let s := s.modFold f (fun x => { x with step := x.step.map (fun st => { st with rows := rows }) })
  (s.fold f).penList.foldl (fun s n => s.modPen n (fun p =>
    { p with running := true, pass := 0, opIndex := 0, layer := 0, excluded := [], route := none, word := none, bar := none, stallSince := none, section_ := none })) s

/-- Whether a commit point still waits for a home's acknowledgement (04 R100). -/
def State.ackWaits (s : State) (f : Nat) : Bool := s.sessions.any (fun p => p.2.fold == f && p.2.txWait.isSome)

/-- Whether every sequence of the root's last list has its entry here (05 R126). -/
def State.seated (s : State) (f : Nat) : Bool := s.isRoot f || (s.fold f).roster.all (fun r => hasN (s.fold f).seqs r.1)

/-- STEP_START (06 R162, 09 R241, 08 R226): the published list's step begins on this member. -/
def execStepStart (f : Nat) (s : State) : Host.Outcome State Fault Refusal :=
  .next (serve s fun s =>
    match s.activeImage f with
    | none => s
    | some x =>
      if !s.formed f || (s.fold f).step.isSome || (s.fold f).nextWork.isEmpty || (s.fold f).snap.halted || s.ackWaits f || !s.seated f then s
      else
        let s := admitQueries f (openStep f s)
        let s := (s.fold f).penList.foldl (fun s n => s.modPen n (fun p => { p with raccMark := p.raccCount })) s
        let s := (List.range (bitsOf (s.act (rInkPrefetch f)) 3 0)).foldl (fun s j => prefetchLayer f j s) s
        match draftPhase f x s with
        | .error e => programFault f e.2.1 e.1 e.2.2
        | .ok s => startRows f s)

/-! ### The judgement (09 R245) -/

/-- What the judgement of a sequence has come to. -/
structure Judging where
  text : TextState
  dry : List DryToken
  a : Nat
  ending : Option Nat
  stopIndex : Nat
  done : Bool

/-- Whether dry token `t` ends the turn, and how: an end token, a stop string (2 where it is a tool stop), MAX_NEW, the context's end. -/
def tokenEnds (s : State) (f : Nat) (y : Sess) (stop : Option (Nat × Nat)) (gen next t : Nat) : Option Nat × Nat :=
  let p := s.params y.record.paramSheet
  let m := (y.turn.map (·.maxNew)).getD 0
  if p.ends.contains t then (some 0, 0)
  else match stop with
    | some (i, _) => (some (if bitOf ((y.turn.map (·.toolMask)).getD 0) i then 2 else 1), i)
    | none => if m != 0 && decide (m ≤ gen) then (some 3, 0) else if s.act (rInkCtxMax f) ≤ next then (some 4, 0) else (none, 0)

/-- One row judged: `choose` is Scriptorium's choice from it. -/
def judgeRow (s : State) (f : Nat) (y : Sess) (i : WorkItem) (props : List Nat) (j : Nat) (choose : Option Nat) (g : Judging) : Judging :=
  let p := s.params y.record.paramSheet
  let forced := s.forcedToken y g.text
  match (match forced with | some t => some t | none => choose) with
  | none => { g with ending := some 6, done := true }
  | some t =>
    let o := detok p (tokenText s f p t) (afterToken s y g.text t)
    let dry := g.dry ++ [⟨t, forced.isSome⟩]
    let e := tokenEnds s f y o.stop (y.record.turnGen + dry.length) (i.first + j + 2) t
    let more := e.1.isNone && props[j]? == some t
    { g with text := o.state, dry := dry, a := if more then g.a + 1 else g.a, ending := e.1, stopIndex := e.2, done := !more }

/-- The slices that other members have handed in for the running step put into its rows (10 R255). -/
def mergeSlices (f : Nat) (s : State) : State :=
  let news := (s.fold f).slices.filter (fun n => (s.fold f).step.any (fun st => st.number == n.step && st.attempt == n.attempt))
  (news.flatMap (·.rows)).foldl (fun s r => modRow f r.1 (Row.putSlice (s.vocab f) r.2.1 r.2.2.1 r.2.2.2) s) s

/-- The slices that a member hands in over a step: its pens' LOGITS operations, those of the root alone left out, in every row pass. -/
def State.slicesDue (s : State) (f : Nat) : Nat :=
  (s.activeImage f).elim 0 (fun x =>
    (x.program.filter (fun o => opBits o 7 0 == 0x60 && !bitOf o.toNat 8)).length * x.pensFor * ceilDiv (s.stepRows f).length (s.rowCap f))

/-- Whether the last slices of every other member have come. -/
def State.slicesIn (s : State) (f : Nat) : Bool := (s.others f).all (fun d =>
  decide (s.slicesDue f ≤ ((s.fold f).slices.filter (fun n => n.source == d &&
    (s.fold f).step.any (fun st => st.number == n.step && st.attempt == n.attempt))).length))

/-- A member's slices, at the root. -/
def slicesArrive (f src : Nat) (n : LogitNews) (s : State) : State := s.modFold f (fun x => { x with slices := x.slices ++ [{ n with source := src }] })

/-- The root's commit record, at another member that runs the step (09 R248). -/
def recordArrives (f step attempt : Nat) (vs : List SeqVerdict) (s : State) : State :=
  s.modFold f (fun x => { x with step := x.step.map (fun st => if st.number = step && st.attempt = attempt then { st with verdicts := some vs } else st) })

/-- The logits assembled for a row: once a shrink has taken a member over, what its slices would hold is a free value (log entry 3). -/
def assembled (s : State) (f : Nat) (r : Row) : NMap W32 × State :=
  if (s.fold f).snap.absorbed.isEmpty then (r.logits, s)
  else (List.range (s.vocab f)).foldl (fun t v =>
    if hasN r.logits v then t else let d := t.2.draw; (setN t.1 v (BitVec.ofNat 32 d.1), d.2)) (r.logits, s)

/-- A sequence judged, row by row; the counters of the rows sampled. -/
def judgeSeq (f : Nat) (y : Sess) (i : WorkItem) (rows : List Row) (props : List Nat) : Nat → Nat → Judging → State → Judging × State
  | 0, _, g, s => (g, s)
  | n + 1, j, g, s =>
    if g.done then (g, s) else
    match rows[j]? with
    | none => (g, s)
    | some r =>
      if (s.forcedToken y g.text).isSome then judgeSeq f y i rows props n (j + 1) (judgeRow s f y i props j none g) s
      else
        let l := assembled s f r
        let s := l.2.count (rTokNanLogits f) (nanCount l.1)
        let c := sample (s.params y.record.paramSheet) (variateFp y.record.seed (i.first + j + 1)) (readyRow s y g.text (g.dry.map (·.token)) l.1)
        let s := if c.isNone then s.count (rTokNoCandidate f) 1 else s
        judgeSeq f y i rows props n (j + 1) (judgeRow s f y i props j c g) s

/-- The verdict of one item; none for one that leaves the table or did not come to its last layer. -/
def judgeItem (f : Nat) (i : WorkItem) (s : State) : Option SeqVerdict × State :=
  match getN (s.fold f).seqs i.dseq, s.seqSess f i.dseq, (s.fold f).step with
  | some e, some y, some st =>
    if e.phase = 4 || e.heldLayer.isSome || e.phase = 3 then (none, s) else
    let rows := st.rows.filter (fun r => r.dseq == i.dseq)
    let props := getND st.proposals i.dseq []
    let v : SeqVerdict := { dseq := i.dseq, k := props.length, a := 0, dry := [], ending := none, stopIndex := 0, poisoned := false }
    if rows.any (·.poisoned) || st.poisonedSeqs.contains i.dseq then (some { v with poisoned := true }, s)
    else if st.quotaSeqs.contains i.dseq || s.prefetchRefused f i then (some { v with ending := some 8 }, s)
    else if i.chunk != 0 then (some v, s)
    else if s.act (rInkCtxMax f) ≤ y.record.context then (some { v with ending := some 4 }, s)
    else
      let r := judgeSeq f y i rows props (props.length + 1) 0 ⟨y.record.text, [], 0, none, 0, false⟩ s
      (some { v with a := r.1.a, dry := r.1.dry, ending := r.1.ending, stopIndex := r.1.stopIndex }, r.2)
  | _, _, _ => (none, s)

/-- Whether every pen has run the last row pass of the step. -/
def State.stepRun (s : State) (f : Nat) : Bool :=
  (s.fold f).step.any (fun st => st.attn.isNone && (s.fold f).penList.all (fun n =>
    !(s.pen n).running && decide (st.rows.length ≤ (s.pen n).pass * s.rowCap f || (st.rows.isEmpty && 0 < (s.pen n).pass))))

/-- Whether every token ID is covered in every row that is judged (10 R255); after a shrink the slices of the member lost are wanting. -/
def State.logitsWhole (s : State) (f : Nat) : Bool :=
  (s.fold f).step.any (fun st => !(s.fold f).snap.absorbed.isEmpty || st.items.all (fun i => i.chunk != 0 || !s.itemAlive f i ||
    (getN (s.fold f).seqs i.dseq).any (fun e => e.heldLayer.isSome) ||
    (st.rows.filter (fun r => r.dseq == i.dseq)).all (fun r => r.logits.length == s.vocab f)))

/-- Every item of the step judged, the record kept and broadcast (09 R245, R248). -/
def judgeStep (f : Nat) (st : Step) (s : State) : State :=
  let r := st.items.foldl (fun (t : List SeqVerdict × State) i => let v := judgeItem f i t.2; (t.1 ++ v.1.toList, v.2)) ([], s)
  mailOthers f (.record st.number st.attempt r.1) (r.2.modFold f (fun x => { x with step := x.step.map (fun st => { st with verdicts := some r.1 }) }))

/-- VERIFICATION_JUDGEMENT (09 R245): after the last LOGITS of the last pass the root assembles the logits and judges every sequence. -/
def execVerificationJudgement (f : Nat) (s : State) : Host.Outcome State Fault Refusal :=
  .next (serve s fun s =>
    match (s.fold f).step with
    | none => s
    | some st =>
      if st.verdicts.isSome || !s.isRoot f || !s.stepRun f || !s.slicesIn f then s
      else
        let s := mergeSlices f s
        if !s.logitsWhole f then programFault f (s.lowPen f) 1 s else judgeStep f st s)

end Sys2Proof.Machine
end

