-- ==== Sys2Proof/Machine/Revive.lean ====
section
/-! DEFINITION. What a revive comes to (04 R107 to R109): its completion, its failure, the reports of a turn-out. -/
namespace Sys2Proof.Machine

/-- The entry of a turn-out session: REVIVING and its layer limit. -/
def setReviving (f : Nat) (x : W64) (on : Bool) (limit : Nat) (s : State) : State :=
  s.modFold f (fun z => { z with seqs := z.seqs.map (fun p =>
    if p.2.session = x && p.2.phase != 4 then (p.1, { p.2 with reviving := on, layerLimit := if on then limit else 255 }) else p) })

/-- The layer limit of a session that is revived (04 R108): the lowest layer that this device or another holder has not reported, 255 for none. -/
def State.reviveLimit (s : State) (f : Nat) (x : W64) : Nat :=
  match s.sess x with
  | none => 255
  | some y => ((s.fold f).layersIn.filter (fun e => e.1 == x && e.2.1 == y.record.turn)).foldl (fun n e => min n e.2.2.2) (y.revive.elim 255 (·.layers))

/-- The entry of session `x` brought to its layer limit, at the root, which alone gives limits (04 R108). -/
def refreshLimit (f : Nat) (x : W64) (s : State) : State :=
  if !s.isRoot f then s else
  let n := s.reviveLimit f x
  setReviving f x (decide (n < 255)) n s

/-- This device's progress on session `y`, reported to the root, and, with every layer promoted or on a failure, to the owner (04 R107 to R109). -/
def reportLayers (f : Nat) (y : Sess) (n : Nat) (st : W16) (s : State) : State :=
  let x := y.record.sessionId
  let dest := s.rootOf f :: (if n = 255 || st != stOk then [y.record.lease.holder] else [])
  refreshLimit f x ((dest.eraseDups.filter (· != s.selfNo)).foldl (fun s d => mailTo f (.layers x y.record.turn n st) d s) s)

/-- A revive stopped by `st`: IMAGE_POISONED for poison, and the session stays parked (04 R109). A holder that is not the owner tells the owner. -/
def failRevive (x : W64) (y : Sess) (r : Revive) (st : W16) (s : State) : State :=
  if !y.isOwner then reportLayers y.fold y r.layers st (stopRevive x s) else
  let s := forgetLayers y.fold x s
  let s := if st = stPoison then s.modRec x (fun q => { q with imagePoisoned := true }) else s
  let fl := if st = stPoison then flPoisoned else 0
  match r.desc with
  | some d =>
    let s := writeBack x (stopRevive x s)
    complete opSessionRevive d st fl (s.sessInfo x) s
  | none =>
    let s := setReviving y.fold x false 0 s
    failTurn x st fl (s.modRec x (fun q => { q with state := r.source }))

/-- The sheets of a revive that are still below T2. -/
def reviveLeft (s : State) (y : Sess) (l : List Nat) : List Nat :=
  l.filter (fun i => (s.fold y.fold).backed i && decide (3 ≤ ((s.fold y.fold).sheet i).tier))

/-- A structure of session `x` is lost here (18 Table 18-2): its turn ends with ST_POISON and POISONED, or its revive stops, and the home sets
IMAGE_POISONED (04 R109). A member that holds a share tells the owner. -/
def poisonSession (x : W64) (s : State) : State :=
  match s.sess x with
  | none => s
  | some y =>
    if y.isOwner then
      match y.revive with
      | some r => failRevive x y r stPoison s
      | none =>
        let s := writeBack x (s.modRec x (fun r => { r with imagePoisoned := true }))
        if y.turn.isSome then failTurn x stPoison flPoisoned s else s
    else if y.share then reportLayers y.fold y 0 stPoison s
    else if y.isHome then s.modRec x (fun r => { r with imagePoisoned := true })
    else s

/-- A holder's report at the root or the owner: its layers, or what has stopped it there (04 R108, R109). -/
def layersReported (f : Nat) (x : W64) (t i n : Nat) (st : W16) (s : State) : State :=
  if st == stPoison && (s.sess x).any (fun y => y.isOwner && y.revive.isNone) then poisonSession x s
  else if st != stOk then match s.sess x with
    | some y =>
      if !y.isOwner then s else
      failRevive x y (y.revive.getD { groups := [], layers := 255, desc := none, turnOut := true, source := y.record.state }) st s
    | none => s
  else
    refreshLimit f x (s.modFold f (fun z => { z with layersIn := z.layersIn.filter (fun e => !(e.1 == x && e.2.2.1 == i)) ++ [(x, t, i, n)] }))

/-- REVIVE_COMPLETE (04 R107, R109): every image sheet in T2 or above, a SESSION_REVIVE's on every holder, or what stopped it. -/
def execReviveComplete (x : W64) (s : State) : Host.Outcome State Fault Refusal :=
  .next (serve s fun s =>
    match s.sess x with
    | none => s
    | some y =>
      match y.revive with
      | none => s
      | some r =>
        let z := s.fold y.fold
        let left := reviveLeft s y r.groups.flatten
        match (left.filterMap (fun i => getN z.moveFail i)).head? with
        | some st => failRevive x y r st s
        | none =>
          if left.isEmpty then
            match r.desc with
            | some d =>
              if (z.layersIn.any (fun e => e.1 == x && decide (e.2.2.2 < 255))) then s else
              let s := windowMoves y.fold y true (forgetLayers y.fold x (s.modSess x (fun y => { y with revive := none })))
              let s := setState x y.record.priorState s
              complete opSessionRevive d stOk 0 (s.sessInfo x) s
            | none => reportLayers y.fold y 255 stOk (windowMoves y.fold y true (s.modSess x (fun y => { y with revive := none })))
          else (left.filter (fun i => !(z.sheet i).migrating && !hasN z.migs i && !z.requests.any (fun q => q.1 == i))).foldl
            (fun s i => requestMove y.fold i 2 s) s)

/-- REVIVE_LAYER_REPORT (04 R108): a layer's sheets, and those outside KV, are in T2 or above on every holder. -/
def execReviveLayerReport (x : W64) (layer : Nat) (s : State) : Host.Outcome State Fault Refusal :=
  .next (serve s fun s =>
    match s.sess x with
    | none => s
    | some y =>
      match y.revive with
      | none => s
      | some r =>
        onlyIf (r.turnOut && r.layers == layer && decide (layer + 1 < r.groups.length) &&
            (reviveLeft s y (r.groups.take (layer + 2)).flatten).isEmpty) s
          (reportLayers y.fold y (layer + 1) stOk (s.modSess x (fun y => { y with revive := some { r with layers := layer + 1 } }))))

end Sys2Proof.Machine
end

