-- ==== Sys2Proof/Machine/Move.lean ====
section
/-! DEFINITION. Moving a session between devices (04 R110 to R115, R119, R120): lease swaps and what the home makes of them, the offer,
the accept with its pull, the giver's poll, and the home's re-examination. -/
namespace Sys2Proof.Machine

/-! ### The home's directory (04 R113, R114) -/

/-- Whether a turn of the session is in progress as its record says it: ACTIVE, displaced, or prefilled for handoff. -/
def Record.inTurn (r : Record) : Bool := r.state == stateActive || r.turnHeld || r.turnCarried

/-- STATE after an accepted offer (04 Table 4-4): parked sessions arrive as PARKED_HBM. -/
def Record.arrived (r : Record) : Nat :=
  if r.turnCarried then stateActive else if isParked r.priorState then parkedIn 2 else r.priorState

/-- Session `y` with its lease word swapped, as the directory observes it (04 R113): the deadline; MOVING with PRIOR_STATE recorded
as it becomes OFFERED; the receiver's fold and STATE as it becomes ACCEPTED. -/
def Sess.observe (now limit : Nat) (l : Lease) (y : Sess) : Sess :=
  let r := { y.record with lease := l }
  if l.lstate = 1 then
    { y with restPrior := r.priorState
             record := { r with offerDeadline := now + limit, priorState := if isRest r.state then r.state else stateOpen, state := stateMoving } }
  else if l.lstate = 2 then
    { y with record := { r with offerDeadline := now + limit, ownerFold := r.peer.fold, state := r.arrived
                                priorState := if isParked r.priorState then y.restPrior else r.priorState } }
  else { y with record := r }

/-- `observe` on session `x`, with SESS_OFFER_LIMIT of at least 1,000 µs. -/
def observeLease (x : W64) (l : Lease) (s : State) : State :=
  s.modSess x (Sess.observe s.now (max 1000 (s.act rSessOfferLimit)) l)

/-- A swap of the lease word at the home: whether it succeeded. -/
def homeCas (x : W64) (old new : Lease) (s : State) : Bool × State :=
  if (s.sess x).any (fun y => y.isHome && y.record.lease == old) then (true, observeLease x new s) else (false, s)

/-- A swap asked of a home that is another device. -/
def askSwap (x : W64) (purpose : Purpose) (y : Sess) (old new : Lease) (s : State) : Tried State :=
  fabRequest purpose (some y.fold) none
    (s.requestPacket (some y.fold) issSess fabOpCas (sidDevice x) 16 16 false true y.record.lease.epoch x 0
      (leBytes 8 old.word ++ leBytes 8 new.word)) s

/-- The largest epoch (04 R115). -/
def epochTop : Nat := 0xFFFFFFFF

/-- A stranded session at its home (04 Table 4-6): VOID lease, STATE, PRIOR_STATE as the state a recovery returns to (ACTIVE where a turn
was in progress, log entry 40), counted, OWNERSHIP_CHANGED to the home fold's default queue. -/
def strand (x : W64) (s : State) : State :=
  match s.sess x with
  | none => s
  | some y =>
    if epochTop ≤ y.record.lease.epoch then s else
    let r := y.record
    let prior := if r.inTurn then stateActive
      else if r.state = stateMoving then (if isParked r.priorState then y.restPrior else r.priorState)
      else if isParked r.state then r.priorState else r.state
    let s := s.modSess x (fun y => { y with
      isOwner := false, move := none
      record := { y.record with lease := ⟨sidDevice x, 3, r.lease.epoch + 1⟩, state := stateStranded, priorState := prior } })
    let s := s.count rSessStranded 1
    postOwner (sidFold x)
      { plainRecord evOwnershipChanged (sidFold x) false stOk 0
          (leBytes 4 (r.lease.epoch + 1) ++ leBytes 1 stateStranded ++ leBytes 4 (sidDevice x) ++ leBytes 1 3 ++ [0]) with session := x } s

/-- An expired offer whose giver is present (04 Table 4-6): (G, HELD, e+2), PRIOR_STATE, counted. -/
def revertOffer (x : W64) (s : State) : State :=
  match s.sess x with
  | none => s
  | some y =>
    if epochTop ≤ y.record.lease.epoch then s else
    (s.modSess x (fun y => { y with
      record := { y.record with lease := ⟨y.record.lease.holder, 0, y.record.lease.epoch + 1⟩, state := y.record.priorState
                                priorState := if isParked y.record.priorState then y.restPrior else y.record.priorState } })).count
      rSessOfferExpired 1

/-- The home's re-examination of a record (04 Table 4-6), `gone` saying which devices are absent. -/
def examine (x : W64) (gone : Nat → Bool) (s : State) : State :=
  match s.sess x with
  | none => s
  | some y =>
    let l := y.record.lease
    if !y.isHome then s
    else if l.lstate = 1 then (if gone l.holder then strand x s else revertOffer x s)
    else if l.lstate = 2 then
      let s := s.modRec x (fun r => { r with lease := ⟨l.holder, 0, l.epoch⟩ })
      if gone l.holder then strand x s else s
    else if l.lstate = 0 && l.holder != sidDevice x && gone l.holder then strand x s
    else s

/-- Whether a request of this purpose is outstanding. -/
def State.asking (s : State) (p : Purpose) : Bool := s.fab.outstanding.any (fun m => m.2.purpose == p)

/-- OFFER_DEADLINE_EXPIRY (04 R114): past the deadline the home examines the record; a giver that is another device is probed first. -/
def execOfferDeadlineExpiry (x : W64) (s : State) : Host.Outcome State Fault Refusal :=
  .next (serve s fun s =>
    match s.sess x with
    | none => s
    | some y =>
      let l := y.record.lease
      if !y.isHome || !(l.lstate == 1 || l.lstate == 2) || s.now ≤ y.record.offerDeadline || s.asking (.examine x) then s
      else if l.lstate = 2 || l.holder = s.selfNo then examine x (fun _ => false) s
      else
        match fabRequest (.examine x) (some (sidFold x)) none
            (s.requestPacket (some (sidFold x)) issSess fabOpRead l.holder 0 0 false false 0 0 0 []) s with
        | .ok s => s
        | .error e => examine x (fun d => d == l.holder) e.2)

/-- The probe's answer. -/
def examined (x : W64) (st : W16) (s : State) : State :=
  match s.sess x with
  | none => s
  | some y => if y.record.lease.lstate = 1 then examine x (fun d => st == stPeerLost && d == y.record.lease.holder) s else s

/-! ### The offer (04 R113 steps 1 to 3, R119) -/

/-- The COMPLETION of a turn whose session has gone to another device: a carried one with END_REASON 7 (04 R120), TOKENS 0. -/
def endAway (x : W64) (st : W16) (reason state : Nat) (s : State) : State :=
  match s.sess x with
  | none => s
  | some y => match y.turn with
    | none => s
    | some t =>
      complete t.opcode t.desc st t.flags (turnSpecific 0 state reason 0 0 t.replaced)
        (leaveTable y.fold x (dequeue y.fold x (s.modSess x (fun y => { y with turn := none }))))

/-- The turn of a giver whose offer has been taken or lost: handed off where it was carried; one that still waited for admission is no longer this
device's (04 R112, R123, log entry 155). -/
def endGiven (x : W64) (m : Move) (st : W16) (state : Nat) (s : State) : State :=
  if m.continueTurn then endAway x st 7 state s else endAway x stNotOwner 8 state s

/-- The swap of step 3 has been answered. -/
def offerSwapped (x : W64) (st : W16) (good : Bool) (s : State) : State :=
  match s.sess x with
  | none => s
  | some y =>
    match y.move with
    | none => s
    | some m =>
      if m.stage != 0 then s
      else if good then
        let s := if y.isHome then s else observeLease x ⟨s.selfNo, 1, m.epoch⟩ s
        let s := s.modSess x (fun y => { y with move := some { m with stage := 1, lastPoll := s.now, desc := none } })
        match m.desc with
        | some d => complete opSessionMove d stOk 0 (s.sessInfo x) s
        | none => s
      else
        let s := s.modSess x (fun y => { y with move := none })
        match m.desc with
        | some d => complete opSessionMove d st 0 (s.sessInfo x) s
        | none => failTurn x st 0 s

/-- Session `x` offered to a device and fold (04 R113): working copy written back, PEER, then the lease swap; refused where EPOCH is at its top
(04 R115). -/
def startOffer (x : W64) (dev fold : Nat) (desc : Option Desc) (s : State) : State :=
  match s.sess x with
  | none => s
  | some y =>
    let e := y.record.lease.epoch
    if epochTop ≤ e then (match desc with
      | some d => complete opSessionMove d stLength 0 (s.sessInfo x) s
      | none => failTurn x stLength 0 s) else
    let m : Move := { stage := 0, device := dev, fold := fold, epoch := e + 1, desc := desc, continueTurn := y.record.turnCarried
                      lastPoll := 0, pulled := [] }
    let s := writeBack x (s.modSess x (fun y => { y with move := some m }))
    let s := writeHome x (.record x) 24 8 (s.modRec x (fun r => { r with peer := ⟨dev, fold, e + 1⟩ }))
    let old : Lease := ⟨s.selfNo, 0, e⟩
    let new : Lease := ⟨s.selfNo, 1, e + 1⟩
    if y.isHome then
      let c := homeCas x old new s
      offerSwapped x stStaleEpoch c.1 c.2
    else
      match askSwap x (.leaseOffer x) y old new s with
      | .ok s => s
      | .error er => offerSwapped x er.1 false er.2

/-- SESSION_MOVE offer past its lease checks. -/
def offerBody (d : Desc) (y : Sess) (s : State) : State :=
  let x := d.session
  let no (st : W16) : State := complete opSessionMove d st 0 (s.sessInfo x) s
  if y.busy then no stBusy
  else if !isRest y.record.state || y.record.imagePoisoned then no stBadDescriptor
  else startOffer x (descNum d 36 4) (descByte d 40) (some d) s

/-- SESSION_MOVE offer (04 R113). A descriptor with SUBOP 1 is the other row's (log entry 5). -/
def execSessionMoveOffer (d : Desc) (s : State) : Host.Outcome State Fault Refusal :=
  .next (if descByte d 32 = 1 then s else
    serve s (descriptorAs opSessionMove
      (bodyReserved d [(32, 32), (36, 40)] && descByte d 32 == 0 && decide (descNum d 36 4 < 2 ^ 18) && decide (descByte d 40 < 64)) true
      (fun s => s.sessInfo d.session) d (fun s => .ok (withLease opSessionMove d (fun s => s.sessInfo d.session) (offerBody d) s))))

/-! ### The giver's poll (04 R113 step 7, R120) -/

/-- The giver's copy and shares freed; a home keeps its record. -/
def freeCopy (x : W64) (s : State) : State :=
  let s := dropImage x s
  match s.sess x with
  | none => s
  | some y =>
    if y.isHome then s.modSess x (fun y => { y with isOwner := false, share := false, move := none, turn := none, endings := [], txCache := []
                                                    record := y.homeRecord, away := none })
    else { s with sessions := delN s.sessions x.toNat }

/-- What the giver makes of the lease it has read. -/
def leasePolled (x : W64) (l : Lease) (s : State) : State :=
  match s.sess x with
  | none => s
  | some y =>
    match y.move with
    | none => s
    | some m =>
      if m.stage != 1 then s
      else if m.epoch ≤ l.epoch && l.holder != s.selfNo then
        let r := y.record
        let st := if y.isHome then r.state else if l.lstate = 3 then stateStranded else r.arrived
        let s := endGiven x m (if l.lstate = 3 then stPeerLost else stOk) st s
        let s := if l.lstate = 2 then
            (if y.isHome then (homeCas x l ⟨l.holder, 0, l.epoch⟩ s).2
             else match askSwap x (.leaseConfirm x) y l ⟨l.holder, 0, l.epoch⟩ s with
               | .ok s => s
               | .error e => e.2)
          else s
        let s := postSession evOwnershipChanged x stOk 0 0 0 (leBytes 4 l.epoch ++ leBytes 1 st ++ leBytes 4 l.holder ++ leBytes 1 0 ++ [0]) s
        freeCopy x s
      else if l.holder = s.selfNo && m.epoch < l.epoch then
        let s := if y.isHome then s else revertOffer x s
        let s := s.modSess x (fun y => { y with move := none, fenceEpoch := l.epoch, record := { y.record with lease := l } })
        postOwnership x 2 (if m.continueTurn then endAway x stPeerLost 7 stateOpen s else s)
      else s.modSess x (fun y => { y with move := some { m with lastPoll := s.now } })

/-- LEASE_POLL (04 R113 step 7): the giver reads LEASE every SESS_POLL µs. -/
def execLeasePoll (x : W64) (s : State) : Host.Outcome State Fault Refusal :=
  .next (serve s fun s =>
    match s.sess x with
    | none => s
    | some y =>
      match y.move with
      | none => s
      | some m =>
        if m.stage != 1 || s.now < m.lastPoll + max 1 (s.act rSessPoll) || s.asking (.leasePoll x) then s
        else if y.isHome then leasePolled x y.record.lease s
        else
          match fabRequest (.leasePoll x) (some y.fold) none
              (s.requestPacket (some y.fold) issSess fabOpRead (sidDevice x) 16 8 false true m.epoch x 0 []) s with
          | .ok s => s
          | .error e => e.2)

/-! ### The accept and its pull (04 R113 steps 4 to 6) -/

/-- SPECIFIC bytes of an accept refused by a check that is not the lease's: the turn layout where it stands in for a turn (04 R123). -/
def acceptSpecific (d : Desc) (state : Nat) (other : List Byte) : List Byte :=
  if bitOf (descByte d 33) 0 then turnSpecific 0 state 8 0 0 0 else other

/-- The pull given up: what was pulled is discarded and the accept completes with `st` (04 R114). -/
def pullFail (x : W64) (st : W16) (s : State) : State :=
  match s.sess x with
  | none => s
  | some y =>
    match y.move with
    | none => s
    | some m =>
      if m.stage < 3 || 4 < m.stage then s else
      let s := discardAll y.fold (m.pulled.map (·.2)) s
      let s := if y.isHome then s.modSess x (fun y => { y with move := none }) else { s with sessions := delN s.sessions x.toNat }
      match m.desc with
      | some d =>
        let r := y.homeRecord
        let spec := sessSpecific r.lease.epoch r.state r.lease.holder
        complete opSessionMove d st 0 (if leaseStatus st then spec else acceptSpecific d r.state spec) s
      | none => s

/-- The giver's base of map indices: its PARAM_SHEET lies at the index the page table gives. -/
def giverBase (r : Record) (paramIndex : Nat) : Nat := r.paramSheet - paramIndex * 65536

/-- A read of the sheet at the giver's local offset `a`, unless it has been asked for. -/
def askPull (x : W64) (y : Sess) (m : Move) (a : Nat) (s : State) : State :=
  if hasN m.pulled (a / 65536) || s.fab.outstanding.any (fun q => q.2.purpose == .pull x && q.2.packet.addr == a) then s else
  match fabRequest (.pull x) (some y.fold) none
      (s.requestPacket (some y.fold) issSess fabOpRead m.device a 65536 true false m.epoch x 0 []) s with
  | .ok s => s
  | .error e => pullFail x e.1 e.2

/-- The giver's sheets that the own copy of sheet index `i`, pulled from offset `a`, refers to: those of the page table, and the pages of
a page-list sheet. -/
def pullRefs (s : State) (y : Sess) (m : Move) (a i : Nat) : List Nat :=
  let o := s.sheetOffset y.fold i
  let root := getN m.pulled (y.record.imageRoot / 65536)
  let base := match root with
    | some t => giverBase y.record (s.ptParam (s.sheetOffset y.fold t))
    | none => 0
  if a = y.record.imageRoot then ([s.ptParam o, s.ptCount o] ++ s.listSheets o).map (fun k => giverBase y.record (s.ptParam o) + k * 65536)
  else match root with
    | none => []
    | some t =>
      let p := s.sheetOffset y.fold t
      let k := (a - base) / 65536
      (List.range (s.ptLayers p * s.ptLists p)).flatMap (fun j =>
        if s.num (p + 64 + 8 * j) 4 = k then (List.range (s.num (p + 68 + 8 * j) 4)).map (fun q => base + s.num (o + 64 + 4 * q) 4 * 65536) else [])

/-- The answer to a pull's read: the sheet placed here, and what it refers to asked for (04 R113 step 5). -/
def pullAnswer (x : W64) (a : Nat) (st : W16) (bad : List Nat) (l : List Byte) (s : State) : State :=
  match s.sess x with
  | none => s
  | some y =>
    match y.move with
    | none => s
    | some m =>
      if m.stage != 3 then s
      else if st != stOk then pullFail x st s
      else
        let kind := if (getN m.pulled (y.record.imageRoot / 65536)).isSome && a != y.record.paramSheet && leAt l 0 2 = 0x4B56 then 1 else 0
        match newSheet y.fold 2 kind none false false s with
        | .error e => pullFail x e.1 e.2
        | .ok r =>
          let s := pokeSheet y.fold r.1 0 (padTo 65536 l) r.2
          let s := s.addPoison (bad.map (fun u => s.sheetOffset y.fold r.1 / 64 + u))
          let m := { m with pulled := setN m.pulled (a / 65536) r.1 }
          let s := s.modSess x (fun y => { y with move := some m })
          (pullRefs s y m a r.1).foldl (fun s b => askPull x y m b s) s

/-- The accept with the home's record at hand (04 R113 step 4). -/
def acceptRecord (d : Desc) (r : Record) (s : State) : State :=
  let x := d.session
  let f := s.descFold d
  let spec := sessSpecific r.lease.epoch r.state r.lease.holder
  let no (st : W16) : State := complete opSessionMove d st 0 (if leaseStatus st then spec else acceptSpecific d r.state spec) s
  if (s.sess x).any (fun y => y.isOwner || y.move.isSome) then no stBusy
  else if r.lease.epoch != d.epoch.toNat then no stStaleEpoch
  else if r.lease.lstate != 1 || r.peer != ⟨s.selfNo, f, r.lease.epoch⟩ then no stNotOwner
  else if r.imgFmt < s.boot.firmware.fmtMin || s.boot.firmware.fmtMax < r.imgFmt then no stVersion
  else if bitOf (descByte d 33) 0 != r.turnCarried then no stBadDescriptor
  else
    let m : Move := { stage := 3, device := r.lease.holder, fold := f, epoch := r.lease.epoch, desc := some d
                      continueTurn := r.turnCarried, lastPoll := 0, pulled := [] }
    let s := dropShare x s
    let s := match s.sess x with
      | some y => s.setSess x { y with fold := f, move := some m }
      | none => s.setSess x { Sess.idle r false false f with move := some m }
    match s.sess x with
    | some y => askPull x y m r.paramSheet (askPull x y m r.imageRoot s)
    | none => s

/-- The home's record read for descriptor `d` in fold `f`; `arg` comes back with the answer. -/
def askRecord (purpose : Purpose) (f op : Nat) (d : Desc) (arg : Nat) (s : State) : Tried State :=
  fabRequest purpose (some f) (some (op, d))
    (s.requestPacket (some f) issSess fabOpRead (sidDevice d.session) 0 512 false true d.epoch.toNat d.session (BitVec.ofNat 64 arg) []) s

/-- SESSION_MOVE accept (04 R113 step 4): the record is the own one or is read at the home. -/
def acceptBody (d : Desc) (s : State) : Tried State :=
  let x := d.session
  let f := s.descFold d
  let st := streamBlock d f s
  if st != stOk then .error (st, s)
  else match s.sess x with
    | some y =>
      if y.isHome then .ok (acceptRecord d y.homeRecord s)
      else if y.isOwner || y.move.isSome then .error (stBusy, s) else askRecord (.leaseAccept x) f opSessionMove d 0 s
    | none =>
      if sidDevice x = s.selfNo then .error (stBadDescriptor, s)
      else askRecord (.leaseAccept x) f opSessionMove d 0 s

/-- SESSION_MOVE accept. A descriptor with SUBOP 0 is the other row's (log entry 5). -/
def execSessionMoveAccept (d : Desc) (s : State) : Host.Outcome State Fault Refusal :=
  .next (if descByte d 32 = 0 then s else
    serve s (descriptorAs opSessionMove (bodyReserved d [(16, 22), (24, 29), (32, 33)] && descByte d 32 == 1 && decide (descByte d 33 < 2)) true
      (fun s => acceptSpecific d (s.stateOf d.session) (s.sessInfo d.session)) d (acceptBody d)))

/-- Whether every sheet of the giver's copy has come. -/
def State.pullWhole (s : State) (x : W64) (y : Sess) (m : Move) : Bool :=
  !s.asking (.pull x) && hasN m.pulled (y.record.imageRoot / 65536) && hasN m.pulled (y.record.paramSheet / 65536) &&
    m.pulled.all (fun p => (pullRefs s y m (p.1 * 65536) p.2).all (fun a => hasN m.pulled (a / 65536)))

/-- The index, on this device, of the giver's map index `k`. -/
def Move.own (m : Move) (base k : Nat) : Nat := getND m.pulled ((base + k * 65536) / 65536) 0xFFFFFFFF

/-- The 4 bytes at local offset `a` rewritten from the giver's map index to the own one. -/
def remap (m : Move) (base a : Nat) (s : State) : State := s.write a (leBytes 4 (m.own base (s.num a 4)))

/-- The pulled image with its map indices made its own, and its trie built (04 R113 step 5, 10 R269): the trie's sheets. -/
def rebuildImage (f : Nat) (y : Sess) (m : Move) (s : State) : Tried (List Nat × State) :=
  let root := getND m.pulled (y.record.imageRoot / 65536) 0
  let param := getND m.pulled (y.record.paramSheet / 65536) 0
  let p := s.sheetOffset f root
  let base := giverBase y.record (s.ptParam p)
  let lists := (List.range (s.ptLayers p * s.ptLists p)).filter (fun j => s.num (p + 64 + 8 * j) 4 != 0xFFFFFFFF)
  let s := lists.foldl (fun s j =>
    let a := s.sheetOffset f (m.own base (s.num (p + 64 + 8 * j) 4))
    let s := (List.range (s.num (p + 68 + 8 * j) 4)).foldl (fun s q => remap m base (a + 64 + 4 * q) s) s
    remap m base (p + 64 + 8 * j) s) s
  let s := remap m base (p + 12) (remap m base (p + 8) s)
  let ps := s.params (s.sheetOffset f param)
  let size := trieSize ps
  let bytes := if size.isSome then trieBytes ps else []
  andThen (newSheets f 0 (ceilDiv bytes.length 65536) s) fun t =>
    let dir := (List.range 4).flatMap (fun i => leBytes 4 (t.1.getD i 0xFFFFFFFF)) ++ leBytes 4 ((size.map (·.1)).getD 0) ++
      leBytes 4 ((size.map (·.2)).getD 0)
    let s := pokeSheet f param 65408 dir t.2
    .ok (t.1, (List.range t.1.length).foldl (fun s i => pokeSheet f (t.1.getD i 0) 0 ((bytes.drop (i * 65536)).take 65536) s) s)

/-- The first position without KV entries, as a session's pages show it. -/
def State.kvEnd (s : State) (f root : Nat) : Nat := (s.layerPages f root 0).foldl (fun n i => max n (s.maxPos f i + 1)) 0

/-- The stream ring, session ring and fence of a new owner. -/
def Sess.newOwner (d : Desc) (now epoch : Nat) (y : Sess) : Sess :=
  { y with isOwner := true, fenceEpoch := epoch, started := true, cachedHead := 0, overflow := none
           turnText := setN y.turnText y.record.turn y.record.textOffset
           record := { y.record with streamBase := descNum d 16 6, streamLog2 := descByte d 22, streamHead := descNum d 24 6
                                     sessionRing := d.ring, streamProducer := 0, lastActive := now } }

/-- The turn of a session as its parameter sheet holds its descriptor, to be completed by stand-in `d`. -/
def State.standIn (s : State) (op : Nat) (d : Desc) (y : Sess) (flags : W16) : Turn :=
  let a := y.record.paramSheet + 65472
  let more := s.num (a + 34) 1
  { opcode := op, desc := d, maxNew := s.num (a + 28) 4, toolMask := s.num (a + 32) 2, noGenerate := bitOf more 0 || bitOf more 2
    handoff := none, replaced := 0, flags := flags, place := 0, detEnd := y.record.textOffset, cancel := none }

/-- The carried turn begun at the receiver under its accept (04 R120, 05 R129). -/
def continueTurn (x : W64) (d : Desc) (s : State) : State :=
  match s.sess x with
  | none => s
  | some y =>
    let t := s.standIn opSessionMove d y 0
    let s := s.modSess x (fun y => { y with turn := some { t with detEnd := y.record.textOffset + y.record.text.hold.length }
                                            record := { y.record with turnCarried := false } })
    match admitTurn y.fold x y.record.latencyCritical d.tag opSessionMove s with
    | .ok s => sendSeat x s
    | .error e => failTurn x e.1 0 e.2

/-- The swap of step 6 has been answered (04 R113 steps 6 and 8). -/
def acceptSwapped (x : W64) (st : W16) (good : Bool) (s : State) : State :=
  match s.sess x with
  | none => s
  | some y =>
    match y.move with
    | none => s
    | some m =>
      if m.stage != 4 then s
      else if !good then pullFail x st s
      else match m.desc with
        | none => s
        | some d =>
          let s := if y.isHome then s else observeLease x ⟨s.selfNo, 2, m.epoch⟩ s
          let s := s.modSess x (fun y => { (Sess.newOwner d s.now m.epoch y) with move := none, kvNext := s.kvEnd y.fold y.record.imageRoot })
          let s := postOwnership x 1 (writeBack x s)
          if m.continueTurn then continueTurn x d s else complete opSessionMove d stOk 0 (s.sessInfo x) s

/-- MOVE_PULL_COMPLETE (04 R113 steps 5 and 6): the whole image is here; the lease is swapped to ACCEPTED. -/
def execMovePullComplete (x : W64) (s : State) : Host.Outcome State Fault Refusal :=
  .next (serve s fun s =>
    match s.sess x with
    | none => s
    | some y =>
      match y.move with
      | none => s
      | some m =>
        if m.stage != 3 || !s.pullWhole x y m then s else
        match rebuildImage y.fold y m s with
        | .error e => pullFail x e.1 e.2
        | .ok r =>
          let s := r.2
          let f := y.fold
          let s := s.modSess x (fun y => { y with
            move := some { m with stage := 4, pulled := r.1.foldl (fun p i => setN p (2 ^ 40 + i) i) m.pulled }
            record := { y.record with imageRoot := s.sheetOffset f (getND m.pulled (y.record.imageRoot / 65536) 0)
                                      paramSheet := s.sheetOffset f (getND m.pulled (y.record.paramSheet / 65536) 0)
                                      imageSheets := m.pulled.length + r.1.length } })
          let old : Lease := ⟨m.device, 1, m.epoch⟩
          let new : Lease := ⟨s.selfNo, 2, m.epoch⟩
          if y.isHome then
            let c := homeCas x old new s
            acceptSwapped x stStaleEpoch c.1 c.2
          else
            match askSwap x (.leaseAccept x) y old new s with
            | .ok s => s
            | .error e => pullFail x e.1 e.2)

end Sys2Proof.Machine
end

