-- ==== Sys2Proof/Machine/Rings.lean ====
section
/-! DEFINITION. Submission rings: doorbells, fetching, enable, disable and reset, FENCE; the poll of a full event queue; the Tally
counters (03 R65 to R73, R79, R91, 05 R143 to R147). -/
namespace Sys2Proof.Machine

/-! ### Tally (05 R143 to R146) -/

/-- The counter a ring selects. -/
def State.tallyOf (s : State) (r : Nat) : Nat := min 31 (s.ringClient r)

/-- The ladder state of a block, by its number in PWR_LADDER_SEL (19 R483): pens 0 to 63. -/
def State.level (s : State) (b : Nat) : Nat := (getND s.power.ladder b ⟨0, 0⟩).level

/-- Whether the owner's power state lets its rings count: not while every pen of the fold is at L3 or L4 (05 R146, 17 R440). -/
def State.tallyCounts (s : State) (owner : Nat) : Bool :=
  owner == mgmtPath || (s.fold owner).penList.isEmpty || (s.fold owner).penList.any (fun p => decide (s.level p < 3))

/-- `n` added to ring `r`'s counter, wrapping at 24 bits (05 R144, R145). -/
def tallyAdd (r n : Nat) (s : State) : State :=
  if n = 0 || !s.tallyCounts (s.ringOwner r) then s
  else { s with tally := setN s.tally (s.tallyOf r) (getND s.tally (s.tallyOf r) 0 + BitVec.ofNat 24 n) }

/-- The selected Tally counter, and the device with it cleared. -/
def readTally (s : State) : W64 × State :=
  let c := s.act rTallySel % 32
  (BitVec.ofNat 64 (getND s.tally c 0).toNat, { s with tally := delN s.tally c })

/-- TALLY_DATA_READ (05 R147): the management path reads the selected counter and clears it; any other requester reads zeros and
is counted (03 R62). -/
def execTallyDataRead (requester : Nat) (s : State) : Host.Outcome State Fault Refusal :=
  .next (serve s fun s =>
    if requester != mgmtPath then { s.count rLnkReqRejected 1 with readData := 0 }
    else { (readTally s).2 with readData := (readTally s).1 })

/-! ### Doorbells (03 R62, R66 to R68) -/

/-- A doorbell ignored and counted. -/
def rejectDoorbell (r : Nat) (s : State) : State := s.count (rRingDbRejected r) 1

/-- A doorbell value on a RUNNING ring: valid, the device acts on it; invalid, the ring stops with one COMPLETION of OPCODE 0x00
and TAG 0xFFFF. -/
def ringBell (r : Nat) (t : W32) (s : State) : State :=
  let x := s.ring r
  let n := 2 ^ s.ringLog2 r
  if (t - x.lastT).toNat ≤ n && (t - x.head).toNat ≤ n then s.modRing r (fun y => { y with lastT := t })
  else
    postCompletion 0 { ring := r, flags := 0, tag := 0xFFFF, epoch := 0, session := 0, body := [] } stBadDescriptor 0 []
      (s.modRing r (fun y => { y with state := 2 }))

/-- SQ_TAIL_DOORBELL: a write of `size` bytes at page offset `offset` of ring `ring`'s doorbell page. -/
def execSqTailDoorbell (ring requester offset size : Nat) (value : W32) (s : State) : Host.Outcome State Fault Refusal :=
  .next (serve s fun s =>
    let s := if 64 ≤ requester && requester != mgmtPath then s.count rLnkReqRejected 1 else s
    if 4096 ≤ ring || offset != 0 || size != 4 then s
    else if requester != s.ringOwner ring then rejectDoorbell ring s
    else if (s.ring ring).state != 1 || (s.ring ring).closing then rejectDoorbell ring s
    else ringBell ring value s)

/-! ### Fetching (03 R67, R70, R79, R91) -/

/-- A 64-byte ring entry as its opcode and descriptor (03 Table 3-4). -/
def parseDesc (r : Nat) (l : List Byte) : Nat × Desc :=
  (leAt l 0 1,
   { ring := r, flags := BitVec.ofNat 8 (leAt l 1 1), tag := BitVec.ofNat 16 (leAt l 2 2), epoch := BitVec.ofNat 32 (leAt l 4 4),
     session := BitVec.ofNat 64 (leAt l 8 8), body := sliceB l 16 48 })

/-- Descriptors of the queue's rings fetched and not yet completed. -/
def State.outstandingOn (s : State) (q : Nat) : Nat :=
  sumOn (fun p : Nat × Ring => if s.ringQueue p.1 == q then p.2.fetched.length + p.2.inflight.length + b2n p.2.fence.isSome else 0)
    s.rings

/-- Entries up to and with the first FENCE: nothing later is fetched before it completes. -/
def uptoFence : List (Nat × Desc) → List (Nat × Desc)
  | [] => []
  | e :: t => if e.1 = opFence then [e] else e :: uptoFence t

/-- Whether ring `r` may fetch: running, not closing, no FENCE fetched or waiting, its queue's backlog empty. -/
def State.mayFetch (s : State) (r : Nat) : Bool :=
  let x := s.ring r
  r < 4096 && x.state == 1 && !x.closing && x.fence.isNone && !x.fetched.any (fun e => e.1 == opFence) &&
    !x.inflight.any (fun e => e.1 == opFence) && (s.eq (s.ringQueue r)).backlog.isEmpty

/-- How many contiguous descriptors one read takes: at most 8, not across the ring's end, not past T, and none while 4,096 of the
queue's rings are outstanding. -/
def State.fetchCount (s : State) (r : Nat) : Nat :=
  let x := s.ring r
  let n := 2 ^ s.ringLog2 r
  min (min 8 (x.lastT - x.head).toNat) (min (n - x.head.toNat % n) (4096 - s.outstandingOn (s.ringQueue r)))

/-- The fetched entries taken in: the head and its write-back, Tally, and the COMPLETION of every opcode outside Table 3-5. -/
def takeEntries (r : Nat) (es : List (Nat × Desc)) (s : State) : State :=
  let x := s.ring r
  let head := x.head + BitVec.ofNat 32 es.length
  let s := s.modRing r (fun y => { y with head := head, fetched := y.fetched ++ es.filter (fun e => isOpcode e.1) })
  let s := s.hostWrite (s.ringOwner r) (s.act (rRingHeadWb r)) (leBytes 4 head.toNat)
  let s := tallyAdd r (es.filter (fun e => e.1 == opTurnSubmit)).length s
  (es.filter (fun e => !isOpcode e.1)).foldl (fun s e => postCompletion e.1 e.2 stBadDescriptor 0 [] s) s

/-- DESCRIPTOR_FETCH of ring `r`. -/
def execDescriptorFetch (r : Nat) (s : State) : Host.Outcome State Fault Refusal :=
  .next (serve s fun s =>
    if !s.mayFetch r || s.fetchCount r = 0 then s else
    let at_ := s.act (rRingSqBase r) + (s.ring r).head.toNat % 2 ^ s.ringLog2 r * 64
    match s.hostRead (s.ringOwner r) at_ (s.fetchCount r * 64) with
    | .error _ => s
    | .ok l => takeEntries r (uptoFence ((List.range (s.fetchCount r)).map (fun i => parseDesc r (sliceB l (i * 64) 64)))) s)

/-! ### FENCE (03 R91 rule 3) -/

/-- FENCE: it waits until every earlier descriptor of its ring has completed. -/
def execFence (d : Desc) (s : State) : Host.Outcome State Fault Refusal :=
  .next (serve s (descriptor opFence (bodyReserved d []) false d fun s =>
    .ok (settleFence d.ring (s.modRing d.ring (fun x => { x with inflight := dropFirst (opFence, d) x.inflight, fence := some d })))))

/-! ### Ring states (03 R68, 19 R480) -/

/-- RING_CTRL's command acted on: it reads 0 in both copies. -/
def ctrlDone (r : Nat) (s : State) : State :=
  { s with regs := { s.regs with shadow := delN s.regs.shadow (rRingCtrl r) } }.setAct (rRingCtrl r) 0

/-- RING_ENABLE: DISABLED to RUNNING, head and last T set to RING_SQ_HEAD. -/
def execRingEnable (r : Nat) (s : State) : Host.Outcome State Fault Refusal :=
  .next (serve s fun s => onlyIf (s.act (rRingCtrl r) == 1) s
    (let h := BitVec.ofNat 32 (s.act (rRingSqHead r))
     ctrlDone r (if (s.ring r).state = 0 then s.modRing r (fun x => { x with state := 1, closing := false, head := h, lastT := h }) else s)))

/-- RING_DISABLE: no further fetch; DISABLED once the last fetched descriptor completes. -/
def execRingDisable (r : Nat) (s : State) : Host.Outcome State Fault Refusal :=
  .next (serve s fun s => onlyIf (s.act (rRingCtrl r) == 2) s
    (ctrlDone r (if (s.ring r).state = 1 then settleRing r (s.modRing r (fun x => { x with closing := true })) else s)))

/-- RING_RESET: a STOPPED ring returns to DISABLED once its fetched descriptors have run. -/
def execRingReset (r : Nat) (s : State) : Host.Outcome State Fault Refusal :=
  .next (serve s fun s => onlyIf (s.act (rRingCtrl r) == 3) s
    (ctrlDone r (if (s.ring r).state = 2 then settleRing r (s.modRing r (fun x => { x with closing := true })) else s)))

/-! ### Full event queues (03 R73, R79) -/

/-- EQ_HEAD_POLL: the head word re-read while the cached copy shows the queue full, and the backlog written as space returns. -/
def execEqHeadPoll (q : Nat) (s : State) : Host.Outcome State Fault Refusal :=
  .next (serve s fun s => onlyIf (s.eqOn q && s.eqFull q && pollDue (s.eq q).headAt s.now) s
    (match s.hostRead (s.eqOwner q) (s.act (rRingEqHeadAddr q)) 4 with
      | .error _ => s
      | .ok l =>
        let s := s.setEq q { s.eq q with cachedHead := BitVec.ofNat 32 (ofLe l), headAt := some s.now }
        flushBacklog q (s.eq q).backlog.length s))

end Sys2Proof.Machine
end

