-- ==== Sys2Proof/Machine/Dry.lean ====
section
/-! DEFINITION. What the commit record makes of one sequence (09 R248, 04 R98 to R100, 10 R272, R276 to R280): KV entries made dry, tokens
written, counted and released, the turn's end, the adaptive draft length. -/
namespace Sys2Proof.Machine

/-! ### Ending a turn at the commit point (04 Table 4-4, 10 R278, R279) -/

/-- Status of a turn that ends by END_REASON 0 to 6. -/
def endStatus (reason : Nat) : W16 :=
  if reason ≤ 2 then stStopped else if reason ≤ 4 then stLength else stNoCandidate

/-- Text released for session `x` on pen `n`, and the turn's end if it has come: TEXT_OFFSET, the packet, STATE, the COMPLETION once the END
chunk is out. A TURN_CANCEL that had waited finds nothing to cancel. -/
def releaseText (x : W64) (n : Nat) (text : List Byte) (bad : List Bool) (e : Option TurnEnd) (s : State) : State :=
  match s.sess x with
  | none => s
  | some y =>
    let o := y.record.textOffset
    let t := y.record.turn
    let s := s.modRec x (fun r => { r with textOffset := r.textOffset + text.length })
    let s := if text.isEmpty then s else writeHome x (.record x) 80 8 s
    match e with
    | none =>
      if text.isEmpty then s else
      pushPacket n { session := x, turn := t, words := streamWords text bad, bytes := text.length, offset := o, endOfTurn := false
                     dropped := false } s
    | some e =>
      let st := if e.reason = 2 then stateWaiting else stateOpen
      let late := (y.turn.bind (·.cancel))
      let s := recordEnd x e st (if e.reason = 2 then some e.stopIndex else none) none (leaveTable y.fold x s)
      let s := deliverEnd x t (some n) text bad o s
      match late with
      | some d => complete opTurnCancel d stOk 0 (cancelSpecific 0) s
      | none => s

/-- The dry tokens of a step counted for their class, and the release. -/
def releaseStep (x : W64) (n tokens : Nat) (text : List Byte) (bad : List Bool) (e : Option TurnEnd) (s : State) : State :=
  match s.sess x with
  | none => s
  | some y =>
    releaseText x n text bad e (modClass y.fold y.record.latencyCritical (fun c => { c with tokens := c.tokens + BitVec.ofNat 64 tokens }) s)

/-- An owner's session ends with reason 1 and `st`, its turn, if one is in progress, completing first with `st` and `flags` (03 R75). -/
def loseSession (x : W64) (st flags : W16) (s : State) : State :=
  match s.sess x with
  | none => s
  | some y =>
    let s := s.modSess x (fun y => { y with closing := some ⟨1, st, y.closing.bind (·.desc)⟩, txWait := none })
    if y.turn.isSome then failTurn x st flags s else settleClosing x s

/-- The home is lost (04 R123): the turn completes with ST_PEER_LOST, and the session ends with reason 1. -/
def homeLost (x : W64) (s : State) : State := loseSession x stPeerLost 0 s

/-- A transcript write of `tokens` tokens refused or lost (04 R100): they count in no TOKENS field; with ST_PEER_LOST the session ends, else the turn,
and the home is read again (04 R112). -/
def refuseTokens (x : W64) (tokens : Nat) (st : W16) (s : State) : State :=
  let s := s.modRec x (fun r => { r with turnGen := r.turnGen - tokens })
  if st == stPeerLost then homeLost x s
  else
    let s := failTurn x st 0 s
    if st == stStaleEpoch || st == stNotOwner then rereadHome x s else s

/-- The home's answer to a transcript write (04 R100). -/
def transcriptAcked (x : W64) (st : W16) (s : State) : State :=
  match s.sess x with
  | none => s
  | some y =>
    match y.txWait with
    | none => s
    | some w =>
      let s := s.modSess x (fun y => { y with txWait := none })
      if st == stOk then releaseStep x w.pen w.tokens w.text w.bad w.ending s
      else
        refuseTokens x w.tokens st s

/-- TRANSCRIPT_WRITE_ACK (04 R100): the home has answered the commit's write. -/
def execTranscriptWriteAck (x : W64) (st : W16) (s : State) : Host.Outcome State Fault Refusal :=
  .next (serve s (transcriptAcked x st))

/-! ### The dry tokens (09 R248 steps 3 to 5) -/

/-- What the tokens of a step come to: matching state, end of the determined text, text released and which of its bytes come from poisoned ones,
whether bytes held back do, transcript entries, tokens that count, the
stop with the bytes discarded after it. -/
structure DryRun where
  text : TextState
  det : Nat
  out : List Byte
  bad : List Bool
  held : Bool
  words : List W64
  tokens : List Nat
  stop : Option (Nat × Nat)

/-- One dry token. A replayed one has its transcript entry already (04 R117); under TRIM a token cut by a stop is rolled back (10 R278). -/
def dryToken (s : State) (y : Sess) (g : DryRun) (t : DryToken) : DryRun :=
  let p := s.params y.record.paramSheet
  let replayed := g.text.forceSrc == 2
  let o := detok p (tokenText s y.fold p t.token) (afterToken s y g.text t.token)
  let det := ((g.det : Int) + o.added).toNat
  let rolled := p.trim && o.stop.any (fun k => k.2 != 0)
  let bad := g.held || tokPoisoned s (s.tokBase y.fold) t.token
  { text := o.state, det := det, out := g.out ++ o.released, bad := g.bad ++ List.replicate o.released.length bad
    held := bad && !(o.state.hold.isEmpty && o.state.scarry.isEmpty)
    words := if replayed || rolled then g.words else g.words ++ [txWord t.token (2 + b2n t.forced) false det]
    tokens := if rolled then g.tokens else g.tokens ++ [t.token], stop := o.stop }

/-- Tokens added to the count table of session `x` (10 R272); one that finds no entry is counted as such and noted for the COMPLETION. -/
def countTokens (x : W64) (f a : Nat) : List Nat → State → State
  | [], s => s
  | t :: l, s =>
    let used := (s.sess x).elim 0 (·.record.text.countUsed)
    match countAdd a used t s with
    | some r => countTokens x f a l (r.1.modRec x (fun r' => { r' with text := { r'.text with countUsed := r.2 } }))
    | none =>
      countTokens x f a l ((s.count (rTokUncounted f) 1).modSess x (fun y =>
        { y with turn := y.turn.map (fun t => { t with flags := t.flags ||| flCountTableFull })
                 record := { y.record with text := { y.record.text with uncountedTurn := true } } }))

/-! ### The adaptive draft length (09 R251, R252) -/

/-- LEN and the probing state after a step of k proposals with a accepted, with the counter it raises: 1 BELL_FLOOR_ENTRIES, 2 BELL_PROBES. -/
def adapt (lmax k a : Nat) (x : DraftState) : DraftState × Nat :=
  if x.probing then
    if x.probeWait < 63 then ({ x with probeWait := x.probeWait + 1 }, 0)
    else if k = 0 then (x, 0)
    else if a = 0 then ({ x with probeWait := 0 }, 2)
    else ({ x with probing := false, len := min lmax 2, rejectRun := 0 }, 2)
  else if k = 0 then (x, 0)
  else if a = k then ({ x with len := min lmax (x.len + 1), rejectRun := 0 }, 0)
  else if 0 < a then ({ x with len := a + 1, rejectRun := 0 }, 0)
  else if x.rejectRun < 7 then ({ x with rejectRun := x.rejectRun + 1, len := 1 }, 0)
  else ({ x with len := 0, rejectRun := 8, probing := true, probeWait := 0 }, 1)

/-- Step 6 of 09 R248 and the BELL counters; forced steps and steps in which the turn ends leave the adaptive state (09 R251). -/
def draftCommit (f : Nat) (x : W64) (i : WorkItem) (v : SeqVerdict) (forced : Bool) (s : State) : State :=
  let s := s.modRec x (fun r => { r with draft := { r.draft with draftPos := i.first + v.a + 1 } })
  let s := if i.limit = 0 && (s.sess x).any (fun y => !s.droveHeld f y) && s.draftSource f != 0 then s.count (rBellNoSheet f) 1 else s
  let s := if v.k = 0 || forced then s else
    (((s.count (rBellProposed f) v.k).count (rBellAccepted f) v.a).count (rBellDraftSteps f) 1).modRec x (fun r => { r with draft :=
      { r.draft with proposed := r.draft.proposed + BitVec.ofNat 64 v.k, accepted := r.draft.accepted + BitVec.ofNat 64 v.a } })
  if forced || v.ending.isSome then s else
    match s.sess x with
    | none => s
    | some y =>
      let d := y.record.draft
      let r := adapt (s.lmax f) v.k v.a { d with len := min d.len (s.lmax f) }
      let s := s.modRec x (fun q => { q with draft := r.1 })
      if r.2 = 1 then s.count (rBellFloorEntries f) 1 else if r.2 = 2 then s.count (rBellProbes f) 1 else s

/-! ### One item of the record -/

/-- Steps 1 and 2 (08 R215, R216): the accepted entries copied out of the wet sheets, VALID set, the wet entries discarded. -/
def dryEntries (f : Nat) (img : Image) (y : Sess) (i : WorkItem) (a : Nat) (s : State) : Tried State :=
  let ps := (List.range a).map (fun j => i.first + 1 + j)
  let main := s.mainLayers f
  andThen ((List.range a).foldl (fun t j => andThen t (copyWet f img y (i.first + 1 + j) j false)) (.ok s)) (fun s =>
    let s := validate f y.record.imageRoot (fun l => decide (l < main)) (i.first :: ps) s
    let d := y.record.draft.draftPos
    let s := if s.draftSource f = 1 then
        validate f y.record.imageRoot (fun l => decide (main ≤ l)) ((List.range (i.first + 1 - d)).map (d + ·) ++ ps) s
      else s
    .ok (clearWet f y s))

/-- The turn's end as the judgement says it, and the text it releases beyond `out`. -/
def turnEndOf (f : Nat) (v : SeqVerdict) (g : DryRun) (s : State) : Option TurnEnd × List Byte × State :=
  match v.ending with
  | none => (none, [], s)
  | some r =>
    match g.stop with
    | some k =>
      if r = 1 || r = 2 then
        (some ⟨stStopped, r, v.stopIndex, k.2, if k.2 = 0 then 0 else flStopMidtoken⟩, [],
          if k.2 = 0 then s else s.count (rTokStopMidtoken f) 1)
      else (some ⟨endStatus r, r, 0, 0, 0⟩, (finishText g.text).2, s)
    | none => (some ⟨endStatus r, r, 0, 0, 0⟩, (finishText g.text).2, s)

/-- The tokens of a step at a member that holds a share: kept beside the transcript of a home elsewhere, nothing released (09 R248). -/
def shareTokens (f : Nat) (x : W64) (ws : List W64) (ends : Bool) (s : State) : State :=
  let s := s.modSess x (fun y => if y.isHome then y else
    { y with record := y.record.txGrow ws.length
             txCache := (List.range ws.length).foldl (fun m i => setN m (y.record.txHead + i) (ws.getD i 0)) y.txCache })
  if ends then endShare f x s else s

/-- A generation entry's verdict applied (09 R248 steps 1 to 6); a member that holds a share of the session applies steps 1, 2, 4 and 6. -/
def applyTokens (f : Nat) (img : Image) (e : SeqEntry) (i : WorkItem) (v : SeqVerdict) (s₀ : State) : State :=
  let x := e.session
  match s₀.sess x with
  | none => s₀
  | some y =>
    match dryEntries f img y i v.a s₀ with
    | .error er => failTurn x stQuota 0 (clearWet f y er.2)
    | .ok s =>
      let forced := y.record.text.forceSrc != 0
      let det := (y.turn.map (·.detEnd)).getD y.record.textOffset
      let g := v.dry.foldl (dryToken s y) ⟨y.record.text, det, [], [], y.heldPoison, [], [], none⟩
      let n := g.tokens.length
      let r := turnEndOf f v g s
      let start := det - y.record.text.hold.length
      let text := (g.out ++ r.2.1).drop (y.record.textOffset - start)
      let bad := (g.bad ++ List.replicate r.2.1.length g.held).drop (y.record.textOffset - start)
      let s := countTokens x f (s.sheetOffset f (s.ptCount y.record.imageRoot)) g.tokens (if y.isOwner then r.2.2 else s)
      let s := s.modSess x (fun y => { y with
        kvNext := i.first + v.a + 1, heldPoison := g.held && r.1.isNone
        turn := y.turn.map (fun t => { t with detEnd := g.det })
        record := { y.record with
          turnGen := y.record.turnGen + n, context := y.record.context + n
          text := { g.text with countUsed := y.record.text.countUsed, uncountedTurn := y.record.text.uncountedTurn } } })
      let s := draftCommit f x i v forced s
      if y.share && !y.isOwner then shareTokens f x g.words r.1.isSome s else
      match appendTx x (.append x) g.words s with
      | .error er => refuseTokens x n er.1 er.2
      | .ok s =>
        if y.isHome || g.words.isEmpty then releaseStep x e.pen n text bad r.1 s
        else
          let s := if r.1.isSome then leaveTable f x s else s
          s.modSess x (fun y => { y with txWait := some ⟨text, bad, r.1, n, e.pen⟩ })

/-- Whether turn `t` leaves its fold at the end of its prefill: a rebuild, no generation, a handoff, no room for a token. -/
def State.prefillOnly (s : State) (f : Nat) (y : Sess) (t : Turn) : Bool :=
  t.rebuild || t.noGenerate || ((s.fold f).role == 1 && t.handoff.isSome) || decide (s.act (rInkCtxMax f) ≤ y.record.context)

/-- The end of a turn's prefill (04 R119, 05 Table 5-2, 10 R265). -/
def endPrefill (f : Nat) (e : SeqEntry) (dseq : Nat) (s : State) : State :=
  let x := e.session
  match s.sess x with
  | none => s
  | some y =>
    match y.turn with
    | none => s
    | some t =>
      let n := y.record.turn
      if y.share && !y.isOwner && s.prefillOnly f y t then endShare f x s
      else if t.rebuild then endRebuild x stOk (leaveTable f x s)
      else if t.noGenerate then
        let s := leaveTable f x s
        finishTurn x n (recordEnd x ⟨stOk, 0xFF, 0, 0, 0⟩ (if t.opcode = opToolResult then stateWaiting else stateOpen) none t.cancel s)
      else if (s.fold f).role = 1 && t.handoff.isSome then
        let h := t.handoff.getD (0, 0)
        if epochTop ≤ y.record.lease.epoch then failTurn x stLength 0 s
        else startOffer x h.1 h.2 none (leaveTable f x (s.modRec x (fun r => { r with turnCarried := true })))
      else if s.act (rInkCtxMax f) ≤ y.record.context then releaseText x e.pen [] [] (some ⟨stLength, 4, 0, 0, 0⟩) s
      else s.modFold f (fun z => { z with seqs := modN z.seqs dseq (fun e => { e with phase := 2 }) })

/-- A prefill chunk committed. -/
def applyChunk (f : Nat) (e : SeqEntry) (i : WorkItem) (s : State) : State :=
  let x := e.session
  match s.sess x with
  | none => s
  | some y =>
    let main := s.mainLayers f
    let d := y.record.draft.draftPos
    let s := validate f y.record.imageRoot (fun l => decide (l < main)) ((List.range i.chunk).map (i.first + ·)) s
    let s := if s.draftSource f = 1 then
        (validate f y.record.imageRoot (fun l => decide (main ≤ l)) ((List.range (i.first - d)).map (d + ·)) s).modRec x
          (fun r => { r with draft := { r.draft with draftPos := max d i.first } })
      else s
    let s := s.modSess x (fun y => { y with kvNext := max y.kvNext (i.first + i.chunk) })
    let s := s.modFold f (fun z => { z with seqs := modN z.seqs i.dseq (fun e => { e with prefillNext := i.first + i.chunk, phase := 1 }) })
    let s := if y.isOwner then modClass f e.lc (fun c => { c with prefillTokens := c.prefillTokens + BitVec.ofNat 64 i.chunk }) s else s
    if y.prefillEnd ≤ i.first + i.chunk then endPrefill f e i.dseq s else s

/-- One item of the list under its verdict, if it has one. -/
def applyItem (f : Nat) (img : Image) (vs : List SeqVerdict) (i : WorkItem) (s : State) : State :=
  match getN (s.fold f).seqs i.dseq with
  | none => s
  | some e =>
    let s := s.modFold f (fun z => { z with seqs := modN z.seqs i.dseq (fun e => { e with lastStep := z.stepNo % 2 ^ 32 }) })
    let s := modClass f e.lc (fun c => { c with steps := c.steps + 1 }) s
    let quota := s.quotaHit f i.dseq || s.prefetchRefused f i
    if e.phase = 4 || e.phase = 3 || e.heldLayer.isSome then s
    else match vs.find? (fun v => v.dseq == i.dseq) with
      | none => s
      | some v =>
        if v.poisoned then failTurn e.session stPoison flPoisoned s
        else if quota || v.ending = some 8 then failTurn e.session stQuota 0 s
        else if i.chunk != 0 then applyChunk f e i s
        else applyTokens f img e i v s

end Sys2Proof.Machine
end

