-- ==== Sys2Proof/Machine/Sec.lean ====
section
/-! DEFINITION. SEC (15): derived keys, random values, attestation, the key store, key rotation and its sweep, scan unlock. -/
namespace Sys2Proof.Machine

/-! ### Random values (15 R411) -/

/-- A random value as `n` bytes from the DRBG: a free value (log entry 3); none while ENTROPY_FAIL is set or no DRBG runs. -/
def drbg (n : Nat) (s : State) : Option (List Byte × State) :=
  if s.sec.entropyFail || !s.sec.drbgOk then none
  else
    let r := s.draw
    some (leBytes n r.1, { r.2 with sec := { r.2.sec with requests := r.2.sec.requests + 1 } })

/-- DRBG_RESEED (15 R411): due after 65,536 requests or 1,000 ms. -/
def execDrbgReseed (s : State) : Host.Outcome State Fault Refusal :=
  .next (serve s fun s =>
    onlyIf (s.sec.drbgOk && !s.sec.entropyFail && (decide (65536 ≤ s.sec.requests) || decide (s.sec.lastReseed + 1000000 ≤ s.now))) s
      ({ s with sec := { s.sec with requests := 0, lastReseed := s.now } }.count rSecDrbgReseeds 1))

/-- ENTROPY_HEALTH_FAIL (15 R411): the DRBG stops, ENTROPY_FAIL is set, one ERROR_UNCORRECTED. -/
def execEntropyHealthFail (s : State) : Host.Outcome State Fault Refusal :=
  .next (serve s fun s =>
    if s.sec.entropyFail then s
    else errorUncorrected none 8 0 0 0xFFFFFFFF 0 { s with sec := { s.sec with entropyFail := true, drbgOk := false } })

/-! ### Derived keys (15 R391, R392, R395) -/

/-- The order of brainpoolP384r1 (RFC 5639, which 15 R391 names). PRESUMED: the source does not print it (log entry 51). -/
def curveOrder : Nat := 0x8CB91E82A3386D280F5D6F7E50E641DF152F7109ED5456B31F166E6CAC0425A7CF3AB6AF6B7FC3103B883202E9046565

/-- A private scalar from 64 bytes of key material. -/
def scalarOf (l : List Byte) : List Byte := beBytes 48 (ofBe l % (curveOrder - 1) + 1)

/-- The identity key, and the attestation key for a measurement. -/
def identityKey (seed : List Byte) : List Byte := scalarOf (Config.hkdf seed (zerosB 48) (ascii "SK9-IDK") 64)
def attestationKey (seed m : List Byte) : List Byte := scalarOf (Config.hkdf seed (zerosB 48) (ascii "SK9-AK" ++ m) 64)

/-- IDK_HASH. -/
def idkHash (seed : List Byte) : List Byte := Config.sha384 (Config.ecPublic (identityKey seed))

/-- The own IDK_HASH and AK, while SEC holds them. -/
def State.idkHash (s : State) : List Byte := (s.sec.seed.map Machine.idkHash).getD (zerosB 48)
def State.ak (s : State) : Option (List Byte) := if s.sec.ak then s.sec.seed.map (fun d => attestationKey d s.sec.measurement) else none

/-- A signature by AK; none while no random value or no AK is at hand. -/
def signAk (msg : List Byte) (s : State) : Option (List Byte × State) :=
  match s.ak, drbg 48 s with
  | some k, some r => some (padTo 96 (Config.ecdsaSign k msg (ofLe r.1)), r.2)
  | _, _ => none

/-- The boot measurement of the stages' digests (15 R395). -/
def measure (l : List StageLoad) : List Byte := l.foldl (fun m x => Config.sha384 (m ++ x.digest)) (zerosB 48)

/-- The alias certificate (15 Table 15-2), signed with random value `r`. -/
def aliasOf (seed m : List Byte) (r : Nat) : List Byte :=
  let body := [0x53, 0x4B, 0x39, 0x41, 0x4C, 0x49, 0x41, 0x01] ++ leBytes 2 1 ++ leBytes 2 336 ++ zerosB 4 ++ padTo 48 m ++
    padTo 97 (Config.ecPublic (attestationKey seed m)) ++ zerosB 15 ++ padTo 48 (idkHash seed) ++ zerosB 16
  body ++ padTo 96 (Config.ecdsaSign (identityKey seed) body r)

/-! ### Evidence (15 R397, R398) -/

/-- Fabric protocol revisions: the device's, and the oldest it accepts (13 R333, FAB_REV). -/
def fabRev : Nat := 3
def fabMinRev : Nat := 2

/-- Flash channels with a fenced chip enable. -/
def Boot.fencedChannels (b : Boot) : Nat :=
  ((List.range 16).map (fun c => b2n (bitOf b.fenceFlash c || (b.chipEnablesFenced.getD c 0) != 0) * 2 ^ c)).foldl (· + ·) 0

/-- Analogue checks that have failed, of orders 1 to 4 and 7 to 9 (log entry 53). -/
def Boot.analogueFailed (b : Boot) : Nat := popc 9 (b.checksFailed - b.checksFailed / 16 % 4 * 16)


/-- Version of stage `k`. -/
def State.stageVersion (s : State) (k : Nat) : Nat := (s.sec.stages[k]?).elim 0 (·.version)

/-- VERSIONS: SYS firmware, SEC firmware, boot loader, boot ROM, media profile, factory record, revisions and formats. -/
def versionsRecord (s : State) : List Byte :=
  padTo 32 (leBytes 4 (s.stageVersion 4) ++ leBytes 4 (s.stageVersion 3) ++ leBytes 4 (s.stageVersion 2) ++ leBytes 4 (s.stageVersion 0) ++
    leBytes 4 (s.stageVersion 5) ++ leBytes 2 (s.boot.factory.elim 0 (·.version)) ++ [0, 0] ++ leBytes 1 fabRev ++ [0] ++
    leBytes 1 s.boot.firmware.fmtMin ++ leBytes 1 s.boot.firmware.fmtMax)

/-- BIST. -/
def bistRecord (s : State) : List Byte :=
  padTo 64 (leBytes 8 s.boot.fencePens.toNat ++ leBytes 4 s.boot.fencePorts ++ leBytes 1 s.boot.fenceStacks ++ [0] ++ leBytes 2 s.boot.fencedChannels ++
    leBytes 1 s.boot.lbist ++ leBytes 1 (s.boot.analogueFailed) ++ [0, 0] ++ leBytes 4 s.boot.durationUs ++ leBytes 1 (b2n s.boot.evidenceWarm))

/-- A STAGE entry. -/
def stageEntry (k : Nat) (x : StageLoad) : List Byte :=
  padTo 64 (leBytes 1 k ++ leBytes 1 (x.copy.getD 0) ++ [0, 0] ++ leBytes 4 x.svn ++ leBytes 4 x.version ++ zerosB 4 ++ padTo 48 x.digest)

/-- A FOLD entry. -/
def foldEntry (s : State) (p : Nat × Fold) : List Byte :=
  let x := p.2
  padTo 32 (leBytes 1 p.1 ++ leBytes 1 (b2n (s.drove p.1).isSome + 2 * b2n x.active.isSome + 4 * b2n (x.key.state != 0) +
      8 * b2n (x.key.state == 2) + 16 * (x.key.g.toNat % 2)) ++ leBytes 2 x.ns.mask ++ leBytes 4 ((s.drove p.1).getD 0) ++ leBytes 8 x.pens.toNat ++
    leBytes 8 x.ways.toNat ++ leBytes 4 (s.memberIndex p.1) ++ leBytes 1 (x.active.getD 0))

/-- The folds that exist. -/
def State.liveFolds (s : State) : NMap Fold := s.folds.filter (fun p => p.2.status != 0)

/-- Length of evidence. -/
def State.evidenceLen (s : State) : Nat := 416 + 64 * s.sec.stages.length + 32 * s.liveFolds.length + 96

/-- The evidence up to its signature, for fold `f` with its nonce and, with EPHEMERAL, its public key. -/
def evidenceBody (s : State) (f : Nat) (nonce : List Byte) (eph : Option (List Byte)) : List Byte :=
  let akHash := Config.sha384 ((s.ak.map Config.ecPublic).getD [])
  [0x53, 0x4B, 0x39, 0x45, 0x56, 0x49, 0x44, 0x01] ++ leBytes 2 1 ++ leBytes 2 64 ++ leBytes 4 s.evidenceLen ++
    leBytes 4 (s.act rFabSelf) ++ leBytes 1 f ++ leBytes 1 s.sec.stages.length ++ leBytes 1 s.liveFolds.length ++ leBytes 1 (b2n eph.isSome) ++
    leBytes 8 s.now ++ zerosB 32 ++ padTo 48 nonce ++ padTo 48 s.idkHash ++ padTo 48 akHash ++ padTo 97 (eph.getD []) ++ zerosB 15 ++
    versionsRecord s ++ bistRecord s ++ (List.range s.sec.stages.length).flatMap (fun k => (s.sec.stages[k]?).elim [] (stageEntry k)) ++
    s.liveFolds.flatMap (foldEntry s)

/-! ### ATTEST (15 R396, R399) -/

/-- The output of an ATTEST written and completed. -/
def attestOut (d : Desc) (f : Nat) (l : List Byte) (s : State) : Tried State :=
  match s.hostPhys f (descNum d 24 6) l.length 0 with
  | .error e => .error (e, s)
  | .ok _ => .ok (complete opAttest d stOk 0 (leBytes 4 l.length ++ zerosB 7) (s.hostWrite f (descNum d 24 6) l))

/-- Evidence for fold `f`; with `fresh` a new ephemeral key is drawn first. -/
def attestBody (d : Desc) (fresh : Bool) (s : State) : Tried State :=
  let f := s.descFold d
  if descNum d 36 4 < s.evidenceLen then .error (stLength, s)
  else if s.sec.tainted then .error (stAuthFail, s)
  else
    match s.hostRead f (descNum d 16 6) 48, s.hostPhys f (descNum d 24 6) s.evidenceLen 0 with
    | .error e, _ => .error (e, s)
    | _, .error e => .error (e, s)
    | .ok nonce, .ok _ =>
      match (if fresh then (drbg 64 s).map (fun r => (some (scalarOf r.1), r.2)) else some (none, s)) with
      | none => .error (stInternal, s)
      | some (key, s₁) =>
        let pub := key.map Config.ecPublic
        let body := evidenceBody s₁ f nonce pub
        match signAk body s₁ with
        | none => .error (stInternal, s)
        | some (sig, s) =>
          let s := match key with
            | some k => s.modKey f (fun x => { x with ephemeral := some { secret := k, pub := Config.ecPublic k, nonce := nonce, created := s.now } })
            | none => s
          attestOut d f (body ++ sig) s

/-- The flags byte and the reserved bytes of ATTEST. -/
def attestReserved (d : Desc) : Bool := bodyReserved d [(16, 21), (24, 29), (32, 32), (36, 39)] && decide (descByte d 32 < 4)

/-- ATTEST without flags (15 R397). A descriptor with EPHEMERAL or CHAIN alone is another row's (log entry 5). -/
def execAttest (d : Desc) (s : State) : Host.Outcome State Fault Refusal :=
  .next (if descByte d 32 = 1 || descByte d 32 = 2 then s else
    serve s (descriptor opAttest (attestReserved d) false d fun s =>
      if descByte d 32 = 3 then .error (stBadDescriptor, s) else attestBody d false s))

/-- ATTEST with EPHEMERAL (15 R399). -/
def execAttestEphemeral (d : Desc) (s : State) : Host.Outcome State Fault Refusal :=
  .next (if descByte d 32 = 0 || descByte d 32 = 2 then s else
    serve s (descriptor opAttest (attestReserved d) false d fun s =>
      if descByte d 32 = 3 then .error (stBadDescriptor, s) else attestBody d true s))

/-- ATTEST with CHAIN (15 R396): the factory chain and the alias certificate. -/
def execAttestChain (d : Desc) (s : State) : Host.Outcome State Fault Refusal :=
  .next (if descByte d 32 < 2 then s else
    serve s (descriptor opAttest (attestReserved d) false d fun s =>
      let f := s.descFold d
      let l := leBytes 4 (s.sec.chain.length + 1) ++ (s.sec.chain ++ [s.sec.aliasCert]).flatMap (fun c => leBytes 4 c.length ++ c)
      if descByte d 32 = 3 then .error (stBadDescriptor, s)
      else if descNum d 36 4 < l.length then .error (stLength, s)
      else if s.sec.tainted then .error (stAuthFail, s)
      else attestOut d f l s))

/-- EPHEMERAL_KEY_EXPIRY (15 R399). -/
def execEphemeralKeyExpiry (f : Nat) (s : State) : Host.Outcome State Fault Refusal :=
  .next (serve s fun s =>
    match (s.fold f).key.ephemeral with
    | none => s
    | some e => onlyIf (decide (e.created + max 1000000 (s.act rSecEphLife) ≤ s.now)) s (s.modKey f (fun k => { k with ephemeral := none })))

/-! ### KEY_INSTALL (15 R401) -/

/-- A refusal with ST_AUTH_FAIL, counted. -/
def authFail (f : Nat) (s : State) : Tried State := .error (stAuthFail, s.count (rSecAuthFails f) 1)

/-- Whether a table names KEY_ID. -/
def holdsKey (l : List (List Byte × List Byte)) (id : List Byte) : Bool := l.any (fun p => p.1 == id)

/-- KEY_INSTALL: OP `op` is this row's; an OP of another row leaves the state (log entry 5), one above 2 is refused. -/
def keyDescriptor (op : Nat) (d : Desc) (body : Nat → List Byte → State → Tried State) (s : State) : State :=
  if descByte d 16 != op && decide (descByte d 16 < 3) then s
  else serve s (descriptor opKeyInstall (bodyReserved d [(16, 16), (24, 29), (32, 47)]) false d fun s =>
    if 2 < descByte d 16 then .error (stBadDescriptor, s) else body (s.descFold d) (descBytes d 32 16) s)

/-- KEY_INSTALL OP 0: an owner public key. -/
def execKeyInstallOwner (d : Desc) (s : State) : Host.Outcome State Fault Refusal :=
  .next (keyDescriptor 0 d (fun f id s =>
    let k := (s.fold f).key
    match s.hostRead f (descNum d 24 6) 97 with
    | .error e => .error (e, s)
    | .ok pt =>
      if holdsKey k.ownerKeys id then .error (stBusy, s)
      else if 16 ≤ k.ownerKeys.length then .error (stQuota, s)
      else if !Config.ecPointOk pt then authFail f s
      else .ok (complete opKeyInstall d stOk 0 [] (s.modKey f (fun k => { k with ownerKeys := k.ownerKeys ++ [(id, pt)] })))) s)

/-- The format of a wrapped key blob (15 Table 15-7). -/
def blobOk (b : List Byte) : Bool :=
  sliceB b 0 8 == [0x53, 0x4B, 0x39, 0x57, 0x52, 0x41, 0x50, 0x01] && leAt b 8 2 == 1 && leAt b 10 2 == 256 &&
    leAt b 12 4 == 0 && leAt b 177 15 == 0 && leAt b 204 4 == 0

/-- The image key a blob wraps under an ephemeral key (15 R400); none where a check of R401 step 5 fails. -/
def unwrapKey (e : Ephemeral) (id b : List Byte) : Option (List Byte) :=
  let broker := sliceB b 80 97
  if sliceB b 32 48 != e.nonce || sliceB b 16 16 != id || !Config.ecPointOk broker then none
  else
    let kw := Config.hkdf (Config.ecdh e.secret broker) e.nonce (ascii "SK9-KR1" ++ e.pub ++ broker ++ id) 32
    Config.gcmOpen kw (sliceB b 192 12) (b.take 208) (sliceB b 208 48)

/-- KEY_INSTALL OP 1: a wrapped image key. -/
def execKeyInstallImage (d : Desc) (s : State) : Host.Outcome State Fault Refusal :=
  .next (keyDescriptor 1 d (fun f id s =>
    let k := (s.fold f).key
    match s.hostRead f (descNum d 24 6) 256 with
    | .error e => .error (e, s)
    | .ok b =>
      if !blobOk b then .error (stBadDescriptor, s)
      else if holdsKey k.imageKeys id then .error (stBusy, s)
      else if 32 ≤ k.imageKeys.length then .error (stQuota, s)
      else match k.ephemeral.bind (fun e => unwrapKey e id b) with
        | none => authFail f s
        | some key => .ok (complete opKeyInstall d stOk 0 [] (s.modKey f (fun k => { k with imageKeys := k.imageKeys ++ [(id, key)] })))) s)

/-- SIG_OFFSET, CHUNK_OFFSET, CHUNKS, KEY_ID. -/
def sigOffset (c : List Byte) : Nat := leAt c 24 8
def chunkOffset (c : List Byte) : Nat := leAt c 32 8
def chunkCount (c : List Byte) : Nat := leAt c 40 4
def keyIdOf (c : List Byte) : List Byte := sliceB c 48 16

/-- Whether a MODEL_REGISTER of the fold that has not ended uses KEY_ID. -/
def State.keyInUse (s : State) (f : Nat) (id : List Byte) : Bool := (s.fold f).registering.any (fun g => keyIdOf g.2.container == id)

/-- KEY_INSTALL OP 2: a key removed. -/
def execKeyRemove (d : Desc) (s : State) : Host.Outcome State Fault Refusal :=
  .next (keyDescriptor 2 d (fun f id s =>
    let k := (s.fold f).key
    if !holdsKey k.imageKeys id && !holdsKey k.ownerKeys id then .error (stBadDescriptor, s)
    else if s.keyInUse f id then .error (stBusy, s)
    else .ok (complete opKeyInstall d stOk 0 [] (s.modKey f (fun k =>
      { k with imageKeys := k.imageKeys.filter (fun p => p.1 != id), ownerKeys := k.ownerKeys.filter (fun p => p.1 != id) })))) s)

/-! ### KEY_ROTATE and its sweep (15 R403 to R407) -/

/-- Step 4 and 5 of R405: generation G + 1 current, SWEEPING, the old forms counted, the COMPLETION. -/
def enterSweep (f : Nat) (key : List Byte) (d : Desc) (s : State) : State :=
  let slots := s.sysSheets f
  let left := ((s.fold f).sheets.filter (fun p => decide (2 ≤ p.2.tier) && decide (p.2.tier ≤ 4))).length + slots
  let g := (s.fold f).key.g + 1
  let s := s.modKey f (fun k =>
    { k with state := 2, g := g, old := k.current, current := key, next := none, sweepLeft := left, sweepAt := 0, passEnd := none
             sweptMs := (0, 0), oldSlots := slots })
  complete opKeyRotate d stOk 0 (leBytes 4 g.toNat ++ leBytes 4 left ++ zerosB 3) (sealRecord f s)

/-- KEY_ROTATE (15 R405 steps 1 to 3). A second one before the first's record is durable is busy (log entry 52). -/
def execKeyRotate (d : Desc) (s : State) : Host.Outcome State Fault Refusal :=
  .next (serve s (descriptor opKeyRotate (bodyReserved d []) false d fun s =>
    let f := s.descFold d
    let k := (s.fold f).key
    if k.state = 0 then .error (stBadDescriptor, s)
    else if k.state = 2 || k.next.isSome then .error (stBusy, s)
    else if k.g = BitVec.allOnes 32 then .error (stLength, s)
    else match drbg 64 s with
      | none => .error (stInternal, s)
      | some (key, s₁) =>
        if (s.fold f).ns.state = nsReadOnly then .error (stFlashReadOnly, s)
        else if (s.fold f).ns.state = nsAbsent then .ok (enterSweep f key d s₁)
        else .ok (s₁.modKey f (fun k => { k with next := some (key, d) })))) 

/-- KEY_SWEEP_DONE (15 R407). -/
def postSweepDone (f : Nat) (st : W16) (done : Bool) (s : State) : State :=
  let k := (s.fold f).key
  postFold evKeySweepDone f st 0 (leBytes 4 k.g.toNat ++ leBytes 4 k.sweepLeft ++ leBytes 1 (b2n done) ++ [0, 0]) s

/-- The rotation's end (15 R405 step 7): LIVE, KEY_SWEEP_DONE. -/
def endSweep (f : Nat) (st : W16) (s : State) : State := postSweepDone f st true (sealRecord f (s.modKey f (fun k => { k with state := 1 })))

/-- KEY_RECORD_DURABLE (15 R405 steps 3, 4 and 7): the sealed record handed to the flash tier is durable, or could not be written. -/
def execKeyRecordDurable (f : Nat) (status : W16) (s : State) : Host.Outcome State Fault Refusal :=
  .next (serve s fun s =>
    let k := (s.fold f).key
    match k.next with
    | some (key, d) =>
      if status = stOk then enterSweep f key d s
      else complete opKeyRotate d status 0 [] (s.modKey f (fun k => { k with next := none }))
    | none => onlyIf (k.state == 2 && k.old.isEmpty) s (endSweep f status s))

/-- The sweep's end: the old key zeroed; with a namespace the record of state 1 is waited for. -/
def closeSweep (f : Nat) (s : State) : State :=
  let s := s.modKey f (fun k => { k with old := [], passEnd := none })
  if (s.fold f).ns.state = nsAbsent then endSweep f stOk s else s

/-- The cause of the forms a pass has left: a read-only namespace, else quota. -/
def sweepCause (s : State) (f : Nat) : W16 :=
  if (s.fold f).ns.state = nsReadOnly && (s.fold f).sheets.any (fun p => p.2.tier == 3 && oldForm s f p.2) then stFlashReadOnly else stQuota

/-- An uncorrectable T3 or T4 form re-encrypted as read, where it lies (15 Table 15-8). -/
def recodeForm (f i : Nat) (e : Sheet) (s : State) : State :=
  let s' := putEntry f i { e with keygen := s.keygen f } (sweptOne f e s)
  match (if e.tier = 4 then s.t4Window f else none) with
  | none => s'
  | some n =>
    let a := s.act (rLnkWinHost n) + e.loc * 64
    let l := xts false (s.formKey f e.keygen) 0 (s.sheetNo f i) (s.linkRead a (e.len * 64))
    s'.linkWrite a (xts true (s.fold f).key.current 0 (s.sheetNo f i) l)

/-- An old form re-encrypted: moved within its tier, or promoted out of a read-only namespace; left where nothing is free. -/
def sweepSheet (f i : Nat) (e : Sheet) (s : State) : State :=
  let t := if e.tier = 3 && (s.fold f).ns.state = nsReadOnly then 2 else e.tier
  if t != e.tier && s.room f t == 0 then s
  else match readBack f i s with
    | some s => (moveNow f i t (s.kvPen f i) s).getD s
    | none => recodeForm f i e s

/-- The next old-generation form of the pass: one re-encrypted, a migrating one waited for, the pass ended where none is left. -/
def sweepNext (f : Nat) (s : State) : State :=
  let k := (s.fold f).key
  match (s.fold f).sheets.find? (fun p => decide (k.sweepAt ≤ p.1) && oldForm s f p.2) with
  | some (i, e) =>
    if e.migrating then s
    else
      let s := sweepSheet f i e s
      s.modKey f (fun k => { k with sweepAt := i + 1 })
  | none =>
    if k.oldSlots != 0 then s.modKey f (fun k => { k with oldSlots := k.oldSlots - 1, sweepLeft := k.sweepLeft - 1 })
    else postSweepDone f (sweepCause s f) false (s.modKey f (fun k => { k with passEnd := some s.now }))

/-- KEY_SWEEP_STEP (15 R405 steps 6 and 7), at most SEC_SWEEP_RATE forms per ms. -/
def execKeySweepStep (f : Nat) (s : State) : Host.Outcome State Fault Refusal :=
  .next (serve s fun s =>
    let k := (s.fold f).key
    if k.state != 2 || k.old.isEmpty then s
    else if k.sweepLeft = 0 then closeSweep f s
    else if k.passEnd.isSome then s
    else
      let ms := s.now / 1000
      let n := if k.sweptMs.1 = ms then k.sweptMs.2 else 0
      let rate := s.act (rSecSweepRate f)
      if rate != 0 && decide (rate ≤ n) then s
      else sweepNext f (s.modKey f (fun k => { k with sweptMs := (ms, n + 1) })))

/-- SWEEP_PASS_RETRY (15 R406): a new pass 1,000 ms after one that left forms. -/
def execSweepPassRetry (f : Nat) (s : State) : Host.Outcome State Fault Refusal :=
  .next (serve s fun s =>
    match (s.fold f).key.passEnd with
    | none => s
    | some t => onlyIf (decide (t + 1000000 ≤ s.now)) s (s.modKey f (fun k => { k with passEnd := none, sweepAt := 0 })))

/-! ### Scan access (15 R412) -/

/-- A new challenge drawn. -/
def drawChallenge (s : State) : State :=
  match drbg 48 s with
  | some r => { r.2 with sec := { r.2.sec with challenge := (List.range 6).map (fun k => BitVec.ofNat 64 (leAt r.1 (8 * k) 8)), challengeRead := 0 } }
  | none => { s with sec := { s.sec with challengeRead := 0 } }

/-- The next word of the challenge, and the device after the read: the sixth draws a new challenge. -/
def readChallenge (s : State) : W64 × State :=
  let k := s.sec.challengeRead
  let t := { s with sec := { s.sec with challengeRead := k + 1 } }
  (s.sec.challenge.getD k 0, if 5 ≤ k then drawChallenge t else t)

/-- SCAN_CHALLENGE_READ: the management path reads the next word; the sixth read draws a new challenge. -/
def execScanChallengeRead (requester : Nat) (s : State) : Host.Outcome State Fault Refusal :=
  .next (serve s fun s =>
    if requester != mgmtPath then { s.count rLnkReqRejected 1 with readData := 0 }
    else { (readChallenge s).2 with readData := (readChallenge s).1 })

/-- Whether a scan unlock token is for this device and the present challenge, and signed by the debug key. -/
def tokenOk (s : State) (t : List Byte) : Bool :=
  sliceB t 0 8 == [0x53, 0x4B, 0x39, 0x53, 0x43, 0x41, 0x4E, 0x01] && sliceB t 8 48 == s.idkHash && s.sec.challenge.length == 6 &&
    sliceB t 56 48 == s.sec.challenge.flatMap (fun w => leBytes 8 w.toNat) && Config.ecdsaOk Config.debugPub (t.take 104) (sliceB t 104 96)

/-- SCAN_UNLOCK: an accepted token zeroes every secret, sets SCAN_TAINTED and writes ERROR_UNCORRECTED; another is refused. -/
def execScanUnlock (token : List Byte) (s : State) : Host.Outcome State Fault Refusal :=
  .next (serve s fun s =>
    if !tokenOk s token then s
    else errorUncorrected none 9 0 0 0xFFFFFFFF 0
      { s with sec := { s.sec with seed := none, ak := false, tainted := true }, folds := s.folds.map (fun p => (p.1, { p.2 with key := p.2.key.zeroed })) })

end Sys2Proof.Machine
end

