-- ==== Sys2Proof/Machine/Shard.lean ====
section
/-! DEFINITION. The snapshot store (14 R374 to R377): slots, shard headers, directory, session and data sheets, and a session's image placed
from a shard. -/
namespace Sys2Proof.Machine

/-! ### Slots (14 R374, R375) -/

/-- First map index of own slot `k`, and of replica slot `k`. -/
def State.slotBase (s : State) (f k : Nat) : Nat := (s.snapArea f).1 + k * s.act (rSnapSlotSheets f)
def State.replicaBase (s : State) (f k : Nat) : Nat := s.slotBase f (s.snapSlots f + k)

/-- Whether the slot at `b` begins with a valid header (14 Table 14-3). -/
def State.headerOk (s : State) (f b : Nat) : Bool :=
  (s.fold f).backed b && s.read (s.sheetOffset f b) 8 == [0x53, 0x4B, 0x39, 0x53, 0x48, 0x52, 0x44, 0x01] && s.num (s.sheetOffset f b + 8) 2 == 1

/-- Header fields of the slot at `b`. -/
def State.shardNum (s : State) (f b o n : Nat) : Nat := s.num (s.sheetOffset f b + o) n
def State.shardStep (s : State) (f b : Nat) : Nat := s.shardNum f b 16 8
def State.shardMember (s : State) (f b : Nat) : Nat := s.shardNum f b 24 3 % 2 ^ 18
def State.shardDir (s : State) (f b : Nat) : Nat := s.shardNum f b 36 4
def State.shardSess (s : State) (f b : Nat) : Nat := s.shardNum f b 40 4
def State.shardData (s : State) (f b : Nat) : Nat := s.shardNum f b 44 4
def State.shardDigest (s : State) (f b : Nat) : List Byte := s.read (s.sheetOffset f b + 256) 48

/-- DIGEST as R377 forms it from the sheets the slot holds; a replica's is the own shard's (log entry 61). -/
def State.shardHash (s : State) (f b : Nat) : List Byte :=
  let n := s.shardDir f b + s.shardSess f b + s.shardData f b
  Config.sha384 (patchB (s.read (s.sheetOffset f b) 256) 10 [0] ++ (List.range n).flatMap (fun k => s.read (s.sheetOffset f (b + 1 + k)) 65536))

/-- The slots this device holds: own ones, then the replicas. -/
def State.slotBases (s : State) (f : Nat) : List Nat :=
  let n := s.snapSlots f
  (List.range n).map (s.slotBase f) ++ (if s.snapReplicate f then (List.range n).map (s.replicaBase f) else [])

/-- The slot a cut is written to (14 R375): the lowest with no valid header, else the one with the lowest STEP but the newest complete
snapshot's. -/
def State.cutSlot (s : State) (f : Nat) : Nat :=
  let ks := List.range (s.snapSlots f)
  match ks.find? (fun k => !s.headerOk f (s.slotBase f k)) with
  | some k => k
  | none =>
    (minOn (fun k => s.shardStep f (s.slotBase f k)) (ks.filter (fun k => s.shardStep f (s.slotBase f k) != (s.fold f).snap.lastStep.toNat))).getD 0

/-! ### Reading a shard (14 R377) -/

/-- Directory entry `j`: map index, KIND, POISONED, SHARED. -/
def State.dirIndex (s : State) (f b j : Nat) : Nat := s.num (s.sheetOffset f (b + 1) + 16 * j) 4
def State.dirKind (s : State) (f b j : Nat) : Nat := s.num (s.sheetOffset f (b + 1) + 16 * j + 4) 1
def State.dirPoisoned (s : State) (f b j : Nat) : Bool := bitOf (s.num (s.sheetOffset f (b + 1) + 16 * j + 5) 1) 0
def State.dirShared (s : State) (f b j : Nat) : Bool := bitOf (s.num (s.sheetOffset f (b + 1) + 16 * j + 5) 1) 1

/-- The directory entry of map index `i`. -/
def State.dirFind (s : State) (f b i : Nat) : Option Nat := (List.range (s.shardData f b)).find? (fun j => s.dirIndex f b j == i)

/-- Map index of data sheet `j`. -/
def State.dataSheet (s : State) (f b j : Nat) : Nat := b + 1 + s.shardDir f b + s.shardSess f b + j

/-- The records the shard holds. -/
def State.shardRecords (s : State) (f b : Nat) : List Record :=
  (List.range (s.shardNum f b 48 4)).map (fun k => recordOf (s.read (s.sheetOffset f (b + 1 + s.shardDir f b) + 512 * k) 512))

/-- The record of session `x`. -/
def State.shardRecord (s : State) (f b : Nat) (x : W64) : Option Record := (s.shardRecords f b).find? (fun r => r.sessionId == x)

/-- Content offset of the sheet captured at map index `i`. -/
def State.capturedAt (s : State) (f b i : Nat) : Option Nat := (s.dirFind f b i).map (fun j => s.sheetOffset f (s.dataSheet f b j))

/-- The captured map indices of a session's image: page table, parameter sheet, count table, page lists, pages. -/
def State.capturedImage (s : State) (f b : Nat) (r : Record) : List Nat :=
  let root := s.mapIndex f r.imageRoot
  match s.capturedAt f b root with
  | none => [root]
  | some p =>
    let entries := (List.range (s.ptLayers p * s.ptLists p)).filter (fun j => s.num (p + 64 + 8 * j) 4 != 0xFFFFFFFF)
    [root, s.ptParam p, s.ptCount p] ++ entries.flatMap (fun j =>
      let l := s.num (p + 64 + 8 * j) 4
      l :: (match s.capturedAt f b l with
        | some a => (List.range (s.num (p + 68 + 8 * j) 4)).map (fun q => s.num (a + 64 + 4 * q) 4)
        | none => []))

/-! ### Placing a session's image from a shard (14 R383, 04 R116 step 3) -/

/-- One captured sheet placed anew: a shared one once. `done` maps captured indices to the new ones, `kept` those of shared sheets. -/
def placeCaptured (f b i : Nat) (t : NMap Nat × NMap Nat × State) : Tried (NMap Nat × NMap Nat × State) :=
  let (done, kept, s) := t
  if hasN done i then .ok t
  else match getN kept i with
    | some k => andThen (takeRef f k s) fun r => .ok (setN done i r.1, kept, r.2)
    | none =>
      match s.dirFind f b i with
      | none => .error (stPoison, s)
      | some j =>
        if s.dirPoisoned f b j then .error (stPoison, s)
        else
          andThen (touchSheet f (s.dataSheet f b j) s) fun s =>
          andThen (newSheet f 2 (s.dirKind f b j) none false false s) fun r =>
            let s := pokeSheet f r.1 0 (r.2.read (r.2.sheetOffset f (r.2.dataSheet f b j)) 65536) r.2
            .ok (setN done i r.1, if s.dirShared f b j then setN kept i r.1 else kept, s)

/-- The page table, as placed in T2, of session `x` in the share of a lost member: the parameter sheet it names bears the session (log entry 175). -/
def State.takenTable (s : State) (f : Nat) (x : W64) : Option Nat :=
  (s.fold f).snap.share.findSome? (fun p =>
    let a := s.sheetOffset f p.2
    if ((s.fold f).sheet p.2).kind != 0 || s.num a 2 != 0x5054 then none
    else match getN (s.fold f).snap.share (s.ptParam a) with
      | some i => if s.num (s.sheetOffset f i + 65480) 8 = x.toNat then some a else none
      | none => none)

/-- The pages of list `e` of the lost member's page table at `b`, as placed. -/
def State.takenPages (s : State) (f b : Nat) (e : Nat × Nat) : List Nat :=
  let q := (s.fold f).snap.share
  match s.ptList b e.1 e.2 with
  | (some i, n) => (getN q i).elim [] (fun i => (List.range n).filterMap (fun j => getN q (s.num (s.sheetOffset f i + 64 + 4 * j) 4)))
  | (none, _) => []

/-- The lost member's pages of session `x` put into the lists of its page table at `a`, in ascending MIN_POS order (14 R385 step 3, 08 R211). -/
def mergeTaken (f : Nat) (x : W64) (a : Nat) (s : State) : Tried State :=
  match s.takenTable f x with
  | none => .ok s
  | some b => (s.allLists b).foldl (fun t e => andThen t (fun s =>
      let ps := s.takenPages f b e
      if ps.isEmpty then .ok s else
      andThen (ps.foldl (fun t i => andThen t (fun s => andThen (takeRef f i s) (fun r => appendPage f a e.1 e.2 r.1 r.2))) (.ok s)) fun s =>
      .ok (putPages f a e.1 e.2 (sortBy (fun i j => decide (s.pgMin (s.sheetOffset f i) ≤ s.pgMin (s.sheetOffset f j))) (s.listPages f a e.1 e.2)) s))) (.ok s)

/-- The image of record `r` placed from the shard at `b`: its page table and parameter sheet, its number of sheets, the shared sheets
placed. -/
def restoreImage (f b : Nat) (y : Sess) (r : Record) (kept : NMap Nat) (s : State) : Tried ((Nat × Nat × Nat) × NMap Nat × State) :=
  andThen ((s.capturedImage f b r).foldl (fun t i => andThen t (placeCaptured f b i)) (.ok ([], kept, s))) fun t =>
    let base := s.winBase f / 65536
    let m : Move := { stage := 7, device := 0, fold := f, epoch := 0, desc := none, continueTurn := false, lastPoll := 0
                      pulled := t.1.map (fun p => (p.1 + base, p.2)) }
    andThen (rebuildImage f { y with record := { y.record with imageRoot := r.imageRoot, paramSheet := r.paramSheet } } m t.2.2) fun q =>
    andThen (if s.shardStep f b = (s.fold f).snap.lastStep.toNat then
        mergeTaken f y.record.sessionId (q.2.sheetOffset f (getND t.1 (s.mapIndex f r.imageRoot) 0)) q.2 else .ok q.2) fun w =>
      .ok ((getND t.1 (s.mapIndex f r.imageRoot) 0, getND t.1 (s.mapIndex f r.paramSheet) 0, t.1.length + q.1.length), t.2.1, w)

/-- The captured page table and parameter sheet of session `x` in the shard at `b`, where its record is in another member's (log entry 175). -/
def State.capturedTable (s : State) (f b : Nat) (x : W64) : Option (Nat × Nat) :=
  (List.range (s.shardData f b)).findSome? (fun j =>
    let a := s.sheetOffset f (s.dataSheet f b j)
    if s.dirKind f b j != 0 || s.num a 2 != 0x5054 then none
    else match s.capturedAt f b (s.ptParam a) with
      | some p => if s.num (p + 65480) 8 = x.toNat then some (s.dirIndex f b j, s.ptParam a) else none
      | none => none)

/-- The own shard of step `c` that holds a share of session `x`. -/
def State.shareShard (s : State) (f : Nat) (x : W64) (c : Nat) : Option (Nat × Nat × Nat) :=
  ((List.range (s.snapSlots f)).map (s.slotBase f)).findSome? (fun b =>
    if s.headerOk f b && s.shardStep f b == c then (s.capturedTable f b x).map (fun t => (b, t)) else none)

/-- A share of session `y` placed from the own shard at `b`, its page table and parameter sheet captured as `t` (14 R385 step 4). -/
def restoreShare (f b : Nat) (t : Nat × Nat) (y : Sess) (s : State) : Tried ((Nat × Nat × Nat) × State) :=
  andThen (restoreImage f b y { y.record with imageRoot := s.sheetOffset f t.1, paramSheet := s.sheetOffset f t.2 } [] s) fun q => .ok (q.1, q.2.2)

end Sys2Proof.Machine
end

