-- ==== Sys2Proof/Machine/Share.lean ====
section
/-! DEFINITION. The share of a session that a member holds for its owner (04 R96, 05 R126): taken from the owner's word, brought up to date with
each turn, given up; and the reservations it reports (09 R244). -/
namespace Sys2Proof.Machine

/-- The record of a share: the owner's, with the sheets that lie here; a home keeps what it keeps itself. -/
def Sess.shareRecord (r : Record) (y : Sess) : Record :=
  let r := { r with imageRoot := y.record.imageRoot, paramSheet := y.record.paramSheet, imageSheets := y.record.imageSheets }
  if y.isHome then r.homed y.record else r

/-- A share made: page table, parameter sheet, count table and tries on this member, or, where the owner's image comes from a snapshot, what the own
shard of that step holds (14 R385 step 4); a share from before is given up. -/
def installShare (f : Nat) (img : Image) (b : Seat) (s : State) : Tried State :=
  let x := b.record.sessionId
  let y := Sess.idle b.record false false f
  let s := dropShare x s
  andThen (match b.step.bind (s.shareShard f x) with
    | some t => restoreShare f t.1 t.2 y s
    | none => freshImage f img (b.params.take 65408) s : Tried ((Nat × Nat × Nat) × State)) fun r =>
    let s := r.2
    let own (r₀ : Record) : Record :=
      { r₀ with imageRoot := s.sheetOffset f r.1.1, paramSheet := s.sheetOffset f r.1.2.1, imageSheets := r.1.2.2 }
    .ok (match s.sess x with
      | some y => s.setSess x { y with share := true, fold := f, away := some y.homeRecord, record := own y.record }
      | none => s.setSess x { Sess.idle (own b.record) false false f with share := true })

/-- The turn of a share, as the parameter sheet holds its descriptor; its COMPLETION is the owner's. -/
def State.shareTurn (s : State) (y : Sess) (b : Seat) : Turn :=
  let d : Desc := { ring := 0, flags := 0, tag := 0, epoch := 0, session := y.record.sessionId, body := [] }
  let t := s.standIn (s.num (y.record.paramSheet + 65472) 1) d y 0
  { t with noGenerate := t.noGenerate || b.rebuild, rebuild := b.rebuild, handoff := if b.handoff then some (0, 0) else none }

/-- The share of session `y` as its owner's next turn leaves it. -/
def freshenShare (f : Nat) (y : Sess) (b : Seat) (s : State) : State :=
  let x := b.record.sessionId
  let s := markAndPoke f (s.mapIndex f y.record.paramSheet) 65472 (b.params.drop 65472) s
  let s := markAndPoke f (s.ptCount y.record.imageRoot) 0 b.counts s
  let cache := (List.range b.entries.length).foldl (fun m i => setN m (b.record.txFirst + i) (b.entries.getD i 0)) y.txCache
  let s := s.modSess x (fun y =>
    { y with record := y.shareRecord b.record, fenceEpoch := b.record.lease.epoch, kvNext := b.kvNext, txCache := if y.isHome then [] else cache
             turn := some (s.shareTurn y b), park := none })
  if isParked b.record.state then startRevive x none true s else s

/-- An owner's word on a session (04 R96). A share that has the positions the owner has stays, but for one the owner has restored; any other is made
anew. Room refused ends the turn. -/
def takeSeat (f : Nat) (b : Seat) (s : State) : State :=
  let x := b.record.sessionId
  match s.activeImage f, s.sess x with
  | none, _ => s
  | some img, y? =>
    if y?.any (fun y => y.isOwner || y.move.isSome) then s else
    let kept := b.step.isNone && y?.any (fun y => y.share && y.fold == f && y.kvNext == b.kvNext)
    match (if kept then .ok s else installShare f img b s : Tried State) with
    | .error e => mailTo f (.fail x b.record.turn e.1) b.record.lease.holder (dropNew f s e.2)
    | .ok s => match s.sess x with
      | some y => freshenShare f y b s
      | none => s

/-- The owner's word kept until the session's last entry is gone here, else taken. -/
def seatArrives (f : Nat) (b : Seat) (s : State) : State :=
  if (s.fold f).seqs.any (fun e => e.2.session == b.record.sessionId) then s.modFold f (fun z => { z with seats := z.seats ++ [b] })
  else takeSeat f b s

/-- The words kept for sessions that have no entry any more, taken. -/
def takeSeats (f : Nat) (s : State) : State :=
  let due := (s.fold f).seats.filter (fun b => !(s.fold f).seqs.any (fun e => e.2.session == b.record.sessionId))
  due.foldl (fun s b => takeSeat f b s) (s.modFold f (fun z => { z with seats := z.seats.filter (fun b => !due.contains b) }))

/-- An owner's word that a session is gone: its share given up, once its entry is. -/
def shareDropped (f : Nat) (x : W64) (s : State) : State :=
  match s.sess x with
  | none => s
  | some y =>
    if !y.share || y.isOwner || y.fold != f then s
    else if (s.fold f).seqs.any (fun e => e.2.session == x) then (endShare f x s).modSess x (fun y => { y with closing := some ⟨0, stOk, none⟩ })
    else dropShare x s

/-- Shares given up whose entries have gone. -/
def dropShares (f : Nat) (s : State) : State :=
  s.sessions.foldl (fun s p =>
    if p.2.share && !p.2.isOwner && p.2.fold == f && p.2.closing.isSome && !(s.fold f).seqs.any (fun e => e.2.session == p.2.record.sessionId) then
      dropShare p.2.record.sessionId s
    else s) s

/-- The reservations of this member's entries reported to the root as they have changed (09 R244). -/
def reportReserved (f : Nat) (s : State) : State :=
  if s.isRoot f then s else
  let i := s.memberIndex f
  let live := (s.fold f).reserved.filter (fun r => (s.fold f).seqs.any (fun e => e.2.session == r.1))
  (s.fold f).seqs.foldl (fun s e =>
    let x := e.2.session
    let held := (s.sess x).any (fun y => s.draftHeld f y)
    if held == (s.fold f).reserved.contains (x, i) then s else
    mailRoot f (.reserved x held) (s.modFold f (fun z => { z with reserved := if held then z.reserved ++ [(x, i)] else z.reserved.filter (· != (x, i)) })))
    (s.modFold f (fun z => { z with reserved := live }))

/-- A member's report of a reservation, at the root. -/
def reservedReported (f : Nat) (x : W64) (i : Nat) (held : Bool) (s : State) : State :=
  s.modFold f (fun z => { z with reserved := z.reserved.filter (· != (x, i)) ++ (if held then [(x, i)] else []) })

end Sys2Proof.Machine
end

