-- ==== Sys2Proof/Machine/Shepherd.lean ====
section
/-! DEFINITION. The verification commit point of a fold (09 R248, 05 R134 to R139): pending register copies, KV upkeep, the prefix index,
the snapshot cut, admission, displacement and moves, drains and their boundary, the next list; the empty step and the accounting page. -/
namespace Sys2Proof.Machine

/-! ### Pending register copies becoming active (19 R471 to R475) -/

/-- The block of a register key. -/
def blockOf (k : Nat) : Nat := if ringKeyBase ≤ k then 2 else k / 65536

/-- The pending value of register `k` active; the shadow keeps what software reads there. -/
def applyKey (k : Nat) (v : W64) (s : State) : State :=
  let w := s.shadowOf k
  let s := s.setAct k v.toNat
  { s with regs := { s.regs with pend := delN s.regs.pend k
                                 shadow := if w = v.toNat then delN s.regs.shadow k else setN s.regs.shadow k (BitVec.ofNat 64 w) } }

/-- The pending values whose keys `sel` names become active in one step; a block with none left is applied. -/
def applyPend (sel : Nat → Bool) (s : State) : State :=
  let s := (s.regs.pend.filter (fun p => sel p.1)).foldl (fun s p => applyKey p.1 p.2 s) s
  let done (b : Nat) (c : CommitReg) : CommitReg :=
    if c.state = 2 && !s.regs.pend.any (fun p => blockOf p.1 == b) then { c with state := 3 } else c
  { s with regs := { s.regs with commit := s.regs.commit.map (fun p => (p.1, done p.1 p.2)) } }

/-- A per-fold register of SCH, INK or BELL (19 Table 19-4). -/
def foldStepKey (f k : Nat) : Bool :=
  (decide (0x41000 + f * 0x80 ≤ k) && decide (k < 0x41080 + f * 0x80)) || (decide (0x141000 + f * 0x40 ≤ k) && decide (k < 0x141040 + f * 0x40)) ||
    (decide (0xb1000 + f * 0x40 ≤ k) && decide (k < 0xb1040 + f * 0x40))

/-! ### KV upkeep (08 R224, R225, R228 to R230) -/

/-- A session's newest position (08 R229): the one whose entry the next step writes, or, while positions are left to prefill, the last one that has an
entry (log entry 164). -/
def Sess.newest (y : Sess) : Nat := if y.record.context ≤ y.kvNext + 1 then y.record.context - 1 else y.kvNext - 1

/-- Eviction and sliding windows of one session's lists. -/
def evictSession (f : Nat) (img : Image) (y : Sess) (s : State) : State :=
  let a := y.record.imageRoot
  (s.allLists a).foldl (fun s q =>
    let w := (img.layers[q.1]?).elim 0 (fun l => if l.sliding then l.window else 0)
    let s := if q.1 < s.mainLayers f then evictList f a q.1 q.2 y.record.context s else s
    slideList f a q.1 q.2 y.newest w s) s

/-- Compaction of every list of the fold's sessions begun, shares among them (08 R230). -/
def compactAll (f : Nat) (s : State) : State :=
  s.sessions.foldl (fun s p =>
    if !(p.2.isOwner || p.2.share) || p.2.fold != f then s else
    (s.allLists p.2.record.imageRoot).foldl (fun s q => startCompact f p.2.record.sessionId p.2.record.imageRoot q.1 q.2 s) s) s

/-- The upkeep at a commit point. -/
def kvUpkeep (f : Nat) (s : State) : State :=
  match s.activeImage f with
  | none => s
  | some img =>
    let s := (s.fold f).compacts.foldl (fun s c => finishCompact f c s) s
    let s := (s.fold f).seqs.foldl (fun s e => match s.sess e.2.session with
      | some y => windowMoves f y false (evictSession f img y s)
      | none => s) s
    let s := if s.pressure f || s.poolFull f then compactAll f s else s
    if s.pressure f then spill f s else s

/-! ### Draft reservations (09 R242, R244) -/

/-- `n` new sheets in the T0 pool of pen `p`, one after the other. -/
def poolSheets (f p : Nat) (kind : Nat) (wet : Bool) : Nat → State → Tried (List Nat × State)
  | 0, s => .ok ([], s)
  | n + 1, s => andThen (newSheet f 0 kind (some p) true wet s) (fun r =>
      andThen (poolSheets f p kind wet n r.2) (fun q => .ok (r.1 :: q.1, q.2)))

/-- The same, all or none (09 R244): what a session has reserved, if it was possible, and the device after it. -/
def reserveSheets (f p : Nat) (kind : Nat) (wet : Bool) (n : Nat) (s : State) : Option (List Nat) × State :=
  match poolSheets f p kind wet n s with
  | .ok r => (some r.1, r.2)
  | .error e => (none, dropNew f s e.2)

/-- The wet sheets and the history of one entry reserved, or released where no draft source is in effect. -/
def reserveDraft (f : Nat) (img : Image) (e : SeqEntry) (s : State) : State :=
  match s.sess e.session with
  | none => s
  | some y =>
    if e.phase = 4 then s
    else if s.draftSource f = 0 then (if y.wet.isSome || y.history.isSome then releaseDraft e.session s else s)
    else
      let need := wetNeed s f img
      let s := match y.wet with
        | some l => if l.length = need then s else (discardAll f l s).modSess e.session (fun y => { y with wet := none })
        | none => s
      let s := if ((s.sess e.session).bind (·.wet)).isSome then s else
        let r := reserveSheets f e.pen 1 true need s
        r.2.modSess e.session (fun y => { y with wet := r.1 })
      if s.draftSource f != 2 || y.history.isSome then s
      else
        let r := reserveSheets f e.pen 0 false 1 s
        r.2.modSess e.session (fun y => { y with history := r.1.bind (·.head?) })

/-! ### The snapshot cut (14 R365, R368, R377) -/

/-- The sheets of the capture set, by map index. -/
def State.captureSet (s : State) (f : Nat) : List (Nat × Sheet) :=
  (s.fold f).sheets.filter (fun p => (p.2.kind == 0 || p.2.kind == 1 || p.2.kind == 3) && !p.2.wet && !inArea (s.snapArea f) p.1 && !inArea (s.recallArea f) p.1)

/-- The sessions whose records are captured, ascending. -/
def State.captureSessions (s : State) (f : Nat) : List Sess :=
  (s.sessions.filter (fun p =>
    let l := p.2.record.lease
    p.2.fold == f && p.2.isOwner && l.holder == s.selfNo && decide (l.lstate ≤ 2) && p.2.record.state != stateClosed &&
      p.2.record.state != stateStranded)).map (·.2)

/-- A directory entry: map index, KIND, flags, REFS. -/
def dirEntry (p : Nat × Sheet) : List Byte :=
  leBytes 4 p.1 ++ leBytes 1 p.2.kind ++ leBytes 1 (2 * b2n (decide (1 < p.2.refs))) ++ leBytes 2 p.2.refs ++ zerosB 8

/-- The cut of step `c` into slot `k` (14 R368): SNAP on the capture set, directory and records as they stand. -/
def takeCut (f c k : Nat) (s : State) : State :=
  let set := s.captureSet f
  let ys := s.captureSessions f
  s.modFold f (fun x =>
    { x with cutAt := none
             sheets := x.sheets.map (fun p => (p.1, { p.2 with snap := set.any (fun q => q.1 == p.1) }))
             snap := { x.snap with state := 2, slot := k, step := c, marked := set.map (·.1), copies := [], poisonedCopies := [], fail := none, dir := set.map dirEntry
                                   sessions := ys.map (·.record.sessionId), data := ys.map (fun y => recordBytes y.record), drainedMs := (0, 0)
                                   written := 0, digest := none, reported := false } })

/-- The cut if this commit is the one it waits for. -/
def cutDue (f c : Nat) (s : State) : State := match (s.fold f).cutAt with
  | some q => if q.1 = c then takeCut f c q.2 s else s
  | none => s

/-! ### Displacement, admission, moves (05 R130 to R132, R137 to R139) -/

/-- The entry `k` of a displaced turn taken out on a member (05 R131 step 1, R139): the preemption counted, its T0 pages on their way to T2, what it had
drafted given back. -/
def displaceEntry (f k : Nat) (e : SeqEntry) (s : State) : State :=
  let x := e.session
  let s := modClass f e.lc (fun c => { c with preemptions := c.preemptions + 1 }) s
  let s := releaseDraft x (forgetLayers f x (stopRevive x s))
  let s := s.modFold f (fun z => { z with seqs := delN z.seqs k })
  let s := match s.sess x with
    | some y => leaveWindow f y s
    | none => s
  s.modRec x (fun r => { r with turnHeld := true })

/-- The owner's part of a displacement (05 R131 step 1): the session parked, ADMIT_DEFERRED with reason 2. -/
def displaceOwn (f : Nat) (x : W64) (ahead : Nat) (s : State) : State :=
  match s.sess x with
  | none => s
  | some y =>
    if !y.isOwner then s else
    let rest := if (y.turn.map (·.opcode)) == some opToolResult then stateWaiting else stateOpen
    let s := match startPark x y.record.parkTier none s with
      | .ok s => s
      | .error er => setState x rest er.2
    announce f x 2 ahead s

/-- A victim displaced by the root: queued as best-effort; the next list tells its owner and the other members. -/
def displace (f : Nat) (v : Nat × Nat) (s : State) : State :=
  match getN (s.fold f).seqs v.1 with
  | none => s
  | some e =>
    if e.phase = 4 then s else
    let x := e.session
    let ahead := (s.fold f).ahead false v.2
    let owner := (s.sess x).bind (fun y => if y.isOwner then none else some y.record.lease.holder)
    let s := displaceOwn f x ahead (displaceEntry f v.1 e s)
    putReq f ⟨x, false, v.2, false, owner⟩ (s.modFold f (fun z => { z with displaced := if (s.others f).isEmpty then [] else z.displaced ++ [(x, ahead)] }))

/-- A turn admitted to a session that has been parked meanwhile, or displaced: a displaced turn's descriptor is refetched for Tally and TURN_HELD
cleared, a park that runs is stopped, the turn-out begins (05 R144, 04 Table 4-4). A holder begins its part of the turn-out of a displaced one. -/
def readmit (x : W64) (y : Sess) (s : State) : State :=
  if !y.isOwner then
    (if y.record.turnHeld then
      startRevive x none true ((s.modSess x (fun y => { y with park := none })).modRec x (fun r => { r with turnHeld := false })) else s)
  else
  let s := match (if y.record.turnHeld then y.turn else none) with
    | some t => if t.opcode = opTurnSubmit then tallyAdd t.desc.ring 1 s else s
    | none => s
  let s := (if y.park.isSome then endPark x stBusy s else s).modRec x (fun r => { r with turnHeld := false })
  if (s.sess x).any (fun y => isParked y.record.state && y.revive.isNone) then startRevive x none true s else s

/-- One request admitted to slot `dseq` (05 Table 5-2); with nothing left to prefill, what follows the prefill follows at once. -/
def admitOne (f dseq : Nat) (q : AdmitReq) (s : State) : State :=
  let x := q.session
  match s.sess x with
  | none => s
  | some y =>
    match s.pickPen f y with
    | none => s
    | some p =>
      let s := readmit x y s
      match s.sess x with
      | none => s
      | some y =>
        let limit := s.reviveLimit f x
        let turnOut := s.isRoot f && decide (limit < 255)
        let e : SeqEntry :=
          { session := x, phase := 1, lc := q.lc, reviving := turnOut, movePending := false, pen := p
            layerLimit := if turnOut then limit else 255, resumeLayer := 0, epoch := y.record.lease.epoch
            prefillNext := y.kvNext, lastStep := (s.fold f).stepNo % 2 ^ 32, ready := some s.now, heldLayer := none }
        let s := s.modFold f (fun z => { z with seqs := setN z.seqs dseq e })
        let s := markMax 18 s.seqUsed s
        let s := if y.isOwner then modClass f q.lc (fun c => { c with admissions := c.admissions + 1 }) s else s
        let s := if !y.isOwner || y.turn.any (·.rebuild) then s else setState x stateActive s
        let s := match s.activeImage f, s.sess x with
          | some img, some y => windowMoves f y (y.revive.isNone) (takeSlate f p y (reserveDraft f img e s))
          | _, _ => s
        if y.kvNext < y.prefillEnd then s else endPrefill f e dseq s

/-- Whether a queued request can be admitted now: its session's lease is this device's to act on, with no offer out (04 R112, log entry 155); another
member's once its share has come. -/
def State.admissible (s : State) (q : AdmitReq) : Bool :=
  if q.owner.isSome then (s.sess q.session).any (fun y => y.turn.isSome) else
  (s.sess q.session).all (fun y => y.record.state != stateMoving && y.move.all (fun m => m.stage == 8))

/-- Requests admitted from the head of the queue while slots are free; an admitted turn gets the lowest DSEQ free (log entry 157). -/
def admitAll (f : Nat) : Nat → State → State
  | 0, s => s
  | n + 1, s =>
    let x := s.fold f
    match x.queue.find? s.admissible with
    | none => s
    | some q =>
      if x.drain.isSome || x.seqSlots ≤ x.seqs.length then s
      else match firstFrom (fun k => !hasN x.seqs k) 32768 0 with
        | none => s
        | some k => admitAll f n (admitOne f k q (s.modFold f (fun z => { z with queue := dropFirst q z.queue })))

/-- The sheets of a session that lie in pen `p`'s slate, its wet ones apart: they are empty at a commit point. -/
def slateSheets (s : State) (f p : Nat) (y : Sess) : List Nat :=
  (s.baseSheets f y ++ y.history.toList).filter (fun i => (s.fold f).backed i && ((s.fold f).sheet i).tier == 0 && ((s.fold f).sheet i).pen == some p)

/-- Entry `k` moved from its pen to `b` (05 R138): its slate sheets migrate, its wet sheets are taken anew there; it waits no more (05 R136). -/
def moveEntry (f k b : Nat) (e : SeqEntry) (y : Sess) (s : State) : State :=
  let l := slateSheets s f e.pen y
  let s := (discardAll f (y.wet.getD []) s).modSess e.session (fun y => { y with wet := none })
  let s := l.foldl (fun s i => slateMove f b i s) s
  let s := if l.isEmpty then s else endWait f k s
  s.modFold f (fun x => { x with seqs := modN x.seqs k (fun e => { e with pen := b, movePending := !l.isEmpty }) })

/-- At most one entry moved from each pen: the first generation entry that can move, to the pen of fewest generation entries with a free slot (log
entry 159). -/
def penMoves (f : Nat) (s : State) : State :=
  let gap := bitsOf (s.act (rSchMove f)) 9 0
  let most := bitsOf (s.act (rSchMove f)) 23 16
  if most = 0 then s else
  (s.fold f).penList.foldl (fun s a =>
    let gens (p : Nat) : Nat := ((s.fold f).seqs.filter (fun e => e.2.pen == p && e.2.phase == 2)).length
    let used (p : Nat) : Nat := ((s.fold f).seqs.filter (fun e => e.2.pen == p)).length
    match minOn gens ((s.fold f).penList.filter (fun b => b != a && decide (gens b + gap ≤ gens a) && decide (used b < 512))) with
    | none => s
    | some b =>
      match (s.fold f).seqs.find? (fun e => e.2.pen == a && e.2.phase == 2 && !e.2.movePending && !e.2.reviving &&
          (s.sess e.2.session).any (fun y => decide ((slateSheets s f a y).length ≤ most))) with
      | none => s
      | some e => match s.sess e.2.session with
        | some y => moveEntry f e.1 b e.2 y s
        | none => s) s

/-- MOVE_PENDING cleared where the last sheet has committed. -/
def endMoves (f : Nat) (s : State) : State :=
  s.modFold f (fun x => { x with seqs := x.seqs.map (fun e =>
    let busy := (s.sess e.2.session).any (fun y => (s.baseSheets f y ++ y.history.toList).any (fun i => (x.sheet i).migrating))
    if e.2.movePending && !busy then (e.1, { e.2 with movePending := false }) else e) })

/-! ### Drains and their boundary (04 R121, 05 R132, 07 R201, 14 R388, 18 R464) -/

/-- The opcode a drain's descriptor completes with. -/
def drainOp (kind : Nat) : Nat := if kind = 0 then opRoleSet else if kind = 1 then opModelActivate else if kind = 2 then opDroveRebalance else opDroveJoin

/-- The COMPLETION of a drain, where its descriptor came to this member. -/
def endDrain (d : Drain) (st : W16) (spec : List Byte) (s : State) : State :=
  if d.issuer.isSome then s else complete (drainOp d.kind) d.desc st 0 spec s

/-- A drain begun at the root: admission stops, on every member, since it is the root that admits. -/
def leadDrain (f : Nat) (d : Drain) (s : State) : State := (stopAdmission f s).modFold f (fun x => { x with drain := some d })

/-- A drain that a descriptor asks for: begun at the root, or asked of it (04 R121). -/
def startDrain (f kind limit : Nat) (d : Desc) (arg : Nat) (s : State) : Tried State :=
  let q : Drain := { kind := kind, deadline := s.now + limit, desc := d, arg := arg, loading := false, boundary := 0, depth := s.act (rScrWindowDepth f) }
  if s.isRoot f then .ok (leadDrain f q s)
  else andThen (mail f (.drain kind arg limit q.depth) (s.rootOf f) (.drain f) none s) (fun s =>
    .ok (s.modFold f (fun x => { x with drain := some { q with led := true } })))

/-- A drain that another member asks for, at the root; refused while one runs. -/
def drainAsked (f kind arg limit depth src : Nat) (s : State) : Option State :=
  if (s.fold f).drain.isSome then none else
  let d : Desc := { ring := 0, flags := 0, tag := 0, epoch := 0, session := 0, body := [] }
  some (leadDrain f { kind := kind, deadline := s.now + limit, desc := d, arg := arg, loading := false, boundary := 0, depth := depth, issuer := some src } s)

/-- What a drain comes to on a member at its boundary, the end of step `c`: the new role, the load begun, the drove left. -/
def drainEnds (f c : Nat) (d : Drain) (s : State) : State :=
  if d.kind = 0 then endDrain d stOk (leBytes 8 c) (s.modFold f (fun x => { x with role := d.arg, drain := none }))
  else if d.kind = 3 then
    let s := s.modFold f (fun x => { x with active := none, drain := none, members := [], snap := { x.snap with absorbed := [], share := [] } })
    endDrain d stOk [] (s.setAct (rFabFoldDrove f) (s.act (rFabFoldDrove f) % 2 ^ 32))
  else s.modFold f (fun x => { x with drain := some { d with loading := true, boundary := c } })

/-- The boundary at which no ACTIVE sequence is left, at the root: `c` is the number of the step that ends there. The next list tells the other
members; a drove that is left gets that list before. -/
def drainBoundary (f c : Nat) (s : State) : State :=
  match (s.fold f).drain with
  | none => s
  | some d =>
    if !(s.fold f).seqs.isEmpty || d.loading then s
    else
      let s := if (s.others f).isEmpty then s else s.modFold f (fun x => { x with drained := some (d.kind, d.arg, c, d.depth) })
      drainEnds f c d (if d.kind = 3 then postList f false s else s)

/-- The boundary of a drain as the root's list tells a member: under its own descriptor where that asked for it. -/
def drainTold (f : Nat) (t : Nat × Nat × Nat × Nat) (s : State) : State :=
  let none_ : Desc := { ring := 0, flags := 0, tag := 0, epoch := 0, session := 0, body := [] }
  let d := ((s.fold f).drain).getD
    { kind := t.1, deadline := s.now, desc := none_, arg := t.2.1, loading := false, boundary := 0, issuer := some (s.rootOf f) }
  drainEnds f t.2.2.1 { d with depth := t.2.2.2 } s

/-- ROLE_SET (04 R121). -/
def execRoleSet (d : Desc) (s : State) : Host.Outcome State Fault Refusal :=
  .next (serve s (descriptor opRoleSet (bodyReserved d [(16, 17), (20, 23)]) false d fun s =>
    let f := descByte d 16
    let r := descByte d 17
    if !s.formed f || 1 < r then .error (stBadDescriptor, s)
    else if (s.fold f).drain.isSome then .error (stBusy, s)
    else if (s.fold f).role = r then .ok (complete opRoleSet d stOk 0 [] s)
    else startDrain f 0 (descNum d 20 4) d r s))

/-- DRAIN_LIMIT_EXPIRY (04 R121 step 4, 07 R201 step 5, 18 R464): nothing changes, admission resumes, ST_BUSY. The limit is the issuing member's, who has
the root stop the drain. -/
def execDrainLimitExpiry (f : Nat) (s : State) : Host.Outcome State Fault Refusal :=
  .next (serve s fun s =>
    match (s.fold f).drain with
    | none => s
    | some d =>
      if d.loading || d.issuer.isSome || s.now < d.deadline then s
      else if d.led then match mail f .drainStop (s.rootOf f) (.drain f) none s with
        | .ok s => s
        | .error e => endDrain d e.1 [] (e.2.modFold f (fun x => { x with drain := none }))
      else endDrain d stBusy [] (s.modFold f (fun x => { x with drain := none })))

/-- The root's answer about a drain: refused, or stopped. -/
def drainAnswered (f : Nat) (stop : Bool) (st : W16) (s : State) : State :=
  match (s.fold f).drain with
  | none => s
  | some d =>
    if !d.led || d.loading || (st == stOk) != stop then s
    else endDrain d (if stop || st == stDeferred then stBusy else st) [] (s.modFold f (fun x => { x with drain := none }))

/-! ### The list (05 R134 to R136) -/

/-- List `l` taken as the fold's next: a sequence that shared blocks have brought to the end of its prefill goes on from there; what is in it
resumes, what is left out waits, generation left out by SCH_GEN_LIMIT is preempted. -/
def takeList (f : Nat) (old l : List WorkItem) (s : State) : State :=
  let s := (s.fold f).seqs.foldl (fun s e => if e.2.phase = 1 && !s.prefillLeft e.2 then endPrefill f e.2 e.1 s else s) s
  let has (k : Nat) : Bool := l.any (fun i => i.dseq == k)
  let left := (s.fold f).seqs.filter (fun e => e.2.phase == 2 && !has e.1 && !e.2.movePending && !e.2.heldOut && old.any (fun i => i.dseq == e.1) &&
    e.2.lastStep == ((s.fold f).stepNo - 1) % 2 ^ 32)
  let s := left.foldl (fun s e => modClass f e.2.lc (fun c => { c with preemptions := c.preemptions + 1 }) s) s
  let entry (e : Nat × SeqEntry) : Nat × SeqEntry :=
    if has e.1 then (e.1, { e.2 with heldLayer := none, phase := if e.2.phase = 3 then 1 else e.2.phase })
    else if e.2.ready.isNone && !e.2.movePending then (e.1, { e.2 with ready := some s.now }) else e
  s.modFold f (fun x => { x with seqs := x.seqs.map entry, nextWork := l })

/-- The next list built, taken and published by the root. -/
def publish (f : Nat) (old : List WorkItem) (s : State) : State :=
  let r := buildList f old s
  postList f false (takeList f old r.1 r.2)

/-! ### The root's list on another member (05 R126, 08 R231) -/

/-- Entries for the sequences of the list that have none here and whose share has come. -/
def seatRoster (f : Nat) (s : State) : State :=
  (s.fold f).roster.foldl (fun s r =>
    match s.sess r.2 with
    | some y => if hasN (s.fold f).seqs r.1 || y.turn.isNone then s else admitOne f r.1 ⟨r.2, y.record.latencyCritical, s.now, true, none⟩ s
    | none => s) s

/-- Registrations and drops of the prefix index, as the root has made them. -/
def applyPrefixOp (f : Nat) (s : State) (op : PrefixOp) : State :=
  match op with
  | .drop k => removeEntry f k s
  | .share .. => s
  | .register x b k => match s.sess x, s.activeImage f with
    | some y, some img => match blockPages s f img y b with
      | some pages => enterBlock f y b k none pages s
      | none => s
    | _, _ => s

/-- Blocks shared to sequences, as the root has shared them. -/
def applyShare (f : Nat) (s : State) (op : PrefixOp) : State :=
  match op with
  | .share d k => match shareEntry f d k s with
    | .ok s => s
    | .error e => e.2
  | _ => s

/-- An entry that the root's list no longer names, taken out. -/
def removeSeq (f : Nat) (e : Nat × SeqEntry) (s : State) : State :=
  let x := e.2.session
  let s := releaseDraft x s
  let s := match s.sess x with
    | some y => leaveWindow f y (if y.isOwner then s else s.modSess x (fun y => { y with turn := none }))
    | none => s
  s.modFold f (fun z => { z with seqs := delN z.seqs e.1 })

/-- The pending cut that a list carries (14 R367). -/
def takeCutNews (f : Nat) (c : Option (Nat × Nat)) (s : State) : State :=
  match c with
  | some q => if (s.fold f).cutAt.isSome || (s.fold f).snap.state != 0 then s else
    s.modFold f (fun x => { x with cutAt := some q, snap := { x.snap with state := 1, slot := q.2, step := q.1 } })
  | none => s

/-- The root's list for the step whose number is current taken over by another member, after the step with list `old`. -/
def adoptList (f : Nat) (old : List WorkItem) (p : Posting) (s : State) : State :=
  let s := p.ops.foldl (applyPrefixOp f) s
  let s := p.displaced.foldl (fun s v => match (s.fold f).seqs.find? (fun e => e.2.session == v.1) with
    | some e => displaceOwn f v.1 v.2 (displaceEntry f e.1 e.2 s)
    | none => s) s
  let s := ((s.fold f).seqs.filter (fun e => !p.roster.contains (e.1, e.2.session))).foldl (fun s e => removeSeq f e s) s
  let s := takeSeats f (s.modFold f (fun z => { z with roster := p.roster, attempts := p.attempt }))
  let s := p.ops.foldl (applyShare f) (seatRoster f s)
  let s := s.modFold f (fun z => { z with seqs := z.seqs.map (fun e =>
    let l := getN p.limits e.1
    (e.1, { e.2 with reviving := l.isSome, layerLimit := l.getD 255 })) })
  let s := takeCutNews f p.cut (takeList f old p.items s)
  p.drained.elim s (fun t => drainTold f t s)

/-! ### The commit point -/

/-- What a TURN_CANCEL or SESSION_CLOSE that met the decision does once the step has committed (09 Table 9-1). -/
def lateCancels (f : Nat) (s : State) : State :=
  s.sessions.foldl (fun s p =>
    match s.sess p.2.record.sessionId with
    | none => s
    | some y =>
      let x := y.record.sessionId
      if y.fold != f then s
      else match y.turn with
        | none => s
        | some t =>
          if t.cancel.isSome then cancelTurn x t.cancel (s.modSess x (fun y => { y with turn := some { t with cancel := none } }))
          else if y.closing.isSome then cancelTurn x none s else s) s

/-- LEAVING entries freed, their T0 pages on their way to T2. -/
def freeLeaving (f : Nat) (s : State) : State :=
  let gone := (s.fold f).seqs.filter (fun e => e.2.phase == 4)
  let s := gone.foldl (fun s e => match s.sess e.2.session with
    | some y => leaveWindow f y s
    | none => s) s
  s.modFold f (fun x => { x with seqs := x.seqs.filter (fun e => e.2.phase != 4) })

/-- The accounting pages of a fold counted anew from now: a commit has set the interval (05 R142, log entry 161). -/
def restartPages (f : Nat) (s : State) : State := s.modFold f (fun x => { x with acctFrom := s.now, acctPage := 0 })

/-- Register copies that wait for this commit point, and what a new value asks for at once. -/
def applyFoldStep (f : Nat) (s : State) : State :=
  let acct := hasN s.regs.pend (rSchAcctInterval f)
  let s := applyPend (foldStepKey f) s
  let s := if acct then restartPages f s else s
  trimPrefix f (s.act (rInkPrefix f)) s

/-- Draft reservations and pen moves at a commit point. -/
def reserveAll (f : Nat) (s : State) : State :=
  let s := match s.activeImage f with
    | some img => (s.fold f).seqs.foldl (fun s e => reserveDraft f img e.2 s) s
    | none => s
  penMoves f (endMoves f s)

/-- The root's Shepherd at the end of step `c` (05 R134). -/
def leadStep (f c : Nat) (old : List WorkItem) (s : State) : State :=
  let s := takeSeats f (freeLeaving f s)
  let s := s.modFold f (fun x => { x with reserved := x.reserved.filter (fun r => x.seqs.any (fun e => e.2.session == r.1)) })
  let vs := (s.fold f).victims
  let s := vs.foldl (fun s v => displace f v s) (s.modFold f (fun x => { x with victims := [] }))
  let s := admitAll f ((s.fold f).queue.length) (drainBoundary f c s)
  publish f old (reserveAll f s)

/-- Another member's: it does as the root's list says, once that has come (05 R126). -/
def followStep (f : Nat) (old : List WorkItem) (s : State) : State :=
  let due := (s.fold f).posted.filter (fun p => p.number == (s.fold f).stepNo)
  let s := s.modFold f (fun x => { x with posted := none, nextWork := [] })
  let s := due.elim (takeSeats f (freeLeaving f s)) (fun p => adoptList f old p (freeLeaving f s))
  reportReserved f (reserveAll f s)

/-- The verification commit point of fold `f` after its sequences (09 R248, 05 R134): the step number advances, and everything that waits for a
step boundary takes place; `old` is the list of the step that ends. -/
def commitPoint (f : Nat) (old : List WorkItem) (s : State) : State :=
  let c := (s.fold f).stepNo
  let s := cutDue f c s
  let s := s.modFold f (fun x => { x with stepNo := x.stepNo + 1, attempts := 0, step := none, slices := x.slices.filter (fun n => decide (c < n.step)) })
  let s := kvUpkeep f (lateCancels f s)
  let s := applyFoldStep f s
  let s := dropShares f (if s.isRoot f then leadStep f c old s else followStep f old s)
  let s := (s.fold f).seqs.foldl (fun s e => countImage e.2.session s) s
  (s.fold f).penList.foldl (fun s n => closeBank n s) s

/-- VERIFICATION_COMMIT (09 R248): this member applies the commit record in work-list order. The root's record is its own judgement; another
member's is what the root has broadcast to it, `record` where nothing has come (log entry 134). -/
def execVerificationCommit (f : Nat) (record : List SeqVerdict) (s : State) : Host.Outcome State Fault Refusal :=
  .next (serve s fun s =>
    match (s.fold f).step, s.activeImage f with
    | some st, some img =>
      match (if s.isRoot f then st.verdicts else if s.stepRun f then some (st.verdicts.getD record) else none) with
      | none => s
      | some vs =>
        let s := st.items.foldl (fun s i => applyItem f img vs i s) s
        let s := st.items.foldl (fun s i => registerChunk f img i s) s
        commitPoint f st.items s
    | _, _ => s)

/-- Whether something waits for a step boundary of the fold (05 R509); a sequence that no list holds is among it (log entry 76). -/
def State.boundaryWaits (s : State) (f : Nat) : Bool :=
  !(s.fold f).queue.isEmpty || !(s.fold f).seqs.isEmpty || (s.fold f).cutAt.isSome || (s.fold f).drain.any (fun d => !d.loading)

/-- Whether an empty step can run: no step in progress, no list. -/
def State.betweenSteps (s : State) (f : Nat) : Bool :=
  s.formed f && (s.fold f).step.isNone && (s.fold f).nextWork.isEmpty && !(s.fold f).snap.halted && !s.ackWaits f

/-- EMPTY_STEP (05 R509): the root publishes it, and it commits at once where there is no other member, else with the last acknowledgement. -/
def execEmptyStep (f : Nat) (s : State) : Host.Outcome State Fault Refusal :=
  .next (serve s fun s =>
    if !(s.betweenSteps f && s.boundaryWaits f && s.isRoot f) || (s.fold f).awaiting then s
    else if (s.others f).isEmpty then commitPoint f [] (admitQueries f s)
    else postList f true (s.modFold f (fun x => { x with awaiting := true })))

/-- A member's answer to a list, at the root: the empty step commits once all have it; one that cannot take it yet has it published again later. -/
def postAnswered (f : Nat) (st : W16) (s : State) : State :=
  if !(s.fold f).awaiting then s
  else if st == stDeferred then s.modFold f (fun x => { x with awaiting := false })
  else if s.asking (.posting f) then s
  else
    let s := s.modFold f (fun x => { x with awaiting := false })
    if s.betweenSteps f then commitPoint f [] (admitQueries f s) else s

/-- The root's list as it comes to another member: taken at once where its step is the current one, kept where that is still to commit; an empty step
commits. The status is the answer. -/
def listArrives (f : Nat) (p : Posting) (s : State) : W16 × State :=
  let n := (s.fold f).stepNo
  if p.empty then
    if p.number < n then (stOk, s)
    else if p.number = n && s.betweenSteps f then (stOk, commitPoint f [] (admitQueries f s))
    else (stDeferred, s)
  else if p.number = n then
    let old := ((s.fold f).step.map (·.items)).getD []
    let s := if (s.fold f).step.isSome then dropStep f s else s
    (stOk, reportReserved f (adoptList f old p s))
  else if p.number = n + 1 then (stOk, s.modFold f (fun x => { x with posted := some p }))
  else (stOk, s)

/-! ### The accounting page (05 R142) -/

/-- Sheets of a list of map indices by tier. -/
def tierCounts (x : Fold) (l : List Nat) : List Byte :=
  (List.range 5).flatMap (fun t => leBytes 8 ((l.filter (fun i => x.backed i && (x.sheet i).tier == t)).length))

/-- A class block of the page. -/
def classBlock (s : State) (f : Nat) (lc : Bool) (c : ClassCounters) : List Byte :=
  let ys := (s.sessions.filter (fun p => p.2.fold == f && p.2.isOwner && p.2.record.latencyCritical == lc)).map (·.2)
  padTo 128 (leBytes 8 c.waitTotal.toNat ++ leBytes 8 c.waitMax ++ leBytes 8 c.preemptions.toNat ++ leBytes 8 c.steps.toNat ++
    leBytes 8 c.tokens.toNat ++ leBytes 8 c.prefillTokens.toNat ++ leBytes 8 c.admissions.toNat ++ leBytes 8 c.deferrals.toNat ++
    tierCounts (s.fold f) (ys.flatMap (fun y => s.imageSheets f y)).eraseDups)

/-- FOLD_SHEETS: the fold's sheets by tier, with its system slots and without what is pinned, which is no sheet (02 R27, log entry 160). -/
def foldSheets (s : State) (f : Nat) : List Byte :=
  (List.range 5).flatMap (fun t => leBytes 8 ((s.fold f).use t + (if t = 2 then s.sysSheets f else 0)))

/-- The 512 bytes of accounting page `k` (05 Table 5-5). -/
def accountingBytes (s : State) (f k : Nat) : List Byte :=
  let x := s.fold f
  padTo 504 (padTo 128 (leBytes 8 k ++ leBytes 1 f ++ leBytes 1 1 ++ [0, 0] ++ leBytes 4 (s.act (rSchAcctInterval f)) ++ leBytes 8 s.now ++
    leBytes 8 (x.stepNo - 1) ++ foldSheets s f ++ leBytes 8 x.queued.length) ++ classBlock s f true x.lcCount ++ classBlock s f false x.beCount) ++ leBytes 8 k

/-- ACCOUNTING_PAGE (05 R142): the next page when its time has come, and its event. -/
def execAccountingPage (f : Nat) (s : State) : Host.Outcome State Fault Refusal :=
  .next (serve s fun s =>
    let n := s.act (rSchAcctInterval f)
    let k := (s.fold f).acctPage + 1
    if !s.formed f || n = 0 || s.now < (s.fold f).acctFrom + k * n then s
    else
      let s := s.hostWrite f (s.act (rSchAcctAddr f) + 512 * (k % 2)) (accountingBytes s f k)
      let s := s.modFold f (fun x => { x with acctPage := k, lcCount := { x.lcCount with waitMax := 0 }, beCount := { x.beCount with waitMax := 0 } })
      postFold evAccountingPage f stOk 0 (leBytes 1 (k % 2) ++ zerosB 3 ++ leBytes 4 k ++ zerosB 3) s)

end Sys2Proof.Machine
end

