-- ==== Sys2Proof/Machine/Models.lean ====
section
/-! DEFINITION. Model images (07 R194 to R204): the container and its checks, registering, activating, the load at the boundary, retiring. -/
namespace Sys2Proof.Machine

/-! ### The container (07 R194 to R198) -/

/-- Offset and length of section `k` of container `c`. -/
def secAt (c : List Byte) (k : Nat) : Nat × Nat := (leAt c (64 + 16 * k) 8, leAt c (72 + 16 * k) 8)
/-- The bytes of section `k`. -/
def section_ (c : List Byte) (k : Nat) : List Byte := sliceB c (secAt c k).1 (secAt c k).2

/-- Magic, HDR_LEN and the reserved fields of the header (07 Table 7-3); the offsets as R194 lays them. -/
def headerOk (c : List Byte) : Bool :=
  sliceB c 0 8 == [0x53, 0x4B, 0x39, 0x49, 0x4D, 0x47, 0x00, 0x01] && leAt c 10 2 == 512 && decide (leAt c 12 4 < 2) &&
    sliceB c 21 3 == zerosB 3 && sliceB c 232 280 == zerosB 280 && sigOffset c % 64 == 0 && chunkOffset c % 64 == 0 &&
    decide (sigOffset c + 96 ≤ chunkOffset c) && decide (1 ≤ chunkCount c) && decide (chunkOffset c ≤ c.length) &&
    (List.range 7).all (fun k => (secAt c k).2 == 0 || (decide (512 ≤ (secAt c k).1) && decide ((secAt c k).1 + (secAt c k).2 ≤ sigOffset c)))

/-- Ciphertext and tag of chunk `i`. -/
def chunkBytes' (c : List Byte) (i : Nat) : List Byte := ((c.drop (chunkOffset c + i * 1048592)).take 1048592)
/-- Plaintext bytes of the payload. -/
def payloadLen (c : List Byte) : Nat := c.length - chunkOffset c - 16 * chunkCount c

/-- The nonce and additional data of chunk `i`. -/
def chunkNonce (c : List Byte) (i : Nat) : List Byte := sliceB c 44 4 ++ (leBytes 8 i).reverse
def chunkAad (c : List Byte) (i : Nat) : List Byte := keyIdOf c ++ (leBytes 8 i).reverse

/-- A layer table entry (07 Table 7-4, 08 R236). -/
def layerOf (t : List Byte) (j : Nat) : LayerInfo :=
  let o := 64 + 64 * j
  { qHeads := leAt t o 2, kvHeads := leAt t (o + 2) 2, hdim := leAt t (o + 4) 1, moe := bitOf (leAt t (o + 5) 1) 0
    sliding := bitOf (leAt t (o + 5) 1) 1, experts := leAt t (o + 6) 2, topk := leAt t (o + 8) 1, window := leAt t (o + 12) 4
    streamTiles := leAt t (o + 16) 4, scale := BitVec.ofNat 32 (leAt t (o + 24) 4), kScale := BitVec.ofNat 32 (leAt t (o + 28) 4)
    vScale := BitVec.ofNat 32 (leAt t (o + 32) 4) }

/-- A positive finite FP32 value. -/
def fpPositive (w : W32) : Bool := decide (0 < w.toNat) && decide (w.toNat < 0x7F800000)

/-- The limits of 06 Table 6-9 and the conditions of 07 Table 7-4 on a layer entry. -/
def layerOk (t : List Byte) (j : Nat) : Bool :=
  let l := layerOf t j
  let o := 64 + 64 * j
  decide (1 ≤ l.qHeads) && decide (l.qHeads ≤ 256) && decide (1 ≤ l.kvHeads) && l.qHeads % max 1 l.kvHeads == 0 && decide (l.hdim < 5) &&
    decide (leAt t (o + 5) 1 < 4) && decide (1 ≤ l.experts) && decide (l.experts ≤ 256) && (l.moe || l.experts == 1) && decide (1 ≤ l.topk) &&
    decide (l.topk ≤ 8) && (if l.sliding then decide (1 ≤ l.window) && decide (l.window ≤ 131072) else l.window == 0) &&
    fpPositive l.kScale && fpPositive l.vScale && sliceB t (o + 9) 3 == zerosB 3 && sliceB t (o + 20) 4 == zerosB 4 && sliceB t (o + 36) 28 == zerosB 28

/-- The image a container spells, its payload and sheets aside. -/
def imageOf (c : List Byte) (store : Nat) : Image :=
  let t := section_ c 0
  let layers := leAt t 0 2
  let dl := leAt t 25 1
  let ops (l : List Byte) : List OpWord := (List.range (l.length / 16)).map (fun i => BitVec.ofNat 128 (leAt l (16 * i) 16))
  { digest := Config.sha384 (c.take (sigOffset c + 96)), members := leAt c 16 4, pensFor := leAt c 20 1, vocab := leAt t 4 4
    modelWidth := leAt t 8 4, ffWidth := leAt t 12 4, cpt := leAt t 16 4, rowCap := leAt t 20 2, fixedSlots := leAt t 22 1
    groupSlots := leAt t 23 1, draftWays := leAt t 24 1, draftLayers := dl, draftCpt := leAt t 28 4, draftModel := bitOf (leAt c 12 4) 0
    layers := (List.range (layers + dl)).map (layerOf t), program := ops (section_ c 1), draftProgram := ops (section_ c 2)
    binding := (List.range 256).map (fun i => BitVec.ofNat 64 (leAt (section_ c 3) (8 * i) 8))
    constants := (List.range 1024).map (fun i => BitVec.ofNat 32 (leAt (section_ c 4) (4 * i) 4))
    descriptors := (List.range ((section_ c 5).length / 16)).map (fun i => sliceB (section_ c 5) (16 * i) 16)
    payload := [], store := store, ownSheets := [], understudySheets := [], hbmBase := 0 }

/-! ### Tile descriptors (07 R196) -/

def tdMember (d : List Byte) : Nat := bitsOf (leAt d 0 4) 17 0
def tdPen (d : List Byte) : Nat := bitsOf (leAt d 0 4) 23 18
def tdKind (d : List Byte) : Nat := bitsOf (leAt d 0 4) 26 24
def tdDest (d : List Byte) : Nat := leAt d 4 4
def tdCount (d : List Byte) : Nat := leAt d 8 4
def tdSrc (d : List Byte) : Nat := leAt d 12 4 * 64
/-- Bytes a descriptor takes from the payload: tiles in engine form, or 64-byte units. -/
def tdBytes (d : List Byte) : Nat := if tdKind d < 2 then tdCount d * 34816 else tdCount d * 64
/-- Its sheets: bodies two to a sheet and sidebands 32 to a sheet, or 64 KiB of other data (07 R185). -/
def tdSheets (d : List Byte) : Nat := if tdKind d < 2 then ceilDiv (tdCount d) 2 + ceilDiv (tdCount d) 32 else ceilDiv (tdBytes d) 65536

/-- A descriptor lies inside its source and its destination. -/
def tdOk (img : Image) (payload : Nat) (d : List Byte) : Bool :=
  decide (leAt d 0 4 < 2 ^ 27) && decide (tdKind d ≤ 4) && (tdMember d == 0x3FFFF || decide (tdMember d < img.members)) &&
    decide (tdPen d < img.pensFor) && decide (tdSrc d + tdBytes d ≤ payload) &&
    (if tdKind d = 0 || tdKind d = 4 then decide (tdDest d * 64 + tdBytes d ≤ img.fixedSlots * 65536)
     else if tdKind d = 1 then
       decide (tdDest d / 65536 < img.layers.length - img.draftLayers) &&
         decide (tdDest d % 65536 + tdCount d ≤ (img.layers[tdDest d / 65536]?).elim 0 (·.streamTiles))
     else if tdKind d = 2 then
       decide (tdDest d / 2 ^ 26 < img.draftWays) && bitsOf (tdDest d) 25 14 == 0 && decide (tdDest d % 2 ^ 14 * 64 + tdBytes d ≤ 0xC0000)
     else true)

/-! ### A share's sheets (07 R185, R186, R204): for each pen the tiles of its descriptors in their order, bodies then sidebands; then the other data -/

/-- Whether a descriptor places tiles. -/
def tdTiles (d : List Byte) : Bool := decide (tdKind d < 2)
/-- The tiles of pen `p`'s part of a share, and the sheets they take. -/
def penTiles (ds : List (List Byte)) (p : Nat) : Nat := sumOn tdCount (ds.filter (fun d => tdTiles d && tdPen d == p))
def penSheets (ds : List (List Byte)) (p : Nat) : Nat := ceilDiv (penTiles ds p) 2 + ceilDiv (penTiles ds p) 32
/-- Where the sheets of pen `p` begin in the share, and how many sheets the share has. -/
def penBase (ds : List (List Byte)) (p : Nat) : Nat := sumOn (penSheets ds) (List.range p)
def shareCount (ds : List (List Byte)) : Nat := penBase ds 64 + sumOn tdSheets (ds.filter (fun d => !tdTiles d))
/-- The number, within its pen's part, of the first tile of descriptor `k`; and where the sheets of other data of descriptor `k` begin. -/
def firstTile (ds : List (List Byte)) (k : Nat) : Nat := penTiles (ds.take k) (tdPen (ds.getD k []))
def otherBase (ds : List (List Byte)) (k : Nat) : Nat := penBase ds 64 + sumOn tdSheets ((ds.take k).filter (fun d => !tdTiles d))

/-- The MMA operations of an image's program that run in the section of layer `j` (none: anywhere). -/
def sectionMma (img : Image) (j : Option Nat) : List OpWord :=
  (img.program.foldl (fun (a : Option Nat × List OpWord) o =>
    if opBits o 7 0 = 0x01 then (some (opBits o 39 32), a.2)
    else if opBits o 7 0 = 0x10 && (j.isNone || a.1 == j) then (a.1, a.2 ++ [o]) else a) (none, [])).2

/-- The format of the tile that a program finds at slate offset `off`: that of the MMA whose weights cover it, else of an MMA that selects weights by
expert; 0 where there is none (log entry 151). -/
def tileFormat (img : Image) (j : Option Nat) (off : Nat) : Nat :=
  let ops := sectionMma img j
  let covers (o : OpWord) : Bool :=
    let w := opBits o 71 54 * 64
    !bitOf o.toNat 10 && opBits o 75 74 == 0 && decide (w ≤ off) && decide (off < w + opBits o 107 98 * opBits o 117 108 * 34816)
  match ops.find? covers with
  | some o => opFb o
  | none => (ops.find? (fun o => bitOf o.toNat 10)).elim 0 opFb

/-- The formats of the tiles of pen `p`'s part, in order. -/
def penFormats (img : Image) (ds : List (List Byte)) (p : Nat) : List Nat :=
  (ds.filter (fun d => tdTiles d && tdPen d == p)).flatMap (fun d => (List.range (tdCount d)).map (fun k =>
    if tdKind d = 0 then tileFormat img none (tdDest d * 64 + k * 34816)
    else tileFormat img (some (tdDest d / 65536)) (img.fixedSlots * 65536 + (tdDest d % 65536 + k) * 34816)))

/-- The transform of a body sheet whose tiles have formats `l` (07 R186). -/
def bodyTransform (l : List Nat) : Nat := if l.isEmpty then 0 else if l.all (· == 9) then 1 else if l.all (· == 1) then 2 else 0

/-- The headers of a run of tile sheets: bodies, then sidebands, of tiles numbered from `first` on. -/
def tileHeads (slot role pen first : Nat) (formats : List Nat) : List TileHead :=
  (List.range (ceilDiv formats.length 2)).map (fun k => ⟨bodyTransform ((formats.drop (2 * k)).take 2), 0, slot, pen, role, first + 2 * k⟩) ++
    (List.range (ceilDiv formats.length 32)).map (fun k => ⟨0, 1, slot, pen, role, first + 32 * k⟩)

/-- The contents of a run of tile sheets (07 R185). -/
def tileSheets (tiles : List (List Byte)) : List (List Byte) :=
  (List.range (ceilDiv tiles.length 2)).map (fun k => padTo 65536 (((tiles.drop (2 * k)).take 2).flatMap (·.take 32768))) ++
    (List.range (ceilDiv tiles.length 32)).map (fun k => padTo 65536 (((tiles.drop (32 * k)).take 32).flatMap (·.drop 32768)))

/-- The headers of a share's sheets. -/
def shareHeads (img : Image) (ds : List (List Byte)) (slot role : Nat) : List (Option TileHead) :=
  (List.range 64).flatMap (fun p => (tileHeads slot role p 0 (penFormats img ds p)).map some) ++
    (ds.filter (fun d => !tdTiles d)).flatMap (fun d => List.replicate (tdSheets d) none)

/-- The contents of a share's sheets. -/
def shareContents (ds : List (List Byte)) (payload : List Byte) : List (List Byte) :=
  (List.range 64).flatMap (fun p => tileSheets ((ds.filter (fun d => tdTiles d && tdPen d == p)).flatMap (fun d =>
    (List.range (tdCount d)).map (fun k => sliceB payload (tdSrc d + k * 34816) 34816)))) ++
    (ds.filter (fun d => !tdTiles d)).flatMap (fun d => (List.range (tdSheets d)).map (fun i =>
      padTo 65536 (sliceB payload (tdSrc d + i * 65536) (min 65536 (tdBytes d - i * 65536)))))

/-! ### The checks of registration (07 R200 steps 2 to 4) -/

/-- The HBM area as its descriptors fill it. -/
def hbmArea (ds : List (List Byte)) (payload : List Byte) : List Byte :=
  (ds.filter (fun d => tdKind d == 3 && tdMember d == 0x3FFFF)).foldl (fun l d => patchB l (tdDest d * 64) (sliceB payload (tdSrc d) (tdBytes d))) []

/-- The tokeniser block (10 R256). -/
def tokBlockFits (vocab : Nat) (h : List Byte) : Bool :=
  let m := leAt h 8 1
  let entry (i : Nat) : Nat := leAt h 24 8 + 16 * i
  let live (i : Nat) : Bool := leAt h (entry i) 4 != 0xFFFFFFFF
  sliceB h 0 4 == [0x54, 0x4F, 0x4B, 0x42] && leAt h 4 4 == vocab && decide (1 ≤ m) && decide (m ≤ 22) && sliceB h 9 3 == zerosB 3 &&
    decide (leAt h 12 4 ≤ 4096) && leAt h 16 8 % 64 == 0 && leAt h 24 8 % 64 == 0 && sliceB h 40 24 == zerosB 24 && sliceB h 94 2 == zerosB 2 &&
    sliceB h 304 720 == zerosB 720 && (List.range 30).all (fun i => leAt h (64 + i) 1 < 16) && (List.range 128).all (fun i => leAt h (96 + i) 1 < 16) &&
    (List.range (2 ^ m)).any (fun i => !live i) &&
    (List.range (2 ^ m)).all (fun i => !live i || (decide (leAt h (entry i) 4 < vocab) && decide (leAt h (entry i + 4) 4 < vocab) &&
      decide (leAt h (entry i + 12) 4 < vocab))) &&
    (List.range (leAt h 12 4)).all (fun i => leAt h (leAt h 32 8 + 4 * i) 4 < vocab) &&
    (List.range 256).all (fun i => leAt h (1024 + 4 * i) 4 < vocab) &&
    (List.range vocab).all (fun v =>
      let a := leAt h 16 8 + 128 * v
      bitOf (leAt h (a + 65) 1) 0 || leAt h (a + 64) 1 != 0)

/-- The draft program (09 R239): no remote operation, and LOGITS over the whole vocabulary. -/
def draftOk (img : Image) : Bool :=
  let ops := img.draftProgram
  let slices := ops.filter (fun o => opBits o 7 0 == 0x60)
  ops.isEmpty || (!ops.any (fun o => [0x40, 0x41, 0x42].contains (opBits o 7 0)) &&
    (List.range img.vocab).all (fun v => slices.any (fun o => decide (opBits o 71 54 ≤ v) && decide (v < opBits o 71 54 + opLen o))))

/-- Whether a member's page table has room for the image's lists: LAYERS × LISTS is at most 8,184 (08 R211), LISTS being the most lists that any
layer has on this member. -/
def pageTableFits (s : State) (f : Nat) (img : Image) : Bool := decide (img.layers.length * s.listsFor f img ≤ 8184)

/-- The limits of Table 6-9 and the conditions of 07 R200 step 4. -/
def limitsOk (s : State) (f : Nat) (c : List Byte) (img : Image) : Bool :=
  let t := section_ c 0
  let main := leAt t 0 2
  let x := s.fold f
  let wide (n top : Nat) : Bool := decide (128 ≤ n) && decide (n ≤ top) && n % 128 == 0
  decide (1 ≤ main) && decide (main ≤ 160) && decide (main + img.draftLayers ≤ 160) && wide img.modelWidth 32768 && wide img.ffWidth 131072 &&
    decide (1 ≤ img.vocab) && decide (img.vocab ≤ 262144) && decide (img.program.length ≤ 65536) && decide (img.draftProgram.length ≤ 65536) &&
    decide (16 ≤ img.rowCap) && decide (img.rowCap ≤ 16384) && decide (1 ≤ img.fixedSlots) && sliceB t 2 2 == zerosB 2 && sliceB t 26 2 == zerosB 2 &&
    sliceB t 32 32 == zerosB 32 && (List.range (main + img.draftLayers)).all (layerOk t) && (img.draftModel || (section_ c 2).isEmpty) && draftOk img &&
    img.members == s.droveSize f && decide (1 ≤ img.pensFor) && decide (img.pensFor ≤ x.penList.length) &&
    decide (img.fixedSlots + 2 * img.groupSlots ≤ 96) && pageTableFits s f img &&
    img.layers.all (fun l => (img.groupSlots != 0 || l.streamTiles == 0) && decide (l.streamTiles * 34816 ≤ img.groupSlots * 65536)) &&
    decide (img.draftWays ≤ x.wayList.length) && img.binding.all (fun w => decide (w.toNat % 8 ≤ 4)) &&
    img.descriptors.all (tdOk img (payloadLen c))

/-- Whether a descriptor is of the own share, and of the understudy share (07 R204). -/
def ownPart (s : State) (f : Nat) (d : List Byte) : Bool := tdMember d == 0x3FFFF || tdMember d == s.memberIndex f
def understudyPart (s : State) (f : Nat) (d : List Byte) : Bool :=
  decide (2 ≤ s.droveSize f) && tdMember d == (s.memberIndex f + 1) % s.droveSize f

/-- Whether the chunk's plaintext span touches a descriptor. -/
def chunkUsed (ds : List (List Byte)) (i : Nat) : Bool :=
  ds.any (fun d => decide (tdSrc d < (i + 1) * 1048576) && decide (i * 1048576 < tdSrc d + tdBytes d))

/-- The payload, chunk by chunk, from the first: those no descriptor needs read as zeros (07 R200 step 6). -/
def decryptChunks (c key : List Byte) (ds : List (List Byte)) : Nat → Nat → Option (List Byte)
  | 0, _ => some []
  | n + 1, i =>
    let b := chunkBytes' c i
    let rest := decryptChunks c key ds n (i + 1)
    if !chunkUsed ds i then rest.map (zerosB (b.length - 16) ++ ·)
    else if Config.sha384 b != sliceB (section_ c 6) (48 * i) 48 then none
    else match Config.gcmOpen key (chunkNonce c i) (chunkAad c i) b with
      | none => none
      | some p => rest.map (p ++ ·)

/-! ### MODEL_REGISTER (07 R200) -/

/-- A weight sheet written in T2: tiles in Scroll tile form, other data plain (02 R46, 07 R185). -/
def weightT2 (f : Nat) (h : Option TileHead) (l : List Byte) (s : State) : Tried (Nat × State) :=
  andThen (newSheet f 2 2 none false false s) (fun r =>
    let s := pokeSheet f r.1 0 l r.2
    let e := (s.fold f).sheet r.1
    .ok (r.1, putEntry f r.1 (if h.isSome then { e with tile := h, comp := 3, len := formLen 3 0 h l } else e) s))

/-- Weight sheets written to T2, given back where one fails. -/
def weightSheets (f : Nat) : List (Option TileHead × List Byte) → State → Tried (List Nat × State)
  | [], s => .ok ([], s)
  | l :: t, s => andThen (weightT2 f l.1 l.2 s) (fun r =>
      match weightSheets f t r.2 with
      | .ok q => .ok (r.1 :: q.1, q.2)
      | .error e => .error (e.1, discardSheet f r.1 e.2))

/-- The own and the understudy share of an image on this member, as descriptors (07 R204). -/
def ownShare (s : State) (f : Nat) (img : Image) : List (List Byte) := img.descriptors.filter (ownPart s f)
def understudyShare (s : State) (f : Nat) (img : Image) : List (List Byte) := img.descriptors.filter (understudyPart s f)

/-- Steps 2 to 5 of 07 R200 on container `c`: the image; the flag says that the registration waits for a rebuild. -/
def registerChecks (f store : Nat) (c : List Byte) (s : State) : Tried (Image × Bool × State) :=
  let x := s.fold f
  if !headerOk c then .error (stBadDescriptor, s)
  else if leAt c 8 2 != 1 then .error (stVersion, s)
  else match (x.key.ownerKeys.find? (fun k => k.1 == keyIdOf c)).map (·.2) with
    | none => .error (stAuthFail, s)
    | some owner =>
      let img := imageOf c store
      let n := shareCount (ownShare s f img)
      let m := shareCount (understudyShare s f img)
      if !x.key.imageKeys.any (fun k => k.1 == keyIdOf c) then .error (stAuthFail, s)
      else if Config.sha384 owner != sliceB c 176 48 || !Config.ecdsaOk owner (c.take (sigOffset c)) (sliceB c (sigOffset c) 96) then
        .error (stAuthFail, s)
      else if !limitsOk s f c img then .error (stBadDescriptor, s)
      else if s.room f store < n || s.room f 2 < m + (if store = 2 then n else 0) then
        .error (stQuota, refuseQuota f (if s.room f store < n then store else 2) s)
      else if store = 3 && x.ns.state = nsReadOnly then .error (stFlashReadOnly, s)
      else if store = 3 && (x.ns.state = nsForming || x.ns.state = nsReleasing) then .error (stQuota, refuseQuota f 3 s)
      else .ok (img, store == 3 && x.ns.state == nsRebuilding, s)

/-- The payload of container `c` as far as the member's shares need it (07 R200 step 6); what its tokeniser block breaks is step 4's (10 R256). -/
def registerPayload (f : Nat) (c : List Byte) (img : Image) (s : State) : Tried (List Byte) :=
  let ds := ownShare s f img ++ understudyShare s f img
  match ((s.fold f).key.imageKeys.find? (fun k => k.1 == keyIdOf c)).bind (fun k => decryptChunks c k.2 ds (chunkCount c) 0) with
  | none => .error (stAuthFail, s)
  | some payload => if tokBlockFits img.vocab (hbmArea (ownShare s f img) payload) then .ok payload else .error (stBadDescriptor, s)

/-- Indices for sheets that are written to flash: the lowest free ones, promised one by one (02 R508). -/
def promiseSheets (f slot : Nat) : List (Option TileHead × List Byte) → State → Tried State
  | [], s => .ok s
  | l :: t, s => match s.freeIndex f with
    | none => .error (stQuota, refuseQuota f 7 s)
    | some i => promiseSheets f slot t (s.modFold f (fun x => { x with registering := modN x.registering slot (fun r =>
        { r with left := r.left ++ [⟨i, l.1, l.2, none⟩], image := { r.image with ownSheets := r.image.ownSheets ++ [i] } }) }))

/-- The COMP and SHUF of a weight sheet that is written straight into T3. -/
def weightForm (s : State) (f : Nat) (h : Option TileHead) : Nat × Nat :=
  if h.isSome then (3, 0) else (1, bitsOf (s.act (rTierShuffle f)) 5 4)

/-- The sheets of a registration that flash has not taken yet offered to it, in order, as far as it takes them (02 R36, 07 R200 step 7). -/
def pushSheets (f slot : Nat) : List RegSheet → State → State
  | [], s => s
  | r :: t, s =>
    if r.slot.isSome then pushSheets f slot t s else
    let fm := weightForm s f r.tile
    let len := formLen fm.1 fm.2 r.tile r.content
    match storeForm s f len (some r.index) with
    | none => s
    | some (s, k) => pushSheets f slot t (s.modFold f (fun x => { x with registering := modN x.registering slot (fun g =>
        { g with left := g.left.map (fun q => if q.index = r.index then { q with slot := some (k, len) } else q) }) }))

/-- A sheet whose write is durable enters the map (02 R36, R43 step 5). -/
def commitRegSheet (f slot : Nat) (r : RegSheet) (s : State) : State :=
  match r.slot with
  | none => s
  | some (k, len) =>
    let fm := weightForm s f r.tile
    let e : Sheet := { Sheet.unbacked with tier := 3, keygen := s.keygen f, comp := fm.1, shuf := fm.2, kind := 2, refs := 1, len := len
                                           loc := k * 1280, lastAccess := s.now, lastRead := (s.fold f).stepNo, tile := r.tile }
    noteThresholds f s (pokeSheet f r.index 0 r.content (putEntry f r.index e (s.modFold f (fun x => { x with
      registering := modN x.registering slot (fun g => { g with left := g.left.filter (fun q => q.index != r.index) }) }))))

/-- Registration `g` undone: every sheet it has written discarded, its flash slots given back, the slot empty (07 R200). -/
def dropRegistration (f slot : Nat) (g : Registration) (s : State) : State :=
  let held := g.left.filterMap (fun r => r.slot.map (·.1))
  let s := s.modFold f (fun x => { x with
    registering := delN x.registering slot
    ns := held.foldl (fun x k => returnSlot f k x) { x.ns with writes := x.ns.writes.filter (fun o => !g.left.any (fun r => o.index == some r.index)) } })
  discardAll f ((g.image.ownSheets ++ g.image.understudySheets).filter (fun i => !g.left.any (fun r => r.index == i))) s

/-- A registration ended with a failure. -/
def failRegistration (f slot : Nat) (st : W16) (s : State) : State :=
  match getN (s.fold f).registering slot with
  | none => s
  | some g => complete opModelRegister g.desc st 0 [] (dropRegistration f slot g s)

/-- A registration whose sheets are all stored: the slot is recorded, the COMPLETION carries the sheets written. -/
def finishRegistration (f slot : Nat) (s : State) : State :=
  match getN (s.fold f).registering slot with
  | none => s
  | some g =>
    complete opModelRegister g.desc stOk 0 (leBytes 4 g.total)
      (s.modFold f (fun x => { x with registering := delN x.registering slot, images := setN x.images slot g.image }))

/-- What a registration that waits for flash does next: a read-only namespace ends it, sheets are offered, durable ones enter the map. -/
def stepRegistration (f slot : Nat) (s : State) : State :=
  if (s.fold f).ns.state = nsReadOnly then failRegistration f slot stFlashReadOnly s else
  let left (s : State) : List RegSheet := ((getN (s.fold f).registering slot).map (·.left)).getD []
  let s := (left s).foldl (fun s r => if (s.fold f).ns.writes.any (fun o => o.index == some r.index) then s else commitRegSheet f slot r s) s
  let s := pushSheets f slot (left s) s
  if (left s).isEmpty then finishRegistration f slot s else s

/-- Steps 6 and 7 of 07 R200 for the registration in `slot`, its container once more read for the chunks. -/
def runRegistration (f slot : Nat) (s : State) : State :=
  match getN (s.fold f).registering slot with
  | none => s
  | some g =>
    let c := match s.hostRead f (descNum g.desc 16 6) (descNum g.desc 24 8) with
      | .ok l => g.container.take (sigOffset g.container + 96) ++ l.drop (sigOffset g.container + 96)
      | .error _ => g.container
    let s := s.modFold f (fun x => { x with registering := modN x.registering slot (fun g => { g with begun := true }) })
    match registerPayload f c g.image s with
    | .error e => failRegistration f slot e.1 e.2
    | .ok payload =>
      let own := ownShare s f g.image
      let under := understudyShare s f g.image
      let ownList := (shareHeads g.image own slot 0).zip (shareContents own payload)
      let put (a b : List Nat) (s : State) : State := s.modFold f (fun x => { x with registering := modN x.registering slot (fun g =>
        { g with image := { g.image with ownSheets := a, understudySheets := b }, total := shareCount own + shareCount under }) })
      match andThen (if g.image.store = 2 then weightSheets f ownList s else .ok ([], s)) (fun a =>
          match weightSheets f ((shareHeads g.image under slot 1).zip (shareContents under payload)) a.2 with
          | .ok b => .ok (a.1, b.1, b.2)
          | .error e => .error (e.1, discardAll f a.1 e.2)) with
      | .error e => failRegistration f slot e.1 e.2
      | .ok r =>
        let s := put r.1 r.2.1 r.2.2
        if g.image.store = 2 then finishRegistration f slot s
        else match promiseSheets f slot ownList s with
          | .error e => failRegistration f slot e.1 e.2
          | .ok s => stepRegistration f slot s

/-- The registrations of a fold that wait for flash go on as far as they can. -/
def settleRegistrations (f : Nat) (s : State) : State :=
  (s.fold f).registering.foldl (fun s g =>
    if g.2.begun then stepRegistration f g.1 s
    else if (s.fold f).ns.state = nsRebuilding then s
    else if (s.fold f).ns.state = nsReadOnly then failRegistration f g.1 stFlashReadOnly s
    else runRegistration f g.1 s) s

/-- MODEL_REGISTER (07 R200). With its share in flash it ends once the writes are durable, and waits while the namespace rebuilds. -/
def execModelRegister (d : Desc) (s : State) : Host.Outcome State Fault Refusal :=
  .next (serve s (descriptor opModelRegister (bodyReserved d [(16, 21), (24, 33)]) false d fun s =>
    let f := s.descFold d
    let slot := descByte d 32
    let store := descByte d 33
    if 31 < slot || !(store == 2 || (store == 3 && (s.fold f).ns.state != nsAbsent)) then .error (stBadDescriptor, s)
    else if hasN (s.fold f).images slot || hasN (s.fold f).registering slot then .error (stBusy, s)
    else match s.hostRead f (descNum d 16 6) (descNum d 24 8) with
      | .error e => .error (e, s)
      | .ok c => andThen (registerChecks f store c s) (fun r =>
        let g : Registration := { desc := d, container := c, image := r.1, begun := false, left := [], total := 0 }
        let s := r.2.2.modFold f (fun x => { x with registering := setN x.registering slot g })
        .ok (if r.2.1 then s else runRegistration f slot s))))

/-! ### The flash rows that a registration waits for (07 R200, 12 R317) -/

/-- A flash row on fold `f`, and the registrations that it lets go on. -/
def flashRow (f : Nat) (go : State → State) (s : State) : Host.Outcome State Fault Refusal :=
  .next (serve s (fun s => settleRegistrations f (go s)))

/-- NAND_PROGRAM_COMPLETE (12 R317). -/
def execNandProgramComplete (f : Nat) (s : State) : Host.Outcome State Fault Refusal := flashRow f (programComplete f) s

/-- NAND_PROGRAM_FAIL (12 R323). -/
def execNandProgramFail (f u : Nat) (s : State) : Host.Outcome State Fault Refusal := flashRow f (programFail f u) s

/-- NAND_ERASE_FAIL (12 R313, R323, R324). -/
def execNandEraseFail (f b u : Nat) (s : State) : Host.Outcome State Fault Refusal := flashRow f (eraseFail f b u) s

/-- NAND_ERASE_COMPLETE (12 R322). -/
def execNandEraseComplete (f b : Nat) (s : State) : Host.Outcome State Fault Refusal := flashRow f (eraseComplete f b) s

/-- NAMESPACE_REBUILD (12 R313, R317). -/
def execNamespaceRebuild (f : Nat) (s : State) : Host.Outcome State Fault Refusal := flashRow f (rebuildDone f) s

/-! ### MODEL_ACTIVATE (07 R201) -/

/-- Pinned slots of an image at a window depth (07 R188). -/
def Image.pinnedSlots (x : Image) (depth : Nat) : Nat := x.fixedSlots + (if x.groupSlots = 0 then 0 else depth * x.groupSlots)

/-- The T0 sheets of pen `n`, least recently accessed first. -/
def poolOf (x : Fold) (n : Nat) : List (Nat × Sheet) :=
  sortBy (fun a b => decide (a.2.lastAccess ≤ b.2.lastAccess)) (x.sheets.filter (fun p => p.2.tier == 0 && !p.2.wet && p.2.loc % 64 == n))

/-- Pool sheets that a pool from slot `p` cannot hold. -/
def poolExcess (x : Fold) (p : Nat) : Nat := sumOn (fun n => (poolOf x n).length - (96 - p)) x.penList

/-- A committed window depth takes effect at the fold's next MODEL_ACTIVATE, which reads it (07 R188, R205). -/
def takeDepth (f : Nat) (s : State) : State := applyPend (fun k => k == rScrWindowDepth f) s

/-- MODEL_ACTIVATE (07 R201 steps 1 and 2). -/
def execModelActivate (d : Desc) (s : State) : Host.Outcome State Fault Refusal :=
  .next (serve s (descriptor opModelActivate (bodyReserved d [(32, 32), (36, 39)]) false d fun s =>
    let f := s.descFold d
    match (if descByte d 32 < 32 then s.image f (descByte d 32) else none) with
    | none => .error (stBadDescriptor, s)
    | some img =>
      let s := takeDepth f s
      let p := img.pinnedSlots (s.act (rScrWindowDepth f))
      if (s.fold f).drain.isSome then .error (stBusy, s)
      else if 96 < p then .error (stBadDescriptor, s)
      else if s.room f 2 < poolExcess (s.fold f) p then .error (stQuota, refuseQuota f 2 s)
      else startDrain f 1 (descNum d 36 4) d (descByte d 32) s))

/-- The pool of pen `n` made to start at slot `p`: the least recently accessed sheets that it no longer holds go to T2, never a wet one
(02 R35); those that stay below slot `p` take free slots of the new pool. -/
def packPool (f p n : Nat) (s : State) : State :=
  let x := s.fold f
  let pool := x.sheets.filter (fun p => p.2.tier == 0 && p.2.loc % 64 == n)
  let out := (poolOf x n).take (pool.length - (96 - p))
  let stay := pool.filter (fun e => !out.any (fun o => o.1 == e.1))
  let free := ((List.range (96 - p)).map (p + ·)).filter (fun k => !stay.any (fun e => e.2.loc / 64 == k))
  let s := out.foldl (fun s e => (moveNow f e.1 2 (s.kvPen f e.1) (settleMig f e.1 s)).getD s) s
  ((stay.filter (fun e => e.2.loc / 64 < p)).zip free).foldl (fun s e => putEntry f e.1.1 { e.1.2 with loc := n + e.2 * 64 } s) s

/-- T1 sheets in ways that become pinned, moved to T2. -/
def clearWays (f : Nat) (ways : List Nat) (s : State) : State :=
  ((s.fold f).sheets.filter (fun e => e.2.tier == 1 && ways.contains (e.2.loc % 64))).foldl (fun s e => (moveNow f e.1 2 (s.kvPen f e.1) s).getD s) s

/-- A stored sheet's content for a load, with its poisoned 64-byte units. A form that cannot be read back, or a tile sheet that is not the one
`head` expects at that place, is an uncorrectable error: ST_POISON (07 R187). -/
def loadSheet (f : Nat) (head : Option TileHead) (i : Nat) (s : State) : Tried (List Byte × List Nat) :=
  let e := (s.fold f).sheet i
  match (if head.isSome && e.tile != head then none else readBack f i s) with
  | none => .error (stPoison, errorUncorrected (some f) 4 e.tier e.kind (s.sheetNo f i) 0 s)
  | some s => .ok (s.read (s.sheetOffset f i) 65536, badUnits s (s.sheetOffset f i) 65536)

/-- The contents of a share's sheets `l`. -/
def loadShare (f : Nat) (heads : List (Option TileHead)) (l : List Nat) (s : State) : Tried (List (List Byte × List Nat)) :=
  (heads.zip l).foldl (fun t e => andThen t (fun acc => andThen (loadSheet f e.1 e.2 s) (fun r => .ok (acc ++ [r])))) (.ok [])

/-- Bytes `o` to `o + n − 1` of a loaded sheet, and whether a unit of theirs is poisoned. -/
def loadedPart (c : List Byte × List Nat) (o n : Nat) : List Byte × Bool :=
  (sliceB c.1 o n, c.2.any (fun u => decide (o < u * 64 + 64) && decide (u * 64 < o + n)))

/-- Tile `t` of pen `p`'s part of a loaded share, in engine form (07 R183, R185). -/
def shareTile (ds : List (List Byte)) (c : List (List Byte × List Nat)) (p t : Nat) : List Byte × Bool :=
  let body := loadedPart (c.getD (penBase ds p + t / 2) ([], [])) (t % 2 * 32768) 32768
  let side := loadedPart (c.getD (penBase ds p + ceilDiv (penTiles ds p) 2 + t / 32) ([], [])) (t % 32 * 2048) 2048
  (body.1 ++ side.1, body.2 || side.2)

/-- A tile of streamed layer `j` put into the expanded sheets of its pen, listed from `base` on. -/
def placeTile (f : Nat) (img : Image) (base j p t : Nat) (tile : List Byte × Bool) (s : State) : State :=
  let tiles := img.layers[j]?.elim 0 (·.streamTiles)
  let sheets := getND (s.fold f).expanded (base + j * 64 + p) []
  putBytes (s.sheetOffset f (sheets.getD (ceilDiv tiles 2 + t / 32) 0) + t % 32 * 2048) (tile.1.drop 32768) tile.2
    (putBytes (s.sheetOffset f (sheets.getD (t / 2) 0) + t % 2 * 32768) (tile.1.take 32768) tile.2 s)

/-- Descriptor `k` of a loaded share placed (07 R196, R201 step 3). -/
def placePart (f : Nat) (img : Image) (ds : List (List Byte)) (c : List (List Byte × List Nat)) (k : Nat) (s : State) : State :=
  let d := ds.getD k []
  let pen := (s.fold f).penList.getD (tdPen d) 0
  if tdTiles d then
    (List.range (tdCount d)).foldl (fun s i =>
      let t := shareTile ds c (tdPen d) (firstTile ds k + i)
      if tdKind d = 0 then putBytes (slateAt pen (tdDest d * 64 + i * 34816)) t.1 t.2 s
      else placeTile f img 0 (tdDest d / 65536) (tdPen d) (tdDest d % 65536 + i) t s) s
  else
    (List.range (tdSheets d)).foldl (fun s i =>
      let r := loadedPart (c.getD (otherBase ds k + i) ([], [])) 0 (min 65536 (tdBytes d - i * 65536))
      let o := tdDest d * 64 + i * 65536
      let a := if tdKind d = 4 then slateAt pen o
        else if tdKind d = 3 then img.hbmBase + o
        else commonsAt ((s.fold f).pinnedWays.getD (tdDest d / 2 ^ 26) 0) (tdDest d % 2 ^ 14 * 64 + i * 65536)
      putBytes a r.1 r.2 s) s

/-- Every part of the own share placed. -/
def placeParts (f slot : Nat) (img : Image) (s : State) : Tried State :=
  let ds := ownShare s f img
  andThen (loadShare f (shareHeads img ds slot 0) img.ownSheets s) fun c =>
    .ok ((List.range ds.length).foldl (fun s k => placePart f img ds c k s) s)

/-- The expanded sheets of an image's streamed layers, on the channels of each pen it is compiled for, listed from `base` on (07 R190, R193). -/
def expandAt (f slot role : Nat) (img : Image) (base : Nat) (s : State) : Tried State :=
  (List.range (img.layers.length - img.draftLayers)).foldl (fun t j =>
    let tiles := img.layers[j]?.elim 0 (·.streamTiles)
    let before := sumOn (fun i => img.layers[i]?.elim 0 (·.streamTiles)) (List.range j)
    let formats := (List.range tiles).map (fun t => tileFormat img (some j) (img.fixedSlots * 65536 + t * 34816))
    if tiles = 0 then t else
    (List.range img.pensFor).foldl (fun t p => andThen t (fun s =>
      andThen (newSheetsIn f 2 2 ((s.fold f).penList[p]?) (ceilDiv tiles 2 + ceilDiv tiles 32) s) (fun r =>
        let s := (r.1.zip (tileHeads slot p role before formats)).foldl (fun s e => putEntry f e.1 { (s.fold f).sheet e.1 with tile := some e.2 } s) r.2
        .ok (s.modFold f (fun x => { x with expanded := setN x.expanded (base + j * 64 + p) r.1 }))))) t) (.ok s)

/-- Where the expanded sheets of a lost member's share are listed (14 R385 step 2). -/
def understudyKey : Nat := 0x20000

/-- The stream tiles of the understudy share, expanded (14 R385 step 2). -/
def placeUnderstudy (f slot : Nat) (img : Image) (s : State) : Tried State :=
  let ds := understudyShare s f img
  andThen (loadShare f (shareHeads img ds slot 1) img.understudySheets s) fun c =>
    .ok ((List.range ds.length).foldl (fun s k =>
      let d := ds.getD k []
      if tdKind d != 1 then s else
      (List.range (tdCount d)).foldl (fun s i =>
        placeTile f img understudyKey (tdDest d / 65536) (tdPen d) (tdDest d % 65536 + i) (shareTile ds c (tdPen d) (firstTile ds k + i)) s) s) s)

/-- The sheets of the image's HBM area as its descriptors need them. -/
def hbmSheets (own : List (List Byte)) : Nat :=
  ceilDiv ((own.filter (fun d => tdKind d == 3)).foldl (fun n d => max n (tdDest d * 64 + tdBytes d)) 0) 65536

/-- What the active image holds beside its stored shares given back: expanded layers and HBM area (07 R193). -/
def dropExpanded (f : Nat) (s : State) : State :=
  let l := (s.fold f).expanded.flatMap (·.2)
  (discardAll f l s).modFold f (fun x => { x with expanded := [], active := none, streamed := false })

/-- The pins of an image: slots, draft ways, vocabulary cache ways, window depth (07 R188, 10 R282). -/
def pinImage (f slot depth : Nat) (img : Image) (s : State) : State :=
  let p := img.pinnedSlots depth
  let ways := (s.fold f).wayList.length
  let cache := min (ways - img.draftWays) (ceilDiv (s.act (rTokVcache f) * 262144) 786432)
  let s := (s.fold f).penList.foldl (fun s n => packPool f p n s) s
  let s := s.modFold f (fun x => { x with pinned := p, draftWaysUsed := img.draftWays, cacheWays := cache, depthUsed := depth
                                          streamed := img.groupSlots != 0 })
  let s := clearWays f (s.fold f).pinnedWays s
  if (s.fold f).active = some slot then s else trimPrefix f 0 s

/-- Pen `n` ready to run an image: the program in its workspace slots, the binding table resolved, the window empty (06 R161, 07 R201 step 3). -/
def fillPen (f n : Nat) (img : Image) (s : State) : State :=
  s.modPen n (fun p => { p with program := img.program, binding := img.binding.map (resolveBind s f n img), section_ := none, dropped := false
                                groups := [], nextLayer := 0, raccCount := 0, raccMark := 0 })

/-- The load of an image on this member (07 R201 step 3). -/
def loadImage (f slot depth : Nat) (img : Image) (s : State) : Tried State :=
  let own := ownShare s f img
  let s := applyPend (fun k => decide (0xa1000 + f * 0x40 ≤ k) && decide (k < 0xa1040 + f * 0x40)) s
  let s := dropExpanded f (pinImage f slot depth img s)
  andThen (newRun f (hbmSheets own) 2 s) fun a =>
    let s := a.2
    let base := s.sheetOffset f a.1
    let img := { img with hbmBase := base }
    let s := s.modFold f (fun x => { x with images := setN x.images slot img, streamed := img.groupSlots != 0
                                            expanded := setN x.expanded hbmKey ((List.range (hbmSheets own)).map (a.1 + ·)) })
    andThen (expandAt f slot 0 img 0 s) fun s =>
    andThen (placeParts f slot img s) fun s =>
      let s := s.modFold f (fun x => { x with active := some slot, faulted := false })
      let s := (s.fold f).penList.foldl (fun s n => fillPen f n img s) s
      .ok ((s.fold f).penList.foldl (fun s n => (List.range (s.fold f).depthUsed).foldl (fun s _ => loadLayer n s) s) s)

/-- The replica slots emptied (14 R388). -/
def emptyReplicas (f : Nat) (s : State) : State :=
  discardAll f (((List.range (s.snapSlots f)).map (s.replicaBase f)).filter (s.fold f).backed) s

/-- The renumbering of a rebalance (14 R388): ascending order of the old indices; what stood in for the lost member is given back. -/
def renumber (f : Nat) (s : State) : State :=
  let s := if s.snapReplicate f then emptyReplicas f s else s
  let m := s.act (rFabFoldMember f)
  let q := (s.fold f).snap
  let gone (i : Nat) : Bool := q.absorbed.any (fun a => a.1 == i)
  let below := ((List.range (bitsOf m 17 0)).filter gone).length
  let s := (q.share.map (·.2)).foldl (fun s i => dropRef f i s) (s.setAct (rFabFoldMember f) (m - below))
  s.modFold f (fun x => { x with members := ((List.range x.members.length).filter (fun i => !gone i)).map (fun i => x.members.getD i 0)
                                 snap := { x.snap with absorbed := [], share := [] } })

/-! ### The sheets of a rebalance's sessions (14 R388) -/

/-- What a member's pages hold of head `h` at position `p` of a layer: FORMAT, the stored key and value, PIN, SCORE, whether a unit is poisoned. -/
structure HeldEntry where
  format : Nat
  key : List Byte
  value : List Byte
  pin : Bool
  score : Nat
  bad : Bool

/-- The entry of head `h` at position `p` that the page table at `a` holds, `v` the layer as it is divided there. -/
def heldEntry (s : State) (f a : Nat) (v : KvLayer) (h p : Nat) : Option HeldEntry :=
  (headPages s f a v h).findSome? (fun pg =>
    let b := s.sheetOffset f pg.page
    let e := kvEntryBytes (s.pgFormat b) (s.pgHdim b)
    ((s.pgSlots b).find? (fun i => s.pgPos b i == p && s.pgValid b i)).map (fun i =>
      let c := pg.value s f i
      let ka := b + keyAt (s.pgPart b) e pg.head i
      let va := c.1 + valueAt (s.pgPart c.1) e pg.head c.2
      { format := s.pgFormat b, key := s.read ka e, value := s.read va e, pin := s.pgPin b i, score := (s.pgScore b i).toNat
        bad := s.poisoned ka e || s.poisoned va e }))

/-- The same where it is on another member: `n` bytes each of the fabric read's data, which are free values (log entry 176). -/
def readEntry (format n : Nat) (pin : Bool) (s : State) : HeldEntry × State :=
  let k := s.draw
  let v := k.2.draw
  ({ format := format, key := leBytes n k.1, value := leBytes n v.1, pin := pin, score := 0, bad := false }, v.2)

/-- An entry's stored key and value in format `fmt`. -/
def HeldEntry.inFormat (v : KvLayer) (fmt : Nat) (e : HeldEntry) : List Byte × List Byte :=
  if e.format = fmt then (e.key, e.value)
  else
    let hd := hdimOf v.code
    ((encodeKv fmt v.info.kScale (decodeKv e.format hd v.info.kScale e.key)).1, (encodeKv fmt v.info.vScale (decodeKv e.format hd v.info.vScale e.value)).1)

/-- Position `p` of a layer put into the page table at `a'`, from the one at `a` and from the other members; `v` is the layer as it was divided, `v'` as
it is now. A position whose block was here and that has no entry any more is left out. -/
def redivideAt (f a a' : Nat) (v v' : KvLayer) (p : Nat) (pin : Bool) (s : State) : Tried State :=
  let held := v'.heads.map (fun h => heldEntry s f a v h p)
  if !v'.mine p || (v.mine p && held.all (·.isNone)) then .ok s else
  let fmt := (held.findSome? (·.map (·.format))).getD (s.kvFormat f)
  let r := held.foldl (fun (t : List HeldEntry × State) e =>
    match e with
    | some e => (t.1 ++ [e], t.2)
    | none => let q := readEntry fmt (kvEntryBytes fmt (hdimOf v'.code)) pin t.2; (t.1 ++ [q.1], q.2)) ([], s)
  (List.range (listCount fmt (hdimOf v'.code) v'.heads.length)).foldl (fun t k => andThen t (fun s =>
    let es := ((listHeads fmt (hdimOf v'.code) v'.heads k).1).filterMap (fun h => r.1[v'.heads.findIdx (· == h)]?)
    andThen (storeSlot f a' v' k fmt p (es.any (·.pin)) (es.any (·.bad)) (es.map (HeldEntry.inFormat v' fmt)) s) fun s =>
      .ok (match slotFor s f p (s.listPages f a' v'.layer k), es.head? with
        | some q, some e => s.write (s.sheetOffset f q.1 + 1024 + 4 * q.2) (leBytes 4 e.score)
        | _, _ => s))) (.ok r.2)

/-- Session `x` re-divided for the members that are left: a new page table with the pages this member is to hold, the parameter sheet and the counts as
they were, in image slot `k`; `olds` are the layers as they were divided. A sheet that cannot be read poisons the image (04 R109). -/
def redivide (f k : Nat) (olds : List KvLayer) (img : Image) (x : W64) (s : State) : Tried State :=
  match s.sess x with
  | none => .ok s
  | some y =>
    let held := (s.imageSheets f y).eraseDups
    match held.foldl (fun t i => andThen t (touchSheet f i)) (.ok s : Tried State) with
    | .error e =>
      if e.1 = stPoison then .ok (writeBack x (e.2.modSess x (fun y => { y with record := { y.record with imagePoisoned := true } }))) else .error e
    | .ok s =>
      let q := y.record
      let counts := s.read (s.sheetOffset f (s.ptCount q.imageRoot)) 65536
      andThen (freshImage f img (s.read q.paramSheet 65408) s) fun r =>
        let s := pokeSheet f r.1.2.1 65472 (s.read (q.paramSheet + 65472) 64) r.2
        let root := s.sheetOffset f r.1.1
        let s := pokeSheet f (s.ptCount root) 0 counts s
        andThen (olds.foldl (fun t v => andThen t (fun s =>
            let v' := s.kvLayer f img v.layer v.code
            (List.range y.kvNext).foldl (fun t p => andThen t (redivideAt f q.imageRoot root v v' p (txPin (s.txEntry y p)))) (.ok s))) (.ok s)) fun s =>
          let s := held.foldl (fun s i => dropRef f i s) (validate f root (fun _ => true) (List.range y.kvNext) s)
          let s := s.modRec x (fun r' => { r' with imageRoot := root, paramSheet := s.sheetOffset f r.1.2.1, imageSlot := k })
          .ok (if y.isOwner then writeBack x s else s)

/-- The sessions this member holds of the image that was active, re-divided for image `img` in slot `k`. -/
def redivideAll (f k : Nat) (active : Option Nat) (olds : List KvLayer) (img : Image) (s : State) : Tried State :=
  ((s.sessions.filter (fun p => p.2.fold == f && (p.2.isOwner || p.2.share) && some p.2.record.imageSlot == active)).map (·.2.record.sessionId)).foldl
    (fun t x => andThen t (redivide f k olds img x)) (.ok s)

/-- The layers of the active image as they are divided among the members. -/
def State.kvLayers (s : State) (f : Nat) : List KvLayer :=
  match s.activeImage f with
  | some x => (List.range (kvLayerCount x)).map (fun l => s.kvLayer f x l ((x.layers[l]?).elim 0 (·.hdim)))
  | none => []

/-- ACTIVATE_LOAD_COMPLETE (07 R201 steps 3 and 4, 14 R388): the load past its boundary; `status` is what the other members report. A failed
load leaves the fold with no active image. -/
def execActivateLoadComplete (f : Nat) (status : W16) (s : State) : Host.Outcome State Fault Refusal :=
  .next (serve s fun s =>
    match (s.fold f).drain with
    | none => s
    | some d =>
      if !d.loading then s else
      let s := s.modFold f (fun x => { x with drain := none })
      let active := (s.fold f).active
      let olds := s.kvLayers f
      let s := if d.kind = 2 then renumber f s else s
      match s.image f d.arg with
      | none => endDrain d stBadDescriptor [] s
      | some img =>
        let t := if status == stOk then
            andThen (loadImage f d.arg d.depth img s) (if d.kind = 2 then redivideAll f d.arg active olds img else .ok)
          else .error (status, s)
        match t with
        | .ok s => endDrain d stOk (leBytes 8 d.boundary) s
        | .error e => endDrain d e.1 [] (dropExpanded f e.2))

/-- MODEL_RETIRE (07 R203). -/
def execModelRetire (d : Desc) (s : State) : Host.Outcome State Fault Refusal :=
  .next (serve s (descriptor opModelRetire (bodyReserved d [(32, 32)]) false d fun s =>
    let f := s.descFold d
    let k := descByte d 32
    if hasN (s.fold f).registering k then .error (stBusy, s) else
    match (if k < 32 then s.image f k else none) with
    | none => .error (stBadDescriptor, s)
    | some img =>
      if (s.fold f).active = some k || (s.fold f).drain.any (fun q => (q.kind == 1 || q.kind == 2) && q.arg == k) ||
          s.sessions.any (fun p => p.2.fold == f && (p.2.isOwner || p.2.record.state == stateStranded) && p.2.record.imageSlot == k && p.2.record.state != stateClosed) then .error (stBusy, s)
      else
        let s := discardAll f (img.ownSheets ++ img.understudySheets) s
        .ok (complete opModelRetire d stOk 0 [] (s.modFold f (fun x => { x with images := delN x.images k })))))

end Sys2Proof.Machine
end

