-- ==== Sys2Proof/Machine/Recover.lean ====
section
/-! DEFINITION. Recovery of a session (04 R116 to R118): the swap of its lease, the image from a snapshot or built anew, forced replay. -/
namespace Sys2Proof.Machine

/-! ### What a recovery starts from -/

/-- The offset just past the determined text at entry `c`, from its TEXT_END, in the neighbourhood of TEXT_OFFSET (04 Table 4-2). -/
def textEndAt (s : State) (y : Sess) (c : Nat) : Nat :=
  let o := y.record.textOffset
  let t := txTextEnd (s.txEntry y c) + o / 2 ^ 32 * 2 ^ 32
  if o + 2 ^ 31 < t then t - 2 ^ 32 else if t + 2 ^ 31 < o then t + 2 ^ 32 else t

/-- The first generated entry of the current turn. -/
def Record.genStart (r : Record) : Nat := r.context - r.turnGen

/-- The parameter sheet's 65,536 bytes as they are here; a free value where the owner that held them is gone (log entry 3). -/
def paramBytes (x : W64) (s : State) : List Byte × State :=
  match s.sess x with
  | some y =>
    let i := s.mapIndex y.fold y.record.paramSheet
    if y.isOwner && (s.fold y.fold).backed i && !s.sheetPoisoned y.fold i then (s.read y.record.paramSheet 65536, s)
    else
      let r := s.draw
      (leBytes 65536 r.1, r.2)
  | none => ([], s)

/-- The generated tokens among entries `a` to `b` − 1. -/
def generatedTokens (s : State) (y : Sess) (a b : Nat) : List Nat :=
  (((List.range (b - a)).map (fun k => s.txEntry y (a + k))).filter (fun w => 2 ≤ txSrc w)).map txToken

/-- The text state of the current turn at its first generated token, with replay up to the last entry (10 R271). -/
def replayText (p : Params) (r : Record) : TextState :=
  let z := ({ r.text.endTurn with forceSrc := 2 }).beginTurn p
  if r.turnGen = 0 then ({ r.text.endTurn with forceSrc := 0 }).beginTurn p
  else { z with replayNext := r.genStart, replayEnd := r.context }

/-- Whether a transcript entry that the area here still holds reads as poisoned (04 R118). -/
def txPoisoned (s : State) (y : Sess) : Bool :=
  y.isHome && (List.range (y.record.txHead - y.record.txFirst)).any (fun k => s.poisoned (txAddr y.record (y.record.txFirst + k)) 8)

/-- Session `x` with its image built anew (R116 steps 2 and 4): nothing prefilled, the current turn's generated entries to be forced, the
count table as the entries before them leave it. -/
def rebuildFresh (x : W64) (img : Image) (s : State) : Tried State :=
  match s.sess x with
  | none => .ok s
  | some y =>
    if txPoisoned s y then .error (stPoison, s) else
    let f := y.fold
    let b := paramBytes x s
    let old := if y.isOwner then (b.2.imageSheets f y).eraseDups else []
    andThen (freshImage f img (b.1.take 65408) b.2) fun r =>
      let s := old.foldl (fun s i => dropRef f i s) r.2
      let pr := s.sheetOffset f r.1.2.1
      let s := pokeSheet f r.1.2.1 65472 (b.1.drop 65472) s
      let p := s.params pr
      let q := y.record
      let s := s.modSess x (fun y => { y with
        kvNext := 0, wet := none, history := none, restored := none
        record := { q with imageRoot := s.sheetOffset f r.1.1, paramSheet := pr, imageSheets := r.1.2.2, context := q.genStart, turnGen := 0
                           text := { replayText p q with countUsed := 0 }, draft := { q.draft with draftPos := 0 } } })
      .ok (if p.countReset then s
        else countTokens x f (s.sheetOffset f (s.ptCount (s.sheetOffset f r.1.1))) (generatedTokens s y q.txFirst q.genStart) s)

/-- Session `x` with its image from the shard at `b`, whose record is `q` (R116 step 3): entries before it restored, the generated ones after it
forced. -/
def rebuildFrom (x : W64) (b : Nat) (q : Record) (kept : NMap Nat) (s : State) : Tried (NMap Nat × State) :=
  match s.sess x with
  | none => .ok (kept, s)
  | some y =>
    let f := y.fold
    let old := if y.isOwner then (s.imageSheets f y).eraseDups else []
    andThen (restoreImage f b y q kept s) fun t =>
      let s := old.foldl (fun s i => dropRef f i s) t.2.2
      let r := y.record
      let same := q.turn == r.turn && decide (r.genStart ≤ q.context)
      let start := if same then min q.context r.context else r.genStart
      let root := s.sheetOffset f t.1.1
      let pr := s.sheetOffset f t.1.2.1
      let p := s.params pr
      let text := if same then { q.text with forceSrc := if start < r.context then 2 else q.text.forceSrc, replayNext := start, replayEnd := r.context
                                             paramArmed := q.text.paramArmed || (q.text.forceSrc == 1 && decide (start < r.context)) }
        else { replayText p r with countUsed := if p.countReset then 0 else q.text.countUsed }
      let s := if !same && p.countReset then pokeSheet f (s.ptCount root) 0 emptyCounts s else s
      let s := s.modSess x (fun y => { y with
        kvNext := min (s.kvEnd f root) start, wet := none, history := none, restored := some (s.shardStep f b)
        record := { r with imageRoot := root, paramSheet := pr, imageSheets := t.1.2.2, context := start, turnGen := start - r.genStart
                           text := text, draft := q.draft } })
      .ok (t.2.1, if same || p.countReset then s
        else countTokens x f (s.sheetOffset f (s.ptCount root)) (generatedTokens s y q.context r.genStart) s)

/-! ### How a recovery ends -/

/-- A recovery given up before the session is this device's. -/
def recoverFail (x : W64) (st : W16) (s : State) : State :=
  match s.sess x with
  | none => s
  | some y =>
    match y.move with
    | none => s
    | some m =>
      let s := if y.isHome || y.isOwner then s.modSess x (fun y => { y with move := none }) else { s with sessions := delN s.sessions x.toNat }
      if m.op = opDroveShrink && y.turn.isSome then failTurn x st 0 s
      else
        let r := y.homeRecord
        recoverDone x m st 0 (recoverSpecific y st r.state r.lease) s

/-- The session ends as R118 gives: SESSION_ENDED with reason 3, the lease (home, VOID, e+2), but for an epoch at its top (04 R115). -/
def recoverEnd (x : W64) (m : Move) (st : W16) (s : State) : State :=
  match s.sess x with
  | none => s
  | some y =>
    let l := y.record.lease
    let void : Lease := if epochTop ≤ l.epoch then l else ⟨sidDevice x, 3, l.epoch + 1⟩
    let s := if y.isHome || void == l then s else match askSwap x (.leaseConfirm x) y l void s with
      | .ok s => s
      | .error e => e.2
    let s := if y.turn.isSome then failTurn x st 0 s else s
    let s := s.modSess x (fun y => { y with move := none, turn := none, record := { y.record with lease := void } })
    let fl := if st == stPoison then flPoisoned else 0
    recoverDone x m st fl (recoverSpecific y st stateClosed void) (endSession x ⟨3, st, none⟩ s)

/-- The turn of a recovered session asks for admission again (04 R116 step 5): its descriptor and flags are `t`'s. -/
def recoverTurn (x : W64) (t : Turn) (op : Nat) (tag : W16) (s : State) : State :=
  match s.sess x with
  | none => s
  | some y =>
    let r := y.record
    let det := if r.context = 0 then r.textOffset else textEndAt s y (r.context - 1)
    let s := s.modSess x (fun y => { y with turn := some { t with detEnd := det, place := 0 }
                                            record := { y.record with state := stateOpen, turnCarried := false, turnHeld := false } })
    match admitTurn y.fold x r.latencyCritical tag op s with
    | .ok s => sendSeat x s
    | .error e => failTurn x e.1 flRestarted e.2

/-- A recovery with no turn in progress (04 R116, R117): what the image lacks of the transcript is prefilled once a slot is free, with no text
released, and the descriptor completes at its end (log entry 156). -/
def recoverRest (x : W64) (m : Move) (s : State) : State :=
  match s.sess x with
  | none => s
  | some y =>
    let r := y.record
    let full := max r.context r.text.replayEnd
    let a := s.sheetOffset y.fold (s.ptCount r.imageRoot)
    let s := countTokens x y.fold a (generatedTokens s y r.context full) (s.modRec x (fun r =>
      { r with context := full, turnGen := r.turnGen + (full - r.context), turnCarried := false, turnHeld := false, text := r.text.endTurn }))
    if full ≤ y.kvNext || m.op = opDroveShrink then endRebuild x stOk (s.modSess x (fun y => { y with move := some m }))
    else
      let d := m.desc.getD { ring := r.sessionRing, flags := 0, tag := 0, epoch := 0, session := x, body := [] }
      let t : Turn := { opcode := m.op, desc := d, maxNew := 0, toolMask := 0, noGenerate := true, handoff := none, replaced := 0, flags := flRestarted
                        place := 0, detEnd := r.textOffset, cancel := none, rebuild := true }
      let s := s.modSess x (fun y => { y with turn := some t, move := some { m with stage := 8 } })
      match admitTurn y.fold x r.latencyCritical d.tag m.op s with
      | .ok s => sendSeat x s
      | .error e => endRebuild x e.1 e.2

/-- The turn in progress resumed under the recovery's descriptor, or, after a shrink, under its own (14 R385); or no turn (R116 step 5, R117). A
restore of every session announces each (14 R383). -/
def recoverResume (x : W64) (m : Move) (inTurn : Bool) (s : State) : State :=
  match s.sess x with
  | none => s
  | some y =>
    if m.op = opDroveShrink then match y.turn with
      | some t => recoverTurn x { t with flags := t.flags ||| flRestarted } t.opcode t.desc.tag (leaveTable y.fold x (dequeue y.fold x s))
      | none => recoverRest x m s
    else match (if inTurn then m.desc else none) with
      | some d => recoverTurn x (s.standIn m.op d y flRestarted) m.op d.tag (s.modSnap m.fold (fun q => { q with restores := delN q.restores x.toNat }))
      | none => recoverRest x m s

/-- The image of a session just taken over (R116 steps 2 to 4, R118), then the turn. A quota refusal leaves the session with IMAGE_POISONED,
open to another recovery (log entry 54). -/
def recoverImage (x : W64) (m : Move) (s : State) : State :=
  match s.sess x with
  | none => s
  | some y =>
    let f := y.fold
    let r := y.record
    let inTurn := if m.op = opDroveShrink then y.turn.isSome else r.priorState == stateActive && m.desc.isSome
    let kept := if m.op = opSnapshotRestore && m.desc.isNone then (s.fold f).snap.kept else []
    let step := m.step.orElse (fun _ => if r.turnGen = 0 || r.snapStep = BitVec.allOnes 64 then none else some r.snapStep.toNat)
    let shard := step.bind (fun c => (s.slotBases f).findSome? (fun b =>
      if s.headerOk f b && s.shardStep f b == c then (s.shardRecord f b x).map (fun q => (b, q)) else none))
    match s.activeImage f with
    | none => recoverEnd x m stVersion s
    | some img =>
      if shard.isNone && r.notReplayable then recoverEnd x m stLength s
      else
        let built := match shard with
          | some q => andThen (rebuildFrom x q.1 q.2 kept s) (fun t =>
              .ok (if m.op = opSnapshotRestore && m.desc.isNone then t.2.modSnap f (fun q => { q with kept := t.1 }) else t.2))
          | none => rebuildFresh x img s
        match built with
        | .error e =>
          if e.1 = stPoison then recoverEnd x m stPoison e.2
          else if m.op = opDroveShrink && y.turn.isSome then
            failTurn x e.1 0 (e.2.modSess x (fun y => { y with move := none, record := { y.record with imagePoisoned := true } }))
          else endRebuild x e.1 e.2
        | .ok s =>
          let s := s.modSess x (fun y => { y with move := none, record := { y.record with imagePoisoned := false } })
          let s := if m.op = opDroveShrink then writeBack x s
            else postSession evOwnershipChanged x stOk (if m.op = opSnapshotRestore then flRestarted else 0) 0 0
              ((s.sessInfo x).take 9 ++ leBytes 1 4 ++ [0]) (writeBack x s)
          recoverResume x m inTurn s

/-- The session is this device's: its new owner's fields, then its transcript, then its image. -/
def recoverOwn (x : W64) (s : State) : State :=
  match s.sess x with
  | none => s
  | some y =>
    match y.move with
    | none => s
    | some m =>
      let s := s.modSess x (fun y =>
        let z := match m.desc with
          | some d =>
            if m.op = opSessionRevive then Sess.newOwner d s.now m.epoch y
            else { y with isOwner := true, fenceEpoch := m.epoch, started := true, cachedHead := 0
                          record := { y.record with sessionRing := d.ring, streamProducer := 0, lastActive := s.now } }
          | none =>
            if m.op = opDroveShrink then { y with isOwner := true, fenceEpoch := m.epoch }
            else { y with isOwner := true, fenceEpoch := m.epoch, started := true
                          record := { y.record with sessionRing := (s.fold y.fold).snap.job.elim y.record.sessionRing (fun d => d.ring) } }
        { z with record := { z.record with ownerFold := y.fold }, move := some { m with stage := 7 } })
      let s := writeHome x (.record x) 54 1 s
      match s.sess x with
      | none => s
      | some y =>
        if haveEntries y then recoverImage x m s
        else match askTranscript x none s with
          | .ok s => s
          | .error e => recoverDone x m e.1 0 (e.2.recoverInfo x e.1) (e.2.modSess x (fun y => { y with move := none }))

/-- The swap of R116 step 1 has been answered. -/
def recoverSwapped (x : W64) (st : W16) (good : Bool) (s : State) : State :=
  match s.sess x with
  | none => s
  | some y =>
    match y.move with
    | none => s
    | some m =>
      if m.stage != 6 then s
      else if !good then recoverFail x st s
      else recoverOwn x (if y.isHome then s else observeLease x ⟨s.selfNo, 0, m.epoch⟩ s)

/-- Whether a request for admission would be taken (05 R131, R132). -/
def State.canAdmit (s : State) (f : Nat) : Bool := ((s.fold f).drain.isNone && (s.fold f).hasSlot) || s.queueRoom f 1

/-- The checks of a recovery with the home's record `r` at hand, for fold `f`; `epoch` is the descriptor's, none for a session a restore of
every session finds. -/
def recoverCheck (s : State) (f : Nat) (epoch : Option Nat) (r : Record) : W16 :=
  if epoch.any (fun e => e != r.lease.epoch) then stStaleEpoch
  else if r.state = stateActive || r.state = stateMoving then stBusy
  else if !(r.state == stateStranded || (r.imagePoisoned && r.state != stateClosed)) then stBadDescriptor
  else if r.imgFmt < s.boot.firmware.fmtMin || s.boot.firmware.fmtMax < r.imgFmt then stVersion
  else if (s.fold f).active != some r.imageSlot then stVersion
  else if (s.fold f).faulted then stInternal
  else if epochTop ≤ r.lease.epoch then stLength
  else if epoch.isSome && r.priorState = stateActive && r.state = stateStranded && !s.canAdmit f then stSeqFull
  else stOk

/-- The lease taken over (R116 step 1): session `x` with its record, in fold `f`, under opcode `op`. -/
def recoverTake (x : W64) (f op : Nat) (desc : Option Desc) (step : Option Nat) (r : Record) (s : State) : State :=
  let m : Move := { stage := 6, device := r.lease.holder, fold := f, epoch := r.lease.epoch + 1, desc := desc, continueTurn := false, lastPoll := 0
                    pulled := [], op := op, step := step }
  let prior := if r.state = stateStranded then r.priorState else if isParked r.state then r.priorState else r.state
  let s := dropShare x s
  let s := match s.sess x with
    | some y => s.setSess x { y with fold := f, move := some m, record := { y.record with priorState := prior } }
    | none => s.setSess x { Sess.idle { r with priorState := prior } false false f with move := some m }
  match s.sess x with
  | none => s
  | some y =>
    let new : Lease := ⟨s.selfNo, 0, r.lease.epoch + 1⟩
    if y.isHome then
      let c := homeCas x r.lease new s
      recoverSwapped x stStaleEpoch c.1 c.2
    else match askSwap x (.leaseRecover x) y r.lease new s with
      | .ok s => s
      | .error e => recoverFail x e.1 e.2

/-- A recovering descriptor with the home's record at hand. -/
def recoverRecord (op : Nat) (d : Desc) (step : Option Nat) (r : Record) (s : State) : State :=
  let x := d.session
  let f := s.descFold d
  let no (st : W16) : State :=
    if op = opSnapshotRestore && st != stStaleEpoch then finishRestore f x.toNat d st 0 s
    else
      let standIn := r.state == stateStranded && r.priorState == stateActive && !leaseStatus st
      complete op d st 0 (if standIn then turnSpecific 0 r.state 8 0 0 0 else sessSpecific r.lease.epoch r.state r.lease.holder)
        (s.modSnap f (fun q => { q with restores := delN q.restores x.toNat }))
  if (s.sess x).any (fun y => y.move.isSome || (y.isOwner && y.turnBusy)) then no stBusy
  else
    let st := recoverCheck s f (some d.epoch.toNat) r
    if st != stOk then no st else recoverTake x f op (some d) step r s

/-- The home's record read for a recovery, or used where it is here. -/
def recoverStart (op : Nat) (d : Desc) (step : Option Nat) (s : State) : Tried State :=
  let x := d.session
  let f := s.descFold d
  match s.sess x with
  | some y =>
    if y.isHome || y.isOwner || y.move.isSome then .ok (recoverRecord op d step y.homeRecord s)
    else askRecord (.leaseRecover x) f op d (step.getD (2 ^ 64 - 1)) s
  | none =>
    if sidDevice x = s.selfNo then .error (stBadDescriptor, s) else askRecord (.leaseRecover x) f op d (step.getD (2 ^ 64 - 1)) s

/-- SESSION_RECOVER: SESSION_REVIVE in mode 1 (04 R116). A descriptor with MODE 0 is the other row's (log entry 5). -/
def execSessionRecover (d : Desc) (s : State) : Host.Outcome State Fault Refusal :=
  .next (if descByte d 32 = 0 then s else
    serve s (descriptorAs opSessionRevive (bodyReserved d [(16, 22), (24, 29), (32, 32)] && descByte d 32 == 1) true (fun s => s.sessInfo d.session) d
      fun s =>
        let st := streamBlock d (s.descFold d) s
        if st != stOk then .error (st, s) else recoverStart opSessionRevive d none s))

end Sys2Proof.Machine
end

