-- ==== Sys2Proof/Machine/Snapshot.lean ====
section
/-! DEFINITION. Snapshots (14 R366 to R383): the cut, the drain into the store, shards, the manifest, and restore from a chosen set. -/
namespace Sys2Proof.Machine

/-! ### SNAPSHOT_CUT (14 R366, R367) -/

/-- Whether a snapshot, restore or shrink of the fold runs, or the drove is halted by a loss. -/
def State.snapBusy (s : State) (f : Nat) : Bool := (s.fold f).snap.state != 0

/-- SNAPSHOT_CUT: any member fixes the cut as the root would, and tells the root, whose list carries it (14 R367, log entry 60). -/
def execSnapshotCut (d : Desc) (s : State) : Host.Outcome State Fault Refusal :=
  .next (serve s (descriptor opSnapshotCut (bodyReserved d [(16, 19)]) false d fun s =>
    let f := s.descFold d
    let lead := descNum d 16 4
    if lead = 1 || 1024 < lead || (s.fold f).ns.state = nsAbsent || s.snapSlots f = 0 then .error (stBadDescriptor, s)
    else if s.snapBusy f || (s.fold f).drain.any (fun q => decide (q.kind ≤ 2)) then .error (stBusy, s)
    else
      let c := (s.fold f).stepNo + (if lead = 0 then 2 else lead)
      let k := s.cutSlot f
      let s := s.modFold f (fun x => { x with cutAt := some (c, k), snap := { x.snap with state := 1, slot := k, step := c } })
      let s := mailRoot f (.cut c k) s
      .ok (complete opSnapshotCut d stDeferred 0 (leBytes 8 c ++ leBytes 1 k ++ [0, 0]) s)))

/-! ### The drain (14 R370 to R376) -/

/-- Directory and session sheets of the shard being written, and all its sheets. -/
def Snap.dirSheets (q : Snap) : Nat := ceilDiv q.dir.length 4096
def Snap.sessSheets (q : Snap) : Nat := ceilDiv q.data.length 128
def Snap.sheets (q : Snap) : Nat := 1 + q.dirSheets + q.sessSheets + q.dir.length

/-- Sheets of a manifest of `m` members. -/
def manifestSheets (m : Nat) : Nat := ceilDiv (288 + 64 * m) 65536

/-- SNAPSHOT_DONE (14 R379). -/
def snapshotDone (f role member : Nat) (st : W16) (s : State) : State :=
  postFold evSnapshotDone f st 0 (leBytes 4 (s.fold f).snap.step ++ leBytes 4 member ++ leBytes 1 role ++ [0, 0]) s

/-- The shard has failed with `st`. -/
def failShard (f : Nat) (st : W16) (s : State) : State := abandonShard f st s

/-- The predecessor of member `i` on the ring, absorbed indices left out. -/
def State.predecessor (s : State) (f i : Nat) : Nat :=
  let l := (s.contributors f).filter (· < i)
  match l.getLast?, (s.contributors f).getLast? with
  | some p, _ => p
  | none, some p => p
  | none, none => i

/-- A store sheet written: placed anew in T2, its migration to T3 asked for, and its copy sent to the same slot of the predecessor's replicas
(14 R373, R376). `rep` is the content the replica takes; the predecessor's store is set up as the own one (log entry 61). -/
def storeSheet (f k o : Nat) (l rep : List Byte) (s : State) : Tried State :=
  let i := s.slotBase f k + o
  if (s.fold f).ns.state = nsReadOnly then .error (stFlashReadOnly, s) else
  andThen (placeSheet f i 2 0 none false false (discardSheet f i s)) fun s =>
    let s := requestMove f i 3 (pokeSheet f i 0 (padTo 65536 l) s)
    if s.snapReplicate f && decide (2 ≤ (s.contributors f).length) then
      let dst := s.memberDev f (s.predecessor f (s.memberIndex f))
      fabRequest (.replica f) (some f) none
        (s.requestPacket (some f) issSnap fabOpWrite dst (s.sheetOffset f (s.replicaBase f k + o)) 65536 false false 0 0 0 (padTo 65536 rep)) s
    else .ok s

/-- Bytes 0 to 255 of the shard header (14 Table 14-3) with ROLE `role`. -/
def shardHeader (s : State) (f role : Nat) : List Byte :=
  let q := (s.fold f).snap
  padTo 256 ([0x53, 0x4B, 0x39, 0x53, 0x48, 0x52, 0x44, 0x01] ++ leBytes 2 1 ++ leBytes 1 role ++ leBytes 1 f ++ leBytes 4 ((s.drove f).getD 0) ++
    leBytes 8 q.step ++ leBytes 4 (s.memberIndex f) ++ leBytes 4 (s.droveSize f) ++ leBytes 4 s.selfNo ++ leBytes 4 q.dirSheets ++
    leBytes 4 q.sessSheets ++ leBytes 4 q.dir.length ++ leBytes 4 q.data.length ++ leBytes 4 (s.stageVersion 4) ++
    leBytes 1 (s.act (rSessWriteCompat f)) ++ zerosB 7 ++ padTo 48 ((s.activeImage f).elim [] (·.digest)) ++ padTo 48 s.sec.measurement)

/-- Data sheet `j` drained: its content as it stood at the cut, whether it is poisoned (14 R370, R372); its mark or its second copy is given up. -/
def drainData (f j : Nat) (s : State) : List Byte × Bool × State :=
  let i := leAt ((s.fold f).snap.dir.getD j []) 0 4
  let e := (s.fold f).sheet i
  let copy := getN (s.fold f).snap.copies i
  let bad := (s.fold f).snap.poisonedCopies.contains i || copy.isNone && (s.sheetPoisoned f i || (e.tier == 3 && (s.fold f).ns.slotPoisoned (e.loc / 1280)))
  (copy.getD (s.read (s.sheetOffset f i) 65536), bad,
   s.modFold f (fun x =>
     { x with sheets := if copy.isSome then x.sheets else modN x.sheets i (fun e => { e with snap := false })
              snap := { x.snap with copies := delN x.snap.copies i, poisonedCopies := x.snap.poisonedCopies.filter (· != i), marked := x.snap.marked.filter (· != i) } }))

/-- POISONED set in directory entry `j`, in the sheet that already holds it too (14 R372). -/
def poisonEntry (f j : Nat) (s : State) : State :=
  let k := (s.fold f).snap.slot
  let o := 16 * (j % 4096) + 5
  let v := (((s.fold f).snap.dir.getD j []).getD 5 0) ||| 1
  let s := s.modSnap f (fun q => { q with dir := q.dir.mapIdx (fun n l => if n = j then patchB l 5 [v] else l) })
  pokeSheet f (s.slotBase f k + 1 + j / 4096) o [v] s

/-- The content of store sheet `n` of the running shard, the header apart. -/
def drainContent (f n : Nat) (s : State) : List Byte × State :=
  let q := (s.fold f).snap
  if n = 0 then (zerosB 65536, s)
  else if n ≤ q.dirSheets then (((q.dir.drop ((n - 1) * 4096)).take 4096).flatten, s)
  else if n ≤ q.dirSheets + q.sessSheets then (((q.data.drop ((n - 1 - q.dirSheets) * 128)).take 128).flatten, s)
  else
    let j := n - 1 - q.dirSheets - q.sessSheets
    let r := drainData f j s
    (r.1, if r.2.1 then poisonEntry f j r.2.2 else r.2.2)

/-- The header, last, with its digest (14 R376, R377); the replica's says ROLE 1 and carries the same digest. -/
def drainHeader (f : Nat) (s : State) : Tried State :=
  let k := (s.fold f).snap.slot
  let head := shardHeader s f 0
  let n := (s.fold f).snap.sheets
  let body := (List.range (n - 1)).flatMap (fun o => s.read (s.sheetOffset f (s.slotBase f k + 1 + o)) 65536)
  let digest := padTo 48 (Config.sha384 (head ++ body))
  andThen (storeSheet f k 0 (head ++ digest) (shardHeader s f 1 ++ digest) s) fun s =>
    .ok (s.modSnap f (fun q => { q with digest := some digest }))

/-- Whether SNAP_DRAIN_RATE admits another store sheet in this ms (14 R373). -/
def drainRate (s : State) (f : Nat) : Bool :=
  let r := s.act (rSnapDrainRate f)
  let q := (s.fold f).snap
  r == 0 || q.drainedMs.1 != s.now / 1000 || decide (q.drainedMs.2 < r)

/-- SNAPSHOT_DRAIN_SHEET (14 R370 to R376): the next store sheet of the shard written. -/
def execSnapshotDrainSheet (f : Nat) (s : State) : Host.Outcome State Fault Refusal :=
  .next (serve s fun s =>
    let q := (s.fold f).snap
    if q.state != 2 || q.fail.isSome || q.digest.isSome || q.reported || !drainRate s f then s else
    let extra := if s.isRoot f then manifestSheets (s.contributors f).length else 0
    if q.written = 0 && decide (s.act (rSnapSlotSheets f) < q.sheets + extra) then failShard f stLength s else
    let t := if q.written < q.sheets then
        let c := drainContent f q.written s
        storeSheet f q.slot q.written c.1 c.1 c.2
      else drainHeader f s
    match t with
    | .error e => failShard f e.1 e.2
    | .ok s => s.modSnap f (fun p =>
        { p with written := p.written + 1, drainedMs := (s.now / 1000, if p.drainedMs.1 = s.now / 1000 then p.drainedMs.2 + 1 else 1) }))

/-! ### The shard's end and the manifest (14 R376 to R379) -/

/-- Whether every store sheet of the shard is durable in T3, here and, as answered, at the predecessor. -/
def State.shardDurable (s : State) (f : Nat) : Bool :=
  let q := (s.fold f).snap
  q.digest.isSome && !s.asking (.replica f) && (List.range q.sheets).all (fun o =>
    let i := s.slotBase f q.slot + o
    ((s.fold f).sheet i).tier == 3 && !(s.fold f).ns.writes.any (fun w => w.index == some i))

/-- The status a store sheet's move has failed with. -/
def State.shardMoveFail (s : State) (f : Nat) : Option W16 :=
  let q := (s.fold f).snap
  (List.range q.sheets).findSome? (fun o => getN (s.fold f).moveFail (s.slotBase f q.slot + o))

/-- This member's own report. -/
def State.ownReport (s : State) (f : Nat) : ShardReport :=
  let q := (s.fold f).snap
  { member := s.memberIndex f, device := s.selfNo, dataSheets := q.dir.length, digest := q.digest.getD [], status := q.fail.getD stOk }

/-- The shard reported with `st`, to the root and in SNAPSHOT_DONE; one that failed leaves its slot without a header. -/
def reportShard (f : Nat) (st : W16) (s : State) : State :=
  let k := (s.fold f).snap.slot
  let s := if st == stOk then s.count (rSnapShardsDone f) 1 else discardSheet f (s.slotBase f k) s
  let s := s.modSnap f (fun q => { q with reported := true, fail := if st == stOk then none else some st })
  snapshotDone f 0 (s.memberIndex f) st (mailRoot f (.shard (s.fold f).snap.step (s.ownReport f)) s)

/-- A member's report, at the root. -/
def shardReported (f c : Nat) (r : ShardReport) (s : State) : State :=
  if (s.fold f).snap.step = c && ((s.fold f).snap.state == 1 || (s.fold f).snap.state == 2) then
    s.modSnap f (fun q => { q with reports := q.reports.filter (fun t => t.member != r.member) ++ [r] }) else s

/-- SHARD_COMPLETE (14 R376, R378): the member reports its shard. -/
def execShardComplete (f : Nat) (s : State) : Host.Outcome State Fault Refusal :=
  .next (serve s fun s =>
    let q := (s.fold f).snap
    if q.state != 2 || q.reported then s
    else match q.fail, s.shardMoveFail f with
      | some st, _ => reportShard f st s
      | none, some st => reportShard f st (failShard f st s)
      | none, none => if s.shardDurable f then reportShard f stOk s else s)

/-- The reports the root has: its own, those sent to it, and those of the row (log entry 101). -/
def State.allReports (s : State) (f : Nat) (l : List ShardReport) : List ShardReport := s.ownReport f :: ((s.fold f).snap.reports ++ l)

/-- The manifest (14 Table 14-4) up to its signature. -/
def manifestBody (s : State) (f : Nat) (l : List ShardReport) : List Byte :=
  let ms := s.contributors f
  padTo 192 (padTo 12 ([0x53, 0x4B, 0x39, 0x4D, 0x41, 0x4E, 0x46, 0x01] ++ leBytes 2 1) ++ leBytes 4 ((s.drove f).getD 0) ++
    leBytes 8 (s.fold f).snap.step ++ leBytes 4 ms.length ++ leBytes 4 s.selfNo ++ padTo 48 ((s.activeImage f).elim [] (·.digest)) ++
    padTo 48 s.sec.measurement ++ leBytes 4 (s.stageVersion 4)) ++
  ms.flatMap (fun m =>
    match l.find? (fun r => r.member == m) with
    | some r => leBytes 4 r.device ++ leBytes 4 r.dataSheets ++ padTo 48 r.digest ++ zerosB 8
    | none => zerosB 64)

/-- The snapshot over at this member: its step complete, SNAP_STEP in the records it owns (14 R378), or nothing changed. -/
def endSnapshot (f : Nat) (good : Bool) (s : State) : State :=
  let q := (s.fold f).snap
  let s := if good then q.sessions.foldl (fun s x =>
      if (s.sess x).any (·.isOwner) then writeHome x (.record x) 144 8 (s.modRec x (fun r => { r with snapStep := BitVec.ofNat 64 q.step })) else s) s
    else s
  s.modSnap f (fun q => { q with state := 0, marked := [], copies := [], dir := [], data := [], sessions := [], reported := false, digest := none
                                 written := 0, fail := none, reports := [], poisonedCopies := []
                                 lastStep := if good then BitVec.ofNat 64 q.step else q.lastStep })

/-- The snapshot over at the root, which tells every member (14 R378). -/
def closeSnapshot (f : Nat) (good : Bool) (s : State) : State := endSnapshot f good (mailOthers f (.snapped (s.fold f).snap.step good) s)

/-- The root's word that the snapshot of step `c` is over, at another member. -/
def snapshotClosed (f c : Nat) (good : Bool) (s : State) : State :=
  let q := (s.fold f).snap
  if q.state = 2 && q.step = c then endSnapshot f (good && q.fail.isNone) s else s

/-- The manifest written to the last sheets of the root's slot and to host memory. -/
def writeManifest (f : Nat) (m : List Byte) (s : State) : Tried State :=
  let n := ceilDiv m.length 65536
  let o := s.act (rSnapSlotSheets f) - n
  let k := (s.fold f).snap.slot
  andThen ((List.range n).foldl (fun t j => andThen t (fun s =>
      let l := (m.drop (j * 65536)).take 65536
      storeSheet f k (o + j) l l s)) (.ok s)) fun s =>
    .ok (if s.act (rSnapManifestAddr f) = 0 then s else s.hostWrite f (s.act (rSnapManifestAddr f)) m)

/-- MANIFEST_BUILD (14 R378): at the root, once every member has reported, the manifest and SNAPSHOT_DONE with ROLE 1; at another member the
root's word that the snapshot is complete, or has failed with the reports it names. -/
def execManifestBuild (f : Nat) (reports : List ShardReport) (s : State) : Host.Outcome State Fault Refusal :=
  .next (serve s fun s =>
    let q := (s.fold f).snap
    if q.state != 2 || !q.reported then s
    else if !s.isRoot f then endSnapshot f (reports.all (fun r => r.status == stOk) && q.fail.isNone) s
    else
      let l := s.allReports f reports
      let rs := (s.contributors f).map (fun m => l.find? (fun r => r.member == m))
      if rs.any Option.isNone then s
      else match (rs.filterMap id).find? (fun r => r.status != stOk) with
        | some r => closeSnapshot f false (snapshotDone f 1 r.member r.status s)
        | none =>
          let body := manifestBody s f l
          match signAk body s with
          | none => closeSnapshot f false (snapshotDone f 1 0 stInternal s)
          | some (sig, s) => match writeManifest f (body ++ sig) s with
            | .error e => closeSnapshot f false (snapshotDone f 1 0 e.1 e.2)
            | .ok s => closeSnapshot f true (snapshotDone f 1 0 stOk s))

/-! ### Restore: the choice of the set (14 R381, R382) -/

/-- Fields of a manifest. -/
def mfStep (m : List Byte) : Nat := leAt m 16 8
def mfMembers (m : List Byte) : Nat := leAt m 24 4
def mfDigest (m : List Byte) (k : Nat) : List Byte := sliceB m (200 + 64 * k) 48

/-- Whether `m` is a manifest of the fold's drove. -/
def mfOk (s : State) (f : Nat) (m : List Byte) : Bool :=
  m.take 8 == [0x53, 0x4B, 0x39, 0x4D, 0x41, 0x4E, 0x46, 0x01] && leAt m 8 2 == 1 && leAt m 12 4 == (s.drove f).getD 0

/-- Why a manifest is not taken: its signature, or its image or firmware (14 R382). -/
def mfRefusal (s : State) (f : Nat) (m : List Byte) : Option W16 :=
  let n := 192 + 64 * mfMembers m
  let root := leAt m 28 4 % 2 ^ 18
  let pub := if root = s.selfNo then (s.ak.map Config.ecPublic).getD [] else Config.memberAk root
  if !Config.ecdsaOk pub (m.take n) (sliceB m n 96) then some stAuthFail
  else if sliceB m 32 48 != padTo 48 ((s.activeImage f).elim [] (·.digest)) || leAt m 130 2 != s.stageVersion 4 / 65536 then some stVersion
  else none

/-- The shards of member `m` in the slots at `bs`; one whose sheets do not give its DIGEST shows none. -/
def State.shardsAt (s : State) (f m : Nat) (bs : List Nat) : List ShardSeen :=
  (bs.filter (s.headerOk f)).map (fun b =>
    { step := s.shardStep f b, valid := s.shardMember f b == m && s.shardNum f b 12 4 == (s.drove f).getD 0
      digest := if padTo 48 (s.shardHash f b) = s.shardDigest f b then s.shardDigest f b else [] })

/-- What the members hold: the own store, the replicas of a lost successor, and the other members' stores as read. -/
def State.memberStores (s : State) (f : Nat) (others : List MemberStore) : List MemberStore :=
  (s.contributors f).map (fun m =>
    if m = s.memberIndex f then ⟨m, false, s.shardsAt f m ((List.range (s.snapSlots f)).map (s.slotBase f))⟩
    else if s.fab.lost.contains (s.memberDev f m) && s.predecessor f m == s.memberIndex f then
      ⟨m, !s.snapReplicate f, s.shardsAt f m ((List.range (s.snapSlots f)).map (s.replicaBase f))⟩
    else (others.find? (fun o => o.member == m)).getD ⟨m, false, []⟩)

/-- The reason member `o` fails for step `c` (14 R381 step 3). -/
def storeReason (c : Nat) (digest : Option (List Byte)) (o : MemberStore) : Option Nat :=
  if o.lost then some 4
  else match o.shards.find? (fun h => h.step == c) with
    | none => some 1
    | some h => if !h.valid then some 3 else if digest.any (fun d => d != h.digest) then some 2 else none

/-- A report entry. -/
def reportEntry (reason : Nat) (o : MemberStore) : List Byte :=
  let steps := (o.shards.filter (·.valid)).map (·.step)
  leBytes 4 o.member ++ leBytes 1 reason ++ zerosB 3 ++ leBytes 8 (if steps.isEmpty then 2 ^ 64 - 1 else steps.foldl max 0)

/-- One candidate judged: what refuses it, and its report entries. -/
def judgeSet (s : State) (f c : Nat) (m : Option (List Byte)) (l : List MemberStore) : Option W16 × List (List Byte) :=
  let bad : List (Nat × MemberStore) := (l.mapIdx (fun k o => (storeReason c (m.map (fun b => mfDigest b k)) o).map (fun r => (r, o)))).filterMap id
  let why := match m with
    | none => some stSnapshotMixed
    | some b => match mfRefusal s f b with
      | some st => some st
      | none => bad.head?.map (fun r : Nat × MemberStore => if r.1 = 2 || r.1 = 3 then stAuthFail else stSnapshotMixed)
  match why with
  | none => (none, [])
  | some st => (some st, bad.map (fun r : Nat × MemberStore => reportEntry r.1 r.2))

/-- The candidates in their order: the step restored if any, the status, the report entries (14 R381, R382). -/
def chooseSet (s : State) (f : Nat) (ms : List (List Byte)) (l : List MemberStore) : Nat → Nat → Option (List Byte) → Option Nat × W16 × List (List Byte)
  | 0, _, _ => (none, stSnapshotMixed, [])
  | n + 1, c, m =>
    match judgeSet s f c m l with
    | (none, _) => (some c, stOk, [])
    | (some st, r) =>
      match maxOn mfStep (ms.filter (fun b => decide (mfStep b < c))) with
      | none => (none, st, r)
      | some b =>
        let t := chooseSet s f ms l n (mfStep b) (some b)
        (t.1, st, r ++ t.2.2)

/-- The manifests in the own slots of the root. -/
def State.ownManifests (s : State) (f : Nat) : List (List Byte) :=
  let n := manifestSheets (s.contributors f).length
  (List.range (s.snapSlots f)).map (fun k => s.read (s.sheetOffset f (s.slotBase f k + s.act (rSnapSlotSheets f) - n)) (n * 65536))

/-! ### Restore (14 R380, R383) -/

/-- A captured session whose record is at hand, recovered if it is STRANDED or has IMAGE_POISONED. -/
def restoreFound (f step : Nat) (r : Record) (s : State) : State :=
  let x := r.sessionId
  if (s.sess x).any (fun y => y.move.isSome || y.turnBusy) then s
  else if recoverCheck s f none r != stOk then s
  else recoverTake x f opSnapshotRestore none (some step) r s

/-- The home's record read for a captured session. -/
def askFound (f step : Nat) (x : W64) (s : State) : State :=
  match fabRequest (.leaseRecover x) (some f) none
      (s.requestPacket (some f) issSess fabOpRead (sidDevice x) 0 512 false true 0 x (BitVec.ofNat 64 step) []) s with
  | .ok s => s
  | .error e => e.2

/-- A captured session found: its record is here, or is read at its home. -/
def restoreOne (f step : Nat) (x : W64) (s : State) : State :=
  match s.sess x with
  | some y => if y.isHome || y.isOwner then restoreFound f step y.homeRecord s else askFound f step x s
  | none => if sidDevice x = s.selfNo then s else askFound f step x s

/-- Every captured session of step `c` (14 R383). -/
def restoreAll (f c : Nat) (d : Desc) (s : State) : State :=
  let s := s.modSnap f (fun q => { q with state := 3, job := some d, kept := [] })
  let xs := (s.slotBases f).flatMap (fun b => if s.headerOk f b && s.shardStep f b == c then (s.shardRecords f b).map (·.sessionId) else [])
  settleRestore f (xs.eraseDups.foldl (fun s x => restoreOne f c x s) s)

/-- The check of a session named by a restore, where its record is at hand (14 R380). -/
def restoreNamed (d : Desc) (s : State) : W16 :=
  match s.sess d.session with
  | some y =>
    if !y.isHome && !y.isOwner then stOk
    else if d.epoch.toNat != y.record.lease.epoch then stStaleEpoch
    else if y.record.state = stateStranded || y.record.imagePoisoned then stOk else stBadDescriptor
  | none => if d.session != 0 && sidDevice d.session = s.selfNo then stBadDescriptor else stOk

/-- The set chosen, the report written, the sessions recovered. -/
def restoreBody (d : Desc) (others : List MemberStore) (given : Option (List Byte)) (manifests : List (List Byte)) (s : State) : Tried State :=
  let f := s.descFold d
  let ms := (if s.isRoot f then s.ownManifests f else manifests).filter (mfOk s f)
  let stores := s.memberStores f others
  let newest := (stores.flatMap (fun o => (o.shards.filter (·.valid)).map (·.step))).foldl max 0
  let step := descNum d 16 8
  let c := match given with
    | some m => mfStep m
    | none => if step = 0 then newest else step
  let m := match given with
    | some b => if mfOk s f b then some b else none
    | none => ms.find? (fun b => mfStep b == c)
  let r := chooseSet s f ms stores (ms.length + 1) c m
  let s := if r.2.2.isEmpty then s else s.hostWrite f (descNum d 40 6) ((r.2.2.take 4096).flatten)
  let key := d.session.toNat
  let s := s.modSnap f (fun q => { q with restores := setN q.restores key ((r.1.elim (BitVec.allOnes 64) (BitVec.ofNat 64)), r.2.1, r.2.2.length) })
  match r.1 with
  | none => .ok (finishRestore f key d r.2.1 0 s)
  | some c =>
    if d.session = 0 then .ok (restoreAll f c d s)
    else match recoverStart opSnapshotRestore d (some c) s with
      | .ok s => .ok s
      | .error e => .ok (finishRestore f key d e.1 0 e.2)

/-- SNAPSHOT_RESTORE (14 R380 to R383); `others` and `manifests` are what the issuer reads from the other members and, unless it is the root, in the
root's slots. -/
def execSnapshotRestore (d : Desc) (others : List MemberStore) (manifests : List (List Byte)) (s : State) : Host.Outcome State Fault Refusal :=
  .next (serve s (descriptor opSnapshotRestore
      (bodyReserved d [(16, 24), (32, 37), (40, 45)] && decide (descByte d 24 < 2) && (d.session != 0 || d.epoch == 0)) true d fun s =>
    let f := s.descFold d
    let st := restoreNamed d s
    if st == stStaleEpoch then .ok (match s.sess d.session with
      | some y => refuseLease opSnapshotRestore d st y.record s
      | none => complete opSnapshotRestore d st 0 [] s)
    else if st != stOk then .error (st, s)
    else if hasN (s.fold f).snap.restores d.session.toNat || (d.session == 0 && s.snapBusy f) then .error (stBusy, s)
    else match s.hostPhys f (descNum d 40 6) 65536 0 with
      | .error e => .error (e, s)
      | .ok _ =>
        if descByte d 24 = 0 then restoreBody d others none manifests s
        else match s.hostRead f (descNum d 32 6) (288 + 64 * (s.contributors f).length) with
          | .error e => .error (e, s)
          | .ok m => restoreBody d others (some m) manifests s))

end Sys2Proof.Machine
end

