-- ==== Sys2Proof/Machine/Shrink.lean ====
section
/-! DEFINITION. The drove's membership: shrink after a loss (14 R384 to R387), rebalance (14 R388), join and leave (18 R460 to R464). -/
namespace Sys2Proof.Machine

/-! ### A member is lost (14 R384, R387) -/

/-- Index of the contributing member that is device `d`. -/
def State.memberOf (s : State) (f d : Nat) : Option Nat := (s.contributors f).find? (fun i => s.memberDev f i == d)

/-- The step of fold `f` abandoned and its items put back, to be run again when the drove goes on. -/
def haltStep (f : Nat) (s : State) : State :=
  match (s.fold f).step with
  | none => s
  | some st => (dropStep f s).modFold f (fun x => { x with attempts := x.attempts + 1, nextWork := st.items })

/-- A snapshot in progress abandoned: SNAPSHOT_DONE with ST_PEER_LOST, no marks, no header. -/
def abandonSnapshot (f : Nat) (s : State) : State :=
  let q := (s.fold f).snap
  if q.state != 1 && q.state != 2 then s else
  let s := if q.state = 2 && !q.reported then snapshotDone f 0 (s.memberIndex f) stPeerLost s else s
  let s := if s.isRoot f then snapshotDone f 1 0 stPeerLost s else s
  let s := if q.state = 2 then discardSheet f (s.slotBase f q.slot) (abandonShard f stPeerLost s) else s
  (endSnapshot f false s).modFold f (fun x => { x with cutAt := none })

/-- Whether the loss of member `l` leaves no copy of some slice (14 Table 14-6). -/
def State.fatalLoss (s : State) (f l : Nat) : Bool :=
  let q := (s.fold f).snap
  q.absorbed.any (fun a => a.2 == l || (a.1 + 1) % s.kvMembers f == l) ||
    q.lostMember.any (fun m => m != l && (s.predecessor f m == l || (m + 1) % s.kvMembers f == l))

/-- The turns of a fold that can go on no more end with ST_PEER_LOST. -/
def failFoldTurns (f : Nat) (s : State) : State :=
  s.sessions.foldl (fun s p => if p.2.fold == f && p.2.isOwner && p.2.turn.isSome then failTurn p.2.record.sessionId stPeerLost 0 s else s) s

/-- The members `l` told of the loss of device `d`, but for those lost and this one. -/
def tellLoss (f d : Nat) (l : List Nat) (s : State) : State :=
  (l.filter (fun e => e != s.selfNo && e != d && !s.fab.lost.contains e)).foldl (fun s e => mailTo f (.lost d) e s) s

/-- Whether this member leads the drove when `l`, device `d`, is lost: the root, or the predecessor of a root that is lost (14 R385 step 1). -/
def State.leadsLoss (s : State) (f l d : Nat) : Bool := if d = s.rootOf f then s.predecessor f l == s.memberIndex f else s.isRoot f

/-- Who is told by this member that declares `l` lost: the root and the predecessor; every member, who abandons its step, by the one that leads (14
R384). -/
def State.lossNews (s : State) (f l d : Nat) : List Nat :=
  if s.leadsLoss f l d then s.others f else [s.rootOf f, s.memberDev f (s.predecessor f l)].eraseDups

/-- Member `l` of the drove is lost: the drove halts; P begins the shrink at once where AUTO_SHRINK is set. A second loss waits for the running
shrink, or halts the drove for good. -/
def haltDrove (f l : Nat) (s : State) : State :=
  let s := abandonSnapshot f (haltStep f s)
  if s.fatalLoss f l then
    (failFoldTurns f s).modSnap f (fun q => { q with state := 5, halted := true, lostMember := none })
  else if (s.fold f).snap.lostMember.isSome then s
  else
    let auto := bitOf (s.act (rSnapStore f)) 9 && s.predecessor f l == s.memberIndex f
    s.modSnap f (fun q => { q with state := if auto then 4 else 5, halted := true, lostMember := some l })

/-- Another member's word that device `d` is lost (14 R384). -/
def lossHeard (f d : Nat) (s : State) : State :=
  match s.memberOf f d with
  | some l => if l = s.memberIndex f || (s.fold f).snap.lostMember == some l then s
    else haltDrove f l (if s.leadsLoss f l d then tellLoss f d (s.others f) s else s)
  | none => s

/-- Whether member `l` waits for a shrink: declared lost, and not taken over. -/
def State.shrinkable (s : State) (f l : Nat) : Bool :=
  (s.fold f).snap.lostMember == some l || ((s.fold f).snap.lostMember.isSome && (s.contributors f).contains l && s.fab.lost.contains (s.memberDev f l))

/-- DROVE_SHRINK (14 R384). -/
def execDroveShrink (d : Desc) (s : State) : Host.Outcome State Fault Refusal :=
  .next (serve s (descriptor opDroveShrink (bodyReserved d [(16, 16), (20, 23)] && decide (descNum d 20 4 < 2 ^ 18)) false d fun s =>
    let f := descByte d 16
    let l := descNum d 20 4
    if !s.formed f || !s.shrinkable f l then .error (stBadDescriptor, s)
    else if s.predecessor f l != s.memberIndex f then .error (stNotOwner, s)
    else if (s.fold f).snap.state = 4 then .error (stBusy, s)
    else .ok (s.modSnap f (fun q => { q with state := 4, job := some d, lostMember := some l }))))

/-! ### The shrink (14 R385) -/

/-- The wet sheets of pen `n` given up where a pool from slot `p` could not hold them all; their reservation is tried again at the next commits
(09 R244). -/
def fitWet (f p n : Nat) (s : State) : State :=
  let wet := (s.fold f).sheets.filter (fun e => e.2.tier == 0 && e.2.wet && e.2.loc % 64 == n)
  onlyIf (decide (96 - p < wet.length)) s
    ((s.sessions.filter (fun q => (q.2.wet.getD []).any (fun i => wet.any (fun e => e.1 == i)))).foldl
      (fun s q => releaseDraft q.2.record.sessionId s) s)

/-- Step 2: the understudy share expanded into T2, two more window groups pinned on every pen. -/
def takeSlice (f : Nat) (s : State) : Tried State :=
  match (s.fold f).active.bind (fun k => (s.image f k).map (fun img => (k, img))) with
  | none => .ok s
  | some (slot, img) =>
    let p := min 96 ((s.fold f).pinned + 2 * img.groupSlots)
    let s := (s.fold f).penList.foldl (fun s n => packPool f p n (fitWet f p n s)) s
    let s := s.modFold f (fun x => { x with pinned := p })
    andThen (expandAt f slot 1 img understudyKey s) (placeUnderstudy f slot img)

/-- One sheet of the lost member's share placed from the replica at `b`. -/
def placeShare (f b j : Nat) (s : State) : Tried State :=
  andThen (newSheet f 2 (s.dirKind f b j) none false false s) fun r =>
    let s := r.2
    let s := pokeSheet f r.1 0 (s.read (s.sheetOffset f (s.dataSheet f b j)) 65536) s
    let s := if s.dirPoisoned f b j then s.addPoison ((List.range 1024).map (s.sheetOffset f r.1 / 64 + ·)) else s
    .ok (s.modSnap f (fun q => { q with share := setN q.share (s.dirIndex f b j) r.1 }))

/-- Step 3: the lost member's capture set from the replica of the newest complete snapshot. -/
def takeShare (f l : Nat) (s : State) : Tried State :=
  match ((List.range (s.snapSlots f)).map (s.replicaBase f)).find? (fun b =>
      s.headerOk f b && s.shardStep f b == (s.fold f).snap.lastStep.toNat && s.shardMember f b == l) with
  | none => .ok s
  | some b => (List.range (s.shardData f b)).foldl (fun t j => andThen t (placeShare f b j)) (.ok s)

/-- Step 4: the lease of an own session that held sheets on the lost member swapped to the next epoch, its image restored, its turn replayed. -/
def shrinkSession (f : Nat) (x : W64) (s : State) : State :=
  match s.sess x with
  | none => s
  | some y =>
    let r := y.record
    if !y.isOwner || y.fold != f || y.move.isSome || r.lease.lstate != 0 || r.lease.holder != s.selfNo || y.kvNext = 0 || epochTop ≤ r.lease.epoch then s
    else
      let last := (s.fold f).snap.lastStep
      let s := dropJobs x s
      let s := s.modRec x (fun r => { r with priorState := if isParked r.state then r.priorState else if r.state = stateActive then r.priorState else r.state })
      recoverTake x f opDroveShrink none (if last = BitVec.allOnes 64 then none else some last.toNat) r s

/-- Steps 1 and 4 to 6, at every surviving member: the root, the absorbed index, COUNT, the own sessions. -/
def finishShrink (f l : Nat) (s : State) : State :=
  let p := s.predecessor f l
  let m := s.act (rFabFoldMember f)
  let root := if s.memberDev f l = s.rootOf f then s.memberDev f p else s.rootOf f
  let s := s.setAct (rFabFoldMember f) (m % 2 ^ 18 + (bitsOf m 36 18 - 1) * 2 ^ 18 + root * 2 ^ 46)
  let s := s.modSnap f (fun q => { q with state := 0, halted := false, lostMember := none, absorbed := insertBy (fun a b => a.1 ≤ b.1) (l, p) q.absorbed })
  let s := (s.sessions.map (fun q => q.2.record.sessionId)).foldl (fun s x => shrinkSession f x s) s
  match (s.contributors f).find? (fun i => s.fab.lost.contains (s.memberDev f i)) with
  | some q => haltDrove f q s
  | none => s

/-- P's word that the shrink of member `l` is done, at another member. -/
def shrinkHeard (f l src : Nat) (s : State) : State :=
  if (s.contributors f).contains l && l != s.memberIndex f && s.memberDev f (s.predecessor f l) == src then
    finishShrink f l (if (s.fold f).snap.lostMember == some l then s else haltDrove f l s) else s

/-- The members other than this one and `l` told that the shrink of `l` is done. -/
def tellShrunk (f l : Nat) (s : State) : State :=
  ((s.others f).filter (fun e => e != s.memberDev f l && !s.fab.lost.contains e)).foldl (fun s e => mailTo f (.shrunk l) e s) s

/-- SHRINK_COMPLETE (14 R385): at P the slice and the share are taken and the drove goes on; at another member P's word that it has. A share that
finds no room leaves the drove halted (log entry 62). -/
def execShrinkComplete (f : Nat) (s : State) : Host.Outcome State Fault Refusal :=
  .next (serve s fun s =>
    let q := (s.fold f).snap
    match q.lostMember with
    | none => s
    | some l =>
      if s.predecessor f l != s.memberIndex f then finishShrink f l s
      else if q.state != 4 then s
      else
        let job := q.job
        let s := s.modSnap f (fun q => { q with job := none, share := [] })
        let done (st : W16) (spec : List Byte) (s : State) : State := match job with
          | some d => complete opDroveShrink d st 0 spec s
          | none => s
        match andThen (takeSlice f s) (takeShare f l) with
        | .error e => done e.1 [] (e.2.modSnap f (fun q => { q with state := 5 }))
        | .ok s =>
          let s := (finishShrink f l (tellShrunk f l s)).count (rSnapShrinks f) 1
          done stOk (leBytes 8 (s.fold f).stepNo) s)

/-! ### DROVE_REBALANCE (14 R388) -/

/-- DROVE_REBALANCE: as MODEL_ACTIVATE, with an image registered for the members that are left; it also restarts a drove a second loss has halted. -/
def execDroveRebalance (d : Desc) (s : State) : Host.Outcome State Fault Refusal :=
  .next (serve s (descriptor opDroveRebalance (bodyReserved d [(16, 17), (20, 23)]) false d fun s =>
    let f := descByte d 16
    let k := descByte d 17
    match (if s.formed f && decide (k < 32) then s.image f k else none) with
    | none => .error (stBadDescriptor, s)
    | some img =>
      let p := img.pinnedSlots (s.act (rScrWindowDepth f))
      if img.members != s.droveSize f || 96 < p then .error (stBadDescriptor, s)
      else if (s.fold f).drain.isSome then .error (stBusy, s)
      else if s.room f 2 < poolExcess (s.fold f) p then .error (stQuota, refuseQuota f 2 s)
      else startDrain f 2 (descNum d 20 4) d k
        (s.modSnap f (fun q => if q.halted && q.lostMember.isNone then { q with halted := false, state := 0 } else q))))

/-! ### DROVE_JOIN (18 R460 to R463) -/

/-- The join block's devices. -/
def joinDevices (b : List Byte) : List Nat := (List.range (leAt b 16 4)).map (fun k => leAt b (128 + 4 * k) 4)

/-- Whether a join block is laid out as 18 Table 18-6 gives it. -/
def joinBlockOk (b : List Byte) : Bool :=
  b.take 8 == [0x53, 0x4B, 0x39, 0x4A, 0x4F, 0x49, 0x4E, 0x01] && leAt b 8 2 == 1 && leAt b 10 2 == 0 && leAt b 12 4 != 0 &&
    decide (1 ≤ leAt b 16 4) && decide (leAt b 16 4 ≤ 262144) && leAt b 22 2 == 0 && sliceB b 72 56 == zerosB 56 &&
    (joinDevices b).all (fun d => decide (d < 2 ^ 18))

/-- Check 1 of 18 R462 beyond the fold's existence. -/
def joinListOk (s : State) (f : Nat) (b : List Byte) : Bool :=
  let l := joinDevices b
  joinBlockOk b && s.self.isSome && l.eraseDups.length == l.length && l.contains s.selfNo &&
    !s.folds.any (fun p => p.1 != f && (s.drove p.1 == some (leAt b 12 4) || p.2.join.any (fun j => j.drove.toNat == leAt b 12 4)))

/-- Check 2. A fold that a warm reset has halted is in no drove and waits to be joined (16 R429). -/
def joinBusy (s : State) (f : Nat) : Bool :=
  (s.drove f).isSome || (s.fold f).join.isSome || (s.fold f).drain.isSome || (s.snapBusy f && !(s.fold f).snap.halted) ||
    (s.fold f).seqs.any (fun e => e.2.phase == 1 || e.2.phase == 2 || e.2.phase == 3)

/-- Check 3: the field that differs, 1 FW_MAJOR, 2 IMAGE_DIGEST, 0 none. -/
def joinMismatch (s : State) (f : Nat) (b : List Byte) : Nat :=
  if leAt b 20 2 != s.stageVersion 4 / 65536 then 1 else if sliceB b 24 48 != padTo 48 ((s.activeImage f).elim [] (·.digest)) then 2 else 0

/-- SPECIFIC bytes of a join. -/
def joinSpecific (index m : Nat) : List Byte := leBytes 4 index ++ leBytes 4 m ++ [0, 0, 0]

/-- A pending join commits (18 Table 18-7). -/
def commitJoin (f : Nat) (s : State) : State :=
  match (s.fold f).join with
  | none => s
  | some j =>
    let m := j.members.length
    let s := s.setAct (rFabFoldDrove f) (j.drove.toNat + 2 ^ 32)
    let s := s.setAct (rFabFoldMember f) (j.index + m * 2 ^ 18 + j.members.headD 0 * 2 ^ 46)
    let s := s.modFold f (fun x => { x with
      join := none, members := j.members, stepNo := 0, snap := { x.snap with absorbed := [], share := [], state := 0, halted := false, lostMember := none } })
    complete opDroveJoin j.desc stOk 0 (joinSpecific j.index m) s

/-- The report of member `i` of the join block `b` to member 0 (18 R463). -/
def sendReport (f i : Nat) (st : W16) (field : Nat) (b : List Byte) (s : State) : State :=
  if i = 0 then s else mailJoin f (BitVec.ofNat 32 (leAt b 12 4)) (.joinReport i st field) ((joinDevices b).headD 0) s

/-- A pending join given up with `st`, naming member `i`. -/
def dropJoin (f i : Nat) (st : W16) (s : State) : State :=
  match (s.fold f).join with
  | none => s
  | some j => complete opDroveJoin j.desc st 0 (joinSpecific i 0) (s.modFold f (fun x => { x with join := none }))

/-- The root's verdict sent to the members that have reported. -/
def sendVerdict (f i : Nat) (st : W16) (j : Join) (s : State) : State :=
  (j.reports.filter (fun r => r.1 != j.index)).foldl (fun s r => mailJoin f j.drove (.joinVerdict i st) (j.members.getD r.1 s.selfNo) s) s

/-- A join that the root gives up, telling those that have reported; those still to report are told then (18 Table 18-7). -/
def refuseJoin (f i : Nat) (st : W16) (s : State) : State :=
  match (s.fold f).join with
  | none => s
  | some j => dropJoin f i st ((sendVerdict f i st j s).modFold f (fun x => { x with joinOver := some (j.drove, st, i) }))

/-- Reserved fields of DROVE_JOIN (18 R460). -/
def joinReserved (d : Desc) : Bool :=
  bodyReserved d [(16, 16), (20, 29), (32, 32)] && decide (descByte d 32 < 2) && decide (1000 ≤ descNum d 20 4)

/-- DROVE_JOIN. A descriptor with LEAVE is the other row's (log entry 5). A member whose version or image differs reports so (log entry 101). -/
def execDroveJoin (d : Desc) (s : State) : Host.Outcome State Fault Refusal :=
  .next (if bitOf (descByte d 32) 0 then s else serve s (descriptor opDroveJoin (joinReserved d) false d fun s =>
    let f := descByte d 16
    let a := descNum d 24 6
    if !s.formed f then .error (stBadDescriptor, s)
    else match s.hostRead mgmtPath a 128 with
      | .error e => .error (e, s)
      | .ok h => match s.hostRead mgmtPath a (128 + 4 * min 262144 (leAt h 16 4)) with
        | .error e => .error (e, s)
        | .ok b =>
          if !joinListOk s f b then .error (stBadDescriptor, s)
          else if joinBusy s f then .error (stBusy, s)
          else if joinMismatch s f b != 0 then
            .error (stVersion, sendReport f ((joinDevices b).findIdx (· == s.selfNo)) stVersion (joinMismatch s f b) b s)
          else
            let l := joinDevices b
            let i := l.findIdx (· == s.selfNo)
            let j : Join := { desc := d, drove := BitVec.ofNat 32 (leAt b 12 4), members := l, index := i, deadline := s.now + descNum d 20 4
                              reports := [(i, stOk)] }
            let s := s.modFold f (fun x => { x with join := some j, joinOver := none })
            .ok (if l.length = 1 then commitJoin f s else sendReport f i stOk 0 b s)))

/-- Member `i`'s report of join `j` at the root: the last one commits the join on every member, a mismatch rejects it. -/
def takeReport (f i : Nat) (st : W16) (j : Join) (s : State) : State :=
  if j.members.length ≤ i then s
  else
    let j := { j with reports := setN j.reports i st }
    let s := s.modFold f (fun x => { x with join := some j })
    if st != stOk then refuseJoin f i stVersion s
    else if j.reports.length = j.members.length then commitJoin f (sendVerdict f 0 stOk j s) else s

/-- JOIN_REPORT (18 R463, Table 18-7): at the root a member's report; at another member the root's verdict against the join, naming the first
mismatched index. Without a pending join nothing changes here. -/
def execJoinReport (f i : Nat) (st : W16) (s : State) : Host.Outcome State Fault Refusal :=
  .next (serve s fun s =>
    match (s.fold f).join with
    | none => s
    | some j => if j.index != 0 then (if st == stOk then s else dropJoin f i st s) else takeReport f i st j s)

/-- A report for drove `drove` from device `src`, and the status that answers it: with no join pending for it the answer is abandon, or, where that join
has come to nothing, the verdict (18 Table 18-7). -/
def reportArrives (f i : Nat) (st : W16) (drove : W32) (src : Nat) (s : State) : W16 × State :=
  match (s.fold f).join with
  | some j => if j.index = 0 && j.drove = drove && j.members[i]? == some src then (stOk, takeReport f i st j s) else (stPeerLost, s)
  | none => match (s.fold f).joinOver with
    | some (d, v, k) => if d = drove then (stOk, mailJoin f drove (.joinVerdict k v) src s) else (stPeerLost, s)
    | none => (stPeerLost, s)

/-- The root's verdict at another member. -/
def verdictArrives (f i : Nat) (st : W16) (drove : W32) (src : Nat) (s : State) : State :=
  match (s.fold f).join with
  | some j => if j.index != 0 && j.drove = drove && j.members.head? == some src then (if st == stOk then commitJoin f s else dropJoin f i st s) else s
  | none => s

/-- JOIN_COMMIT (18 Table 18-7): at the root once all have reported ST_OK; at another member the root's commit. -/
def execJoinCommit (f : Nat) (s : State) : Host.Outcome State Fault Refusal :=
  .next (serve s fun s =>
    match (s.fold f).join with
    | none => s
    | some j => onlyIf (j.index != 0 || j.reports.length == j.members.length) s (commitJoin f s))

/-- JOIN_LIMIT_EXPIRY (18 Table 18-7), on the root's timer; the index named is the first that has not reported (log entry 63). -/
def execJoinLimitExpiry (f : Nat) (s : State) : Host.Outcome State Fault Refusal :=
  .next (serve s fun s =>
    match (s.fold f).join with
    | none => s
    | some j =>
      if j.index != 0 || s.now < j.deadline || j.reports.length = j.members.length then s
      else refuseJoin f (((List.range j.members.length).find? (fun i => !hasN j.reports i)).getD 0) stPeerLost s)

/-- DROVE_LEAVE: DROVE_JOIN with LEAVE (18 R464). -/
def execDroveLeave (d : Desc) (s : State) : Host.Outcome State Fault Refusal :=
  .next (if !bitOf (descByte d 32) 0 then s else serve s (descriptor opDroveJoin (joinReserved d) false d fun s =>
    let f := descByte d 16
    if !s.formed f || (s.drove f).isNone then .error (stBadDescriptor, s)
    else if (s.fold f).drain.isSome then .error (stBusy, s)
    else startDrain f 3 (descNum d 20 4) d 0 s))

end Sys2Proof.Machine
end

