-- ==== Sys2Proof/Machine/FabAnswer.lean ====
section
/-! DEFINITION. What the answers to this device's requests do (13 R341, R352 to R355): by the engine that waits for each, and when the destination is
declared lost. -/
namespace Sys2Proof.Machine

/-! ### Record operations (04 R94, R112) -/

/-- A descriptor whose lease is good, performed (04 R112). -/
def resumeOp (op : Nat) (d : Desc) (y : Sess) (s : State) : State :=
  if op = opTurnSubmit || op = opToolResult then turnBody op d y s
  else if op = opTurnCancel then cancelBody d y s
  else if op = opSessionClose then closeBody d y s
  else if op = opStreamResend then resendBody d y s
  else if op = opSessionPark then parkBody d y s
  else if op = opSessionRevive then reviveBody d y s
  else if op = opSessionMove then offerBody d y s
  else complete op d stBadDescriptor 0 (s.sessInfo d.session) s

/-- SPECIFIC bytes of a refusal that is not by the lease checks. -/
def plainSpecific (op : Nat) (d : Desc) (s : State) : List Byte :=
  if op = opTurnSubmit || op = opToolResult then turnEarly d s else s.sessInfo d.session

/-- The home's record read for a descriptor of a session (04 R111, R112). -/
def recordAnswered (op : Nat) (d : Desc) (st : W16) (l : List Byte) (s : State) : State :=
  if st != stOk then complete op d st 0 (plainSpecific op d s) s
  else
    let r := recordOf l
    judgeLease op d (plainSpecific op d) (resumeOp op d) r
      (s.modSess d.session (fun y => if y.isHome then y else { y with record := { y.record with lease := r.lease } }))

/-- A write to the home has been answered: lost with the home (04 R123), or refused, upon which the lease is read again (04 R112). -/
def writeAnswered (x : W64) (st : W16) (s : State) : State :=
  match s.sess x with
  | none => s
  | some y =>
    if !y.isOwner || y.isHome then s
    else if st == stPeerLost then homeLost x s
    else if st == stStaleEpoch || st == stNotOwner then rereadHome x s
    else s

/-- Transcript entries read from the home: those the area holds, to the session's cache (03 R84, 04 R116); then what asked for them. -/
def transcriptRead (x : W64) (desc : Option (Nat × Desc)) (st : W16) (bad : List Nat) (l : List Byte) (s : State) : State :=
  match s.sess x with
  | none => resendAsked x desc st s
  | some y =>
    let m7 := y.move.filter (fun m => m.stage == 7)
    if st != stOk then
      let s := resendAsked x desc st s
      match m7 with
      | some m => if st == stPoison then recoverEnd x m st s
        else recoverDone x m st 0 (s.recoverInfo x st) (s.modSess x (fun y => { y with move := none }))
      | none => if st == stPeerLost then homeLost x s else s
    else
      let r := y.record
      let area := 8192 * max 1 r.tailSheets
      let cache := (List.range (r.txHead - r.txFirst)).foldl (fun c i =>
        setN c (r.txFirst + i) (BitVec.ofNat 64 (leAt l ((r.txFirst + i) % area * 8) 8))) y.txCache
      let s := s.modSess x (fun y => { y with txCache := cache })
      let held (u : Nat) : Bool := (List.range (r.txHead - r.txFirst)).any (fun i => (r.txFirst + i) % area * 8 / 64 == u)
      match m7 with
      | some m => if bad.any held then recoverEnd x m stPoison s else recoverImage x m s
      | none => pumpSession x (resendAsked x desc stOk s)

/-- Whether a compare-and-swap has found what it compared with. -/
def swapGood (m : OutMsg) (st : W16) (l : List Byte) : Bool := st == stOk && leAt l 0 8 == leAt m.packet.payload 0 8

/-- The status a failed swap stands for: a changed lease is ST_STALE_EPOCH (04 R113). -/
def swapStatus (st : W16) : W16 := if st == stOk then stStaleEpoch else st

/-- A record read for a recovery or a restore has come. -/
def recoverRead (x : W64) (m : OutMsg) (st : W16) (l : List Byte) (s : State) : State :=
  let c := m.packet.oparg.toNat
  let step := if c = 2 ^ 64 - 1 then none else some c
  match m.desc, m.fold with
  | some (op, d), some f =>
    if st != stOk then (if op = opSnapshotRestore then finishRestore f x.toNat d st 0 s else complete op d st 0 (s.sessInfo x) s)
    else recoverRecord op d step (recordOf l) s
  | none, some f => if st != stOk then s else restoreFound f c (recordOf l) s
  | _, none => s

/-- The root's answer to a request for admission (05 R126): a descriptor goes on with it, a turn that stands already is settled or fails. -/
def admitAnswered (f : Nat) (x : W64) (desc : Option (Nat × Desc)) (st : W16) (s : State) : State :=
  match desc with
  | some d => turnPlaced d.1 d.2 st s
  | none =>
    if st == stDeferred then s
    else if st != stOk then failTurn x st 0 s
    else match settleRequest f x ((s.sess x).any (·.record.latencyCritical)) 0 0 .granted s with
      | .ok s => s
      | .error e => e.2

/-- What the response to message `m` does: status, payload, poisoned units. -/
def answer (m : OutMsg) (st : W16) (l : List Byte) (bad : List Nat) (s : State) : State :=
  match m.purpose with
  | .other | .probe | .leaseConfirm _ | .reduction _ => s
  | .joinReport f => if st == stOk || !(s.fold f).join.any (fun j => j.index != 0) then s else dropJoin f 0 stPeerLost s
  | .leaseOffer x => offerSwapped x (swapStatus st) (swapGood m st l) s
  | .leaseAccept x =>
    if m.packet.op = fabOpRead then
      match m.desc with
      | some (op, d) => if st == stOk then acceptRecord d (recordOf l) s else complete op d st 0 (s.sessInfo x) s
      | none => s
    else acceptSwapped x (swapStatus st) (swapGood m st l) s
  | .leasePoll x => if st == stOk then leasePolled x (leaseOf (leAt l 0 8)) s else if st == stPeerLost then homeLost x s else s
  | .examine x => examined x st s
  | .leaseRecover x =>
    let s := if m.packet.op = fabOpRead then recoverRead x m st l s else recoverSwapped x (swapStatus st) (swapGood m st l) s
    m.fold.elim s (fun f => settleRestore f s)
  | .pull x => pullAnswer x m.packet.addr st bad l s
  | .append x => transcriptAcked x st s
  | .transcript x => m.fold.elim (transcriptRead x m.desc st bad l s) (fun f => settleRestore f (transcriptRead x m.desc st bad l s))
  | .attend f q h r i => attendResult f q h r i st l s
  | .replica f => if st != stOk && (s.fold f).snap.state == 2 && !(s.fold f).snap.reported then failShard f st s else s
  | .askSlot x => m.fold.elim s (fun f => admitAnswered f x m.desc st s)
  | .posting f => postAnswered f st s
  | .parkAsk x => parkAnswered x m.packet.dst st s
  | .drain f => drainAnswered f (mailOf m.packet m.packet.payload == some .drainStop) st s
  | .record x =>
    match m.desc with
    | some (op, d) => recordAnswered op d st l s
    | none =>
      if m.packet.op = fabOpRead then
        (if st == stOk then s.modSess x (fun y => if y.isHome then y else { y with record := { y.record with lease := (recordOf l).lease } }) else s)
      else writeAnswered x st s

/-- Message `tag` over: off the outstanding ones, held messages sent, its engine told. -/
def finishRequest (tag : Nat) (st : W16) (l : List Byte) (bad : List Nat) (s : State) : State :=
  match getN s.fab.outstanding tag with
  | none => s
  | some m =>
    answer m st l bad (releaseHeld { s with fab := { s.fab with outstanding := delN s.fab.outstanding tag } })

/-! ### FAB_RESPONSE (13 R341, R352) -/

/-- Fragments of a response of `n` bytes. -/
def fragCount (n : Nat) : Nat := max 1 (ceilDiv n 4096)

/-- Whether response `p` says that the destination has no room for this source's ordered class: nothing was performed, and message `m` is resent after
FAB_RETRY (13 R350). -/
def turnedAway (m : OutMsg) (p : Packet) : Bool := !m.packet.unordered && p.status == stBusy

/-- FAB_RESPONSE (13 R352): matched by TAG; the message is over when every fragment has come. -/
def execFabResponse (p : Packet) (s : State) : Host.Outcome State Fault Refusal :=
  .next (serve s fun s =>
    let s := { s with fab := { s.fab with inbox := dropFirst p s.fab.inbox } }
    match getN s.fab.outstanding p.tag.toNat with
    | none => s
    | some m =>
      if p.ptype != 1 || p.src != m.packet.dst || p.op != m.packet.op || s.fab.lost.contains p.src then s
      else if turnedAway m p then
        { s with fab := { s.fab with outstanding := setN s.fab.outstanding p.tag.toNat { m with lastSent := s.now } } }
      else
        let got := setN m.response p.frag p
        if got.length < fragCount p.len then
          { s with fab := { s.fab with outstanding := setN s.fab.outstanding p.tag.toNat { m with response := got } } }
        else
          finishRequest p.tag.toNat p.status (got.flatMap (fun q => q.2.payload))
            (got.flatMap (fun q => (bitsSet 64 q.2.pmask.toNat).map (fun u => q.1 * 64 + u))) s)

/-! ### A device declared lost (13 R355, R356) -/

/-- Whether session `y` names device `d`: its home, holder or receiver. -/
def Sess.names (y : Sess) (d : Nat) : Bool :=
  sidDevice y.record.sessionId == d || y.record.lease.holder == d || (y.record.lease.lstate == 1 && y.record.peer.device == d)

/-- PEER_LOST to each fold concerned: those with operations failed, in a drove with `d`, or with a session that names it. -/
def postPeerLost (d cause : Nat) (failed : List Nat) (s : State) : State :=
  s.folds.foldl (fun t p =>
    let f := p.1
    let n := (failed.filter (· == f)).length
    let member := (s.memberOf f d).isSome && (s.drove f).isSome
    let named := s.sessions.any (fun q => q.2.names d && ((q.2.isOwner && q.2.fold == f) || (q.2.isHome && sidFold q.2.record.sessionId == f)))
    if p.2.status != 2 || !(decide (0 < n) || member || named) then t
    else postFold evPeerLost f stOk 0 (leBytes 4 d ++ leBytes 1 cause ++ leBytes 4 n ++ leBytes 1 (b2n member) ++ [0]) t) s

/-- Device `d` declared lost for `cause` (13 R355): operations failed, records examined, folds halted, events written. -/
def declareLost (d cause : Nat) (s : State) : State :=
  if s.fab.lost.contains d || d = s.selfNo then s else
  let s₀ := s
  let out := s.fab.outstanding.filter (fun m => m.2.packet.dst == d)
  let s := { s with fab := { s.fab with lost := insertBy (fun a b => a ≤ b) d s.fab.lost, inbox := s.fab.inbox.filter (fun p => p.src != d)
                                        gather := s.fab.gather.filter (fun p => p.src != d) } }
  let s := (s.count rFabLostCount 1).count rFabLostOps out.length
  let s := postPeerLost d cause (out.filterMap (fun m => m.2.fold)) { s₀ with fab := s.fab, regs := s.regs }
  let s := out.foldl (fun s m => finishRequest m.1 stPeerLost [] [] s) s
  let ids := s.sessions.map (fun q => q.2.record.sessionId)
  let s := ids.foldl (fun s x => match s.sess x with
    | some y =>
      if y.isHome then (if y.names d && sidDevice x != d then examine x (fun e => s.fab.lost.contains e) s else s)
      else if y.isOwner && sidDevice x == d then homeLost x s
      else s
    | none => s) s
  (s.folds.map (·.1)).foldl (fun s f =>
    let s := if (s.fold f).join.any (fun j => j.index != 0 && j.members.headD 0 == d) then dropJoin f 0 stPeerLost s else s
    match (if (s.drove f).isSome && decide (2 ≤ (s.contributors f).length) then s.memberOf f d else none) with
    | some l => haltDrove f l (tellLoss f d (s.lossNews f l d) s)
    | none => s) s

/-! ### Retry and watch (13 R353, R354) -/

/-- Limits as they act. -/
def State.e2eLimit (s : State) : Nat := max 100 (s.act rFabE2eLimit)
def State.retryTime (s : State) : Nat := max 1 (s.act rFabRetry)
def State.watchPeriod (s : State) : Nat := max 10 (s.act rFabWatchPeriod)

/-- FAB_RETRY_EXPIRY (13 R353): the message resent under its tag and numbers; past FAB_E2E_LIMIT its destination is lost, and one with no route any
more is over at once (13 R337; log entry 174). -/
def execFabRetryExpiry (tag : W32) (s : State) : Host.Outcome State Fault Refusal :=
  .next (serve s fun s =>
    match getN s.fab.outstanding tag.toNat with
    | none => s
    | some m =>
      if m.sent && (s.route m.packet).isNone then finishRequest tag.toNat stPeerLost [] [] (s.count rFabNoRoute 1)
      else if !m.sent || s.now < m.lastSent + s.retryTime then s
      else if m.firstSent + s.e2eLimit ≤ s.now then
        if s.fab.lost.contains m.packet.dst then finishRequest tag.toNat stPeerLost [] [] s else declareLost m.packet.dst 0 s
      else
        let s := { s with fab := { s.fab with outstanding := setN s.fab.outstanding tag.toNat { m with lastSent := s.now } } }
        (fragmentsWith m.bad m.packet).foldl (fun s p => emitPacket p s) s)

/-- The devices watched, rising, at most 4,096. -/
def State.watched (s : State) : List Nat :=
  let folds := s.folds.flatMap (fun p =>
    let f := p.1
    let l := s.contributors f
    let i := s.memberIndex f
    let next := ((l.filter (fun j => i < j)).head?).getD (l.headD 0)
    (if (s.drove f).isSome then [s.rootOf f, s.memberDev f (s.predecessor f i), s.memberDev f next] else []) ++
      (p.2.join.elim [] (fun j => if j.index = 0 then [] else [j.members.headD 0])))
  let recs := s.sessions.flatMap (fun p =>
    let r := p.2.record
    (if p.2.isHome && !(r.lease.lstate == 0 && r.lease.holder == s.selfNo) && r.lease.lstate != 3 then
      r.lease.holder :: (if r.lease.lstate = 1 then [r.peer.device] else []) else []) ++
    (if p.2.isOwner then [sidDevice r.sessionId] else []))
  (sortBy (fun a b => a ≤ b) ((folds ++ recs).eraseDups.filter (fun d => d != s.selfNo))).take 4096

/-- WATCH_PROBE (13 R354): a probe to a watched device silent for FAB_WATCH_PERIOD, repeated at that interval; a device never heard is watched
from its first probe. -/
def execWatchProbe (d : Nat) (s : State) : Host.Outcome State Fault Refusal :=
  .next (serve s fun s =>
    let silent := (getN s.fab.heard d).elim true (fun t => decide (t + s.watchPeriod ≤ s.now))
    let due := (getN s.fab.probed d).elim true (fun t => decide (t + s.watchPeriod ≤ s.now))
    if !s.watched.contains d || s.fab.lost.contains d || !silent || !due then s
    else
      let s := { s with fab := { s.fab with probed := setN s.fab.probed d s.now
                                            heard := if hasN s.fab.heard d then s.fab.heard else setN s.fab.heard d s.now } }
      match fabRequest .probe none none (s.requestPacket none issSys fabOpRead d 0 0 false false 0 0 0 []) s with
      | .ok s => s
      | .error e => e.2)

/-- WATCH_SILENCE (13 R354): a watched device from which nothing has come for FAB_E2E_LIMIT is declared lost. -/
def execWatchSilence (d : Nat) (s : State) : Host.Outcome State Fault Refusal :=
  .next (serve s fun s =>
    onlyIf (s.watched.contains d && (getN s.fab.heard d).any (fun t => decide (t + s.e2eLimit ≤ s.now))) s (declareLost d 1 s))

/-- Device `d` no longer lost. -/
def clearLost (d : Nat) (s : State) : State :=
  { s with fab := { s.fab with lost := s.fab.lost.filter (· != d), heard := delN s.fab.heard d, probed := delN s.fab.probed d } }

/-- FAB_LOST_CLEAR (13 R355): the device is no longer lost. -/
def execFabLostClear (d : Nat) (s : State) : Host.Outcome State Fault Refusal := .next (serve s (clearLost d))

end Sys2Proof.Machine
end

