-- ==== Sys2Proof/Machine/Heed.lean ====
section
/-! DEFINITION. What a message from another member of the drove does on this device, and the status that answers it (05 R126, R131, R140, 04 R96, R104
to R109, R121, 09 R244, 14 R367; log entry 134). -/
namespace Sys2Proof.Machine

/-- A request for admission that an owner sends to the root: placed, and a deferred one announced to its owner (05 R126, R133). -/
def heedAdmit (f : Nat) (x : W64) (lc : Bool) (src : Nat) (s : State) : W16 × State :=
  if !s.isRoot f then (stNotOwner, s) else
  match placeRequest f x lc (some src) s with
  | (.queued r a, s) => (stDeferred, mailTo f (.deferred x r a) src s)
  | (.full, s) => (stSeqFull, s)
  | (_, s) => (stOk, s)

/-- A turn that has failed at another member fails for its owner, if it still runs (04 R123). -/
def heedFail (x : W64) (n : Nat) (st : W16) (s : State) : State := match s.sess x with
  | some y => if y.isOwner && y.turn.isSome && y.record.turn == n then failTurn x st (if st = stPoison then flPoisoned else 0) s else s
  | none => s

/-- A session's share here, if it is one. -/
def State.shareHere (s : State) (x : W64) : Option Sess := (s.sess x).filter (fun y => y.share && !y.isOwner)

/-- A SESSION_REVIVE of the owner: the share's part begins; with no share there is nothing to promote (04 R107). -/
def heedRevive (f : Nat) (x : W64) (src : Nat) (s : State) : State := match s.shareHere x with
  | some _ => startRevive x none false s
  | none => mailTo f (.layers x 0 255 stOk) src s

/-- The owner's question whether a park has room here, or its word to begin it (04 R104). -/
def heedPark (f : Nat) (x : W64) (t : Nat) (parked go : Bool) (src : Nat) (s : State) : W16 × State := match s.shareHere x with
  | some y => if go then (stOk, holdPark x t parked s) else (if s.parkRoom y t parked then stOk else stQuota, s)
  | none => (stOk, if go then mailTo f (.parked x stOk t) src s else s)

/-- The owner's word that a park is stopped: what it still waits for is not asked for any more (04 R106). -/
def heedParkStop (x : W64) (s : State) : State := match (s.shareHere x).bind (fun y => y.park.map (fun p => (y.fold, p))) with
  | some (f, p) =>
    (s.modFold f (fun z => { z with requests := z.requests.filter (fun r => !(p.left.contains r.1 && r.2 == p.target)) })).modSess x
      (fun y => { y with park := none })
  | none => s

/-- A drain stopped at its issuer's word, before its boundary (04 R121 step 4). -/
def heedDrainStop (f src : Nat) (s : State) : W16 × State :=
  if (s.fold f).drain.any (fun d => d.issuer == some src && !d.loading) then (stOk, s.modFold f (fun x => { x with drain := none })) else (stDeferred, s)

/-- Message `m` from member `src` of fold `f`'s drove. -/
def heed (f src : Nat) (m : Mail) (s : State) : W16 × State :=
  match m with
  | .askSlot x lc => heedAdmit f x lc src s
  | .deferred x r a => (stOk, announce f x r a s)
  | .leave x => (stOk, if (s.sess x).any (·.isOwner) then s else endShare f x (dequeue f x s))
  | .fail x n st => (stOk, heedFail x n st s)
  | .suspend => (stOk, suspendStep f s)
  | .seat b => if b.record.lease.holder = src then (stOk, seatRoster f (seatArrives f b s)) else (stNotOwner, s)
  | .drop x => (stOk, shareDropped f x s)
  | .list p => if src = s.rootOf f then listArrives f p s else (stNotOwner, s)
  | .reserved x h => (stOk, (s.memberOf f src).elim s (fun i => reservedReported f x i h s))
  | .layers x n l st => (stOk, (s.memberOf f src).elim s (fun i => layersReported f x n i l st s))
  | .revive x => (stOk, heedRevive f x src s)
  | .park x t parked go => heedPark f x t parked go src s
  | .parkStop x => (stOk, heedParkStop x s)
  | .parked x st t => (stOk, holderParked x src t st s)
  | .drain k a l d => if s.isRoot f then (match drainAsked f k a l d src s with
    | some s => (stOk, s)
    | none => (stDeferred, s)) else (stNotOwner, s)
  | .drainStop => heedDrainStop f src s
  | .cut c k => (stOk, takeCutNews f (some (c, k)) s)
  | .logits n => if s.isRoot f then (stOk, slicesArrive f src n s) else (stNotOwner, s)
  | .record c a vs => if src = s.rootOf f then (stOk, recordArrives f c a vs s) else (stNotOwner, s)
  | .shard c r => if s.isRoot f then (stOk, shardReported f c r s) else (stNotOwner, s)
  | .snapped c good => if src = s.rootOf f then (stOk, snapshotClosed f c good s) else (stNotOwner, s)
  | .lost d => (stOk, lossHeard f d s)
  | .shrunk l => (stOk, shrinkHeard f l src s)
  | .joinReport .. | .joinVerdict .. => (stBadDescriptor, s)

/-- A message of a join for drove `drove` (18 R463). -/
def heedJoin (f src : Nat) (drove : W32) (m : Mail) (s : State) : W16 × State :=
  match m with
  | .joinReport i st _ => reportArrives f i st drove src s
  | .joinVerdict i st => (stOk, verdictArrives f i st drove src s)
  | _ => (stBadDescriptor, s)

/-- The fold that a join's message belongs to: the one with the drove's join pending, or over, or joined to it (18 R463). -/
def State.joinFold (s : State) (p : Packet) : Option Nat :=
  (s.folds.find? (fun q => q.2.join.any (fun j => j.drove == p.drove) || q.2.joinOver.any (fun o => o.1 == p.drove) ||
    s.drove q.1 == some p.drove.toNat)).map (·.1)

/-- The fold whose drove a message belongs to: its source is another member, and it is marked as one. -/
def State.mailFold (s : State) (p : Packet) : Option Nat :=
  if p.issuer = issSys && decide (2 ^ 63 ≤ p.oparg.toNat) then s.joinFold p
  else if p.issuer = issSch && decide (2 ^ 63 ≤ p.oparg.toNat) then
    (s.folds.find? (fun q => s.drove q.1 == some p.drove.toNat && (s.others q.1).contains p.src)).map (·.1)
  else none

end Sys2Proof.Machine
end

