-- ==== Sys2Proof/Machine/FabServe.lean ====
section
/-! DEFINITION. The target's side of the fabric (13): packets that arrive, the ordered class, the checks of a request and the operations. -/
namespace Sys2Proof.Machine

/-! ### The ordered class (13 R350) -/

/-- How far `a` is ahead of `b`, modulo 2^16. -/
def seqAhead (a b : W16) : Nat := (a - b).toNat

/-- A packet sent back to the source of `p`: an answer or a sequence NACK. -/
def State.replyTo (s : State) (p : Packet) (ptype : Nat) : Packet :=
  { p with ptype := ptype, rev := fabRev, hops := 0, dst := p.src, src := s.selfNo, last := true, frag := 0, status := 0, pmask := 0, len := 0
           oseq := 0, payload := [] }

/-- A sequence NACK with the expected number, at most one per source and FAB_RETRY. -/
def sendNack (p : Packet) (s : State) : State :=
  if (getN s.fab.nackAt p.src).any (fun t => decide (s.now < t + s.retryTime)) then s
  else
    emitPacket { s.replyTo p 2 with oseq := getND s.fab.rxSeq p.src 0 } { s with fab := { s.fab with nackAt := setN s.fab.nackAt p.src s.now } }

/-- The response to `p`'s message: status, payload, poisoned units; kept with the source's last 64 ordered ones. -/
def respond (p : Packet) (st : W16) (l : List Byte) (bad : List Nat) (s : State) : State :=
  let m := { s.replyTo p 1 with status := st, len := l.length, payload := l, unordered := true }
  let fs := (fragmentsWith bad m).map (fun q => { q with unordered := p.unordered })
  let s := if p.unordered then s else
    let old := getND s.fab.saved p.src []
    let tags := ((old.map (·.tag)).eraseDups).drop ((old.map (·.tag)).eraseDups.length - 63)
    { s with fab := { s.fab with saved := setN s.fab.saved p.src (old.filter (fun q => tags.contains q.tag) ++ fs) } }
  fs.foldl (fun s q => emitPacket q s) s

/-- Sources with state; an idle one's is released for a new one (log entry 64). -/
def State.sourceRoom (s : State) (src : Nat) : Option State :=
  if hasN s.fab.saved src || s.fab.saved.length < 4096 then some s
  else match s.fab.saved.find? (fun q => (getN s.fab.heard q.1).all (fun t => decide (t + s.e2eLimit ≤ s.now))) with
    | some q => some { s with fab := { s.fab with saved := delN s.fab.saved q.1 } }
    | none => none

/-- A request with a reserved operation answered, as its last fragment comes (13 R342). -/
def refuseOp (p : Packet) (s : State) : State := if p.last then respond p stVersion [] [] s else s

/-- An ordered request as it arrives: performed when its turn comes, refused while early, answered again when a duplicate. -/
def orderedArrives (p : Packet) (s : State) : State :=
  match s.sourceRoom p.src with
  | none => emitPacket { s.replyTo p 1 with status := stBusy } s
  | some s =>
    let want := getND s.fab.rxSeq p.src 0
    let s := if hasN s.fab.saved p.src then s else { s with fab := { s.fab with saved := setN s.fab.saved p.src [] } }
    let k := seqAhead p.oseq want
    if k = 0 then
      let s := { s with fab := { s.fab with rxSeq := setN s.fab.rxSeq p.src (want + 1) } }
      if isFabOp p.op then { s with fab := { s.fab with inbox := s.fab.inbox ++ [p] } } else refuseOp p s
    else if k < 64 then sendNack p s
    else ((getND s.fab.saved p.src []).filter (fun q => q.tag == p.tag)).foldl (fun s q => emitPacket q s) s

/-! ### Arrival (13 R336 to R340) -/

/-- A packet addressed to this device. -/
def deliver (p : Packet) (s : State) : State :=
  if s.fab.lost.contains p.src then s
  else
    let s := { s with fab := { s.fab with heard := setN s.fab.heard p.src s.now } }
    if p.ptype = 0 then
      if !p.unordered then orderedArrives p s
      else if isFabOp p.op then { s with fab := { s.fab with inbox := s.fab.inbox ++ [p] } }
      else refuseOp p s
    else if p.ptype ≤ 2 then { s with fab := { s.fab with inbox := s.fab.inbox ++ [p] } }
    else s

/-- FAB_PACKET_RECEIVE (13 R336 to R340): delivered here, or passed on over at most 7 links. -/
def execFabPacketReceive (port : Nat) (p : Packet) (s : State) : Host.Outcome State Fault Refusal :=
  .next (serve s fun s =>
    if (s.port port).state != 2 then s
    else if s.self == some p.dst then deliver p s
    else if p.hops = 6 then s.count rFabHopDrops 1
    else forwardPacket (some port) { p with hops := p.hops + 1 } s)

/-! ### The checks (13 R349) -/

/-- The bytes a request reads or writes at its address. -/
def reqSpan (p : Packet) : Nat := if p.op = fabOpFence then 0 else if isAtomic p.op then 8 else p.len

/-- Whether offset `a` lies in session `y`'s transcript area here. -/
def State.inTranscript (s : State) (y : Sess) (a : Nat) : Bool :=
  y.isHome && (s.txSheets y).contains (s.mapIndex (sidFold y.record.sessionId) a)

/-- The sheet fence (04 R111): the epoch of the session's sheets here, and during OFFERED the next one, for reads by the peer; the home's transcript
takes the holder's current epoch. -/
def State.fence (s : State) (y : Sess) (p : Packet) : W16 :=
  let e := p.epoch.toNat
  let r := y.record
  if s.inTranscript y p.addr then
    (if e != r.lease.epoch then stStaleEpoch else if p.op = fabOpWrite && r.lease.holder != p.src then stNotOwner else stOk)
  else if e = y.fenceEpoch then stOk
  else if y.move.any (fun m => m.stage == 1 && m.epoch == e && m.device == p.src) && (p.op == fabOpRead || p.op == fabOpAread) then stOk
  else stStaleEpoch

/-- The fold on whose behalf a request acts, or the status that refuses it. -/
def requestFold (s : State) (p : Packet) : Except W16 Nat :=
  if p.session != 0 then
    match s.sess p.session with
    | none => .error stNotOwner
    | some y =>
      let st := s.fence y p
      if st != stOk then .error st else .ok (if s.inTranscript y p.addr then sidFold p.session else y.fold)
  else match (if p.drove = 0 then none else s.folds.find? (fun q => s.drove q.1 == some p.drove.toNat)) with
    | some q => .ok q.1
    | none => .error stNotOwner

/-- Whether an offset lies in control space or the host-window range (13 R349 step 1). -/
def ownerOnly (a : Nat) : Bool := decide (0x3FF000000000 ≤ a) || (decide (0x300000000000 ≤ a) && decide (a < 0x380000000000))

/-- The checks of 13 R349 for a request on memory: the fold, or the first failing check's status. -/
def requestCheck (s : State) (p : Packet) : Except W16 Nat :=
  let a := p.addr
  if ownerOnly a then .error stNotOwner
  else if reservedOffset a then .error stBadDescriptor
  else match requestFold s p with
    | .error e => .error e
    | .ok f =>
      if reqSpan p = 0 || p.op = fabOpAread then .ok f
      else match s.place f a (reqSpan p) 0 with
        | .ok _ => .ok f
        | .error e => .error e

/-- Whether a request may go ahead of those of its source that stand before it in the ordered class. -/
def State.inTurn (s : State) (p : Packet) : Bool :=
  p.unordered || (match s.fab.inbox.find? (fun q => q.ptype == 0 && !q.unordered && q.src == p.src) with
    | none => true
    | some q => q == p)

/-- A request of operation `op` performed by `go`: off the inbox, in its turn (log entry 4 for one that was not delivered). -/
def request (op : Nat) (p : Packet) (go : State → State) (s : State) : State :=
  serve s fun s =>
    if p.ptype != 0 || p.op != op || !s.inTurn p then s
    else go { s with fab := { s.fab with inbox := dropFirst p s.fab.inbox } }

/-- The fragments of a message all here: those kept and `p`, in their order; none while some are missing. -/
def gathered (p : Packet) (s : State) : Option (List Packet) × State :=
  let mine (q : Packet) : Bool := q.src == p.src && q.tag == p.tag && q.ptype == 0
  let l := insertBy (fun a b => decide (a.frag ≤ b.frag)) p (s.fab.gather.filter (fun q => mine q && q.frag != p.frag))
  let rest := s.fab.gather.filter (fun q => !mine q)
  if l.length < fragCount p.len then (none, { s with fab := { s.fab with gather := rest ++ l } })
  else (some l, { s with fab := { s.fab with gather := rest } })

/-- The response once the whole message has been performed. -/
def respondWhole (p : Packet) (st : W16) (s : State) : State :=
  match gathered { p with payload := [], status := st } s with
  | (some l, s) => respond p ((l.find? (fun q => q.status != stOk)).elim stOk (·.status)) [] [] s
  | (none, s) => s

/-- A message of the drove, once all of it is here: heeded and answered. -/
def heedWhole (f : Nat) (p : Packet) (s : State) : State :=
  match gathered p s with
  | (none, s) => s
  | (some l, s) => match mailOf p (l.flatMap (·.payload)) with
    | none => respond p stBadDescriptor [] [] s
    | some m =>
      let r := if p.issuer = issSys then heedJoin f p.src p.drove m s else heed f p.src m s
      respond p r.1 [] [] r.2

/-- A request that may be a message of the drove; any other goes to `go`. -/
def orHeed (p : Packet) (go : State → State) (s : State) : State := match s.mailFold p with
  | some f => heedWhole f p s
  | none => go s

/-! ### Record operations (04 R94, R111 to R113) -/

/-- The home record of a session for a request with KIND = 1, or the status that refuses it. -/
def homeRecord (s : State) (p : Packet) : Except W16 Sess :=
  if ownerOnly p.addr then .error stNotOwner
  else if 512 < p.addr + (if p.op = fabOpCas then 8 else p.len) then .error stBadDescriptor
  else match s.sess p.session with
    | none => .error stBadDescriptor
    | some y => if y.isHome then .ok y else .error stBadDescriptor

/-- A record written by its owner: LEASE changes by compare-and-swap alone, NOT_REPLAYABLE follows TX_FIRST; a record closed is given up (04 R94,
R95, R99). -/
def recordWrite (p : Packet) (s : State) : State :=
  match homeRecord s p with
  | .error e => respond p e [] [] s
  | .ok y =>
    let r := y.record
    if p.epoch.toNat != r.lease.epoch then respond p stStaleEpoch [] [] s
    else if r.lease.holder != p.src then respond p stNotOwner [] [] s
    else
      let new := recordOf (patchB (recordBytes y.homeRecord) p.addr p.payload)
      let new := { new with sessionId := r.sessionId, lease := r.lease, notReplayable := new.notReplayable || r.notReplayable || decide (0 < new.txFirst) }
      let s := s.modSess p.session (·.takeRecord new)
      respond p stOk [] [] (if new.state = stateClosed then closeHome p.session s else s)

/-- The lease word swapped (04 R113). -/
def recordCas (p : Packet) (s : State) : State :=
  match (if p.addr = 16 then homeRecord s p else .error stBadDescriptor) with
  | .error e => respond p e [] [] s
  | .ok y =>
    let old := y.record.lease
    if p.epoch.toNat != old.epoch then respond p stStaleEpoch [] [] s
    else
      let c := homeCas p.session (leaseOf (leAt p.payload 0 8)) (leaseOf (leAt p.payload 8 8)) s
      let s := if c.1 && (leaseOf (leAt p.payload 8 8)).lstate = 3 then closeHome p.session c.2 else c.2
      respond p stOk (leBytes 8 old.word) [] s

/-! ### READ and WRITE (13 R343) -/

/-- Poison marks a read response carries. -/
def readMarks (s : State) (a n : Nat) : List Nat := badUnits s a n

/-- FAB_READ (13 R343). -/
def execFabRead (p : Packet) (s : State) : Host.Outcome State Fault Refusal :=
  .next (request fabOpRead p (fun s =>
    if p.kindRecord then match homeRecord s p with
      | .error e => respond p e [] [] s
      | .ok y => respond p stOk (sliceB (recordBytes y.homeRecord) p.addr p.len) [] s
    else match requestCheck s p with
      | .error e => respond p e [] [] s
      | .ok f =>
        if p.len = 0 then respond p stOk [] [] s
        else match readLocal f p.addr p.len s with
          | .error e => respond p e.1 [] [] e.2
          | .ok r => respond p stOk r.1 (readMarks r.2 p.addr p.len) r.2) s)

/-- Sheet `i` of session `x` made its own before a write of it (02 R34): a shared one is copied, the session's lists take the copy. -/
def unshare (f : Nat) (x : W64) (i : Nat) (s : State) : Tried (Nat × State) :=
  if x = 0 || ((s.fold f).sheet i).refs ≤ 1 then .ok (i, s) else
  andThen (privateCopy f i s) (fun r =>
    let s := dropRef f i r.2
    match s.sess x with
    | none => .ok (r.1, s)
    | some y =>
      let a := y.record.imageRoot
      .ok (r.1, (s.allLists a).foldl (fun s q =>
        let l := s.listPages f a q.1 q.2
        if l.contains i then putPages f a q.1 q.2 (l.map (fun j => if j = i then r.1 else j)) s else s) s))

/-- A request's write of `l` at offset `a` of the pasture: sheet by sheet where one is shared. -/
def requestWrite (f : Nat) (x : W64) (a : Nat) (l : List Byte) (s : State) : Tried State :=
  let shared := if a < 0x300000000000 && x != 0 then (spanSheets s f a l.length).filter (fun i => decide (1 < ((s.fold f).sheet i).refs)) else []
  if shared.isEmpty then writeLocal f a l s else
  (spanSheets s f a l.length).foldl (fun t i => andThen t (fun s =>
    let o := s.sheetOffset f i
    let lo := max a o
    let part := (l.drop (lo - a)).take (min (a + l.length) (o + 65536) - lo)
    andThen (unshare f x i s) (fun r => writeLocal f (r.2.sheetOffset f r.1 + (lo - o)) part r.2))) (.ok s)

/-- The bytes of one fragment written with their poison marks. -/
def putFragment (f : Nat) (p : Packet) (s : State) : Tried State :=
  let a := p.addr + p.frag * 4096
  andThen (requestWrite f p.session a p.payload s) fun s => .ok (s.addPoison ((bitsSet 64 p.pmask.toNat).map (fun u => a / 64 + u)))

/-- A replica's sheet is moved to T3 as soon as it is written (14 R373, R376). -/
def moveReplica (f a : Nat) (s : State) : State :=
  let i := s.mapIndex f a
  let b := s.replicaBase f 0
  if s.snapReplicate f && decide (b ≤ i) && decide (i < b + s.snapSlots f * s.act (rSnapSlotSheets f)) && a < 0x300000000000 then requestMove f i 3 s else s

/-- FAB_WRITE (13 R343), or a message of the drove. -/
def execFabWrite (p : Packet) (s : State) : Host.Outcome State Fault Refusal :=
  .next (request fabOpWrite p (orHeed p fun s =>
    if p.kindRecord then recordWrite p s
    else match requestCheck s p with
      | .error e => respondWhole p e s
      | .ok f => match putFragment f p s with
        | .error e => respondWhole p e.1 e.2
        | .ok s => respondWhole p stOk (if p.last then moveReplica f p.addr s else s)) s)

/-! ### AREAD (08 R222) -/

/-- Whether an attending read comes from a member of the drove bound to fold `f` (08 R222), or from the device that a session's offer names (04 R111). -/
def State.mayAttend (s : State) (f : Nat) (y : Sess) (p : Packet) : Bool :=
  (s.targets f 1).contains p.src || y.move.any (fun m => m.stage == 1 && m.device == p.src)

/-- FAB_AREAD (08 R222, R223): the session's partial for the rows asked, under the sheet fence. -/
def execFabAread (p : Packet) (s : State) : Host.Outcome State Fault Refusal :=
  .next (request fabOpAread p (fun s =>
    if p.kindRecord then respond p stBadDescriptor [] [] s
    else match gathered p s with
      | (none, s) => s
      | (some l, s) => match requestCheck s p, s.sess p.session with
        | .error e, _ => respond p e [] [] s
        | .ok _, none => respond p stNotOwner [] [] s
        | .ok f, some y =>
          if !s.mayAttend f y p then respond p stNotOwner [] [] s else
          let r := areadAnswer f y (l.flatMap (·.payload)) s
          respond p r.1 r.2.1 [] r.2.2) s)

/-! ### FADD and CAS (13 R344) -/

/-- An atomic on an 8-byte word: the old value is answered. -/
def atomicWord (p : Packet) (new : Nat → Nat) (s : State) : State :=
  if p.addr % 8 != 0 then respond p stBadDescriptor [] [] s
  else match requestCheck s p with
    | .error e => respond p e [] [] s
    | .ok f => match readLocal f p.addr 8 s with
      | .error e => respond p e.1 [] [] e.2
      | .ok r =>
        let old := ofLe r.1
        let bad := badUnits r.2 (p.addr / 64 * 64) 64
        match (if new old = old then .ok r.2 else requestWrite f p.session p.addr (leBytes 8 (new old % 2 ^ 64)) r.2 : Tried State) with
        | .error e => respond p e.1 [] [] e.2
        | .ok s => respond p stOk r.1 bad s

/-- FAB_FADD (13 R344). -/
def execFabFadd (p : Packet) (s : State) : Host.Outcome State Fault Refusal :=
  .next (request fabOpFadd p (fun s =>
    if p.kindRecord || p.unordered || p.len != 8 then respond p stBadDescriptor [] [] s else atomicWord p (fun v => v + p.oparg.toNat) s) s)

/-- FAB_CAS (13 R344; 04 R113 for a lease). -/
def execFabCas (p : Packet) (s : State) : Host.Outcome State Fault Refusal :=
  .next (request fabOpCas p (fun s =>
    if p.unordered then respond p stBadDescriptor [] [] s
    else if p.kindRecord then recordCas p s
    else atomicWord p (fun v => if v = leAt p.payload 0 8 then leAt p.payload 8 8 else v) s) s)

/-! ### ACC and NOTIFY (13 R345 to R347) -/

/-- An ACC refused for a full hold buffer, as if it had arrived early: later ones of its source wait for the resend. -/
def refuseEarly (p : Packet) (s : State) : State :=
  sendNack p { s with fab := { s.fab with
    rxSeq := setN s.fab.rxSeq p.src p.oseq
    inbox := s.fab.inbox.filter (fun q => !(q.ptype == 0 && !q.unordered && q.src == p.src)) } }

/-- FAB_ACC (13 R345, R346): applied at the pen that holds the buffer, or held; answered when the whole message has been taken. -/
def execFabAcc (p : Packet) (s : State) : Host.Outcome State Fault Refusal :=
  .next (request fabOpAcc p (fun s =>
    if p.kindRecord || p.unordered then respondWhole p stBadDescriptor s
    else match requestCheck s { p with len := p.len * (if accBf16 p then 2 else 1) } with
      | .error e => respondWhole p e s
      | .ok f =>
        let n := p.len * (if accBf16 p then 2 else 1)
        match (if s.inReduction f p.addr n then s.penNamed f (bitsOf p.oparg.toNat 46 41) else none) with
        | none => respondWhole p stBadDescriptor s
        | some _ =>
          if accAttempt p != (s.fold f).attempts % 8 then respondWhole p stStaleEpoch s
          else match accArrive f ((p.addr - 0x380000000000) / 0x1000000) p s with
            | some s => respondWhole p stOk s
            | none => refuseEarly p s) s)

/-- Whether a notify is the root's broadcast to this member of the fold's drove, which ends with the step control word (06 R177). -/
def State.rootNotify (s : State) (f : Nat) (p : Packet) : Bool :=
  (s.drove f).isSome && !s.isRoot f && p.src == s.rootOf f && decide (p.issuer < 64)

/-- The root's broadcast notify at pen `n`, once all of it is here: its rows written, its word kept, the counter raised. -/
def rootNotifyArrives (f n : Nat) (p : Packet) (s : State) : State :=
  match gathered p s with
  | (none, s) => s
  | (some l, s) => match stripWord (l.flatMap (·.payload)) with
    | none => respond p stBadDescriptor [] [] s
    | some (data, w) => match (if data.isEmpty then .ok s else requestWrite f p.session p.addr data s : Tried State) with
      | .error e => respond p e.1 [] [] e.2
      | .ok s =>
        let bad := (l.flatMap (fun q => (bitsSet 64 q.pmask.toNat).map (q.frag * 64 + ·))).filter (fun u => decide (u * 64 < data.length))
        let s := s.addPoison (bad.map (fun u => p.addr / 64 + u))
        respond p stOk [] [] (bumpCtr n (bitsOf p.oparg.toNat 4 0) (s.modPen n (fun x => { x with word := some w })))

/-- FAB_NOTIFY (13 R347), or a message of the drove: the payload written, then the counter raised; the root's broadcast brings the step control word (06 R177). -/
def execFabNotify (p : Packet) (s : State) : Host.Outcome State Fault Refusal :=
  .next (request fabOpNotify p (orHeed p fun s =>
    if p.kindRecord || p.unordered then respondWhole p stBadDescriptor s
    else match requestCheck s p with
      | .error e => respondWhole p e s
      | .ok f => match s.penNamed f (bitsOf p.oparg.toNat 13 8) with
        | none => respondWhole p stBadDescriptor s
        | some n =>
          if s.rootNotify f p then rootNotifyArrives f n p s else
          match (if p.len = 0 then .ok s else putFragment f p s : Tried State) with
          | .error e => respondWhole p e.1 e.2
          | .ok s => respondWhole p stOk (if p.last then bumpCtr n (bitsOf p.oparg.toNat 4 0) s else s)) s)

/-- FAB_FENCE (13 R348): every earlier ordered request of the source has been performed. -/
def execFabFence (p : Packet) (s : State) : Host.Outcome State Fault Refusal :=
  .next (request fabOpFence p (fun s =>
    if p.kindRecord || p.unordered then respond p stBadDescriptor [] [] s
    else match requestCheck s p with
      | .error e => respond p e [] [] s
      | .ok _ => respond p stOk [] [] s) s)

/-! ### Sequence NACKs at the source (13 R350) -/

/-- FAB_SEQUENCE_NACK (13 R350): the ordered packets to its sender resent from the expected number. -/
def execFabSequenceNack (p : Packet) (s : State) : Host.Outcome State Fault Refusal :=
  .next (serve s fun s =>
    if p.ptype != 2 then s else
    let s := { s with fab := { s.fab with inbox := dropFirst p s.fab.inbox } }
    let ms := s.fab.outstanding.filter (fun m => m.2.sent && !m.2.packet.unordered && m.2.packet.dst == p.src)
    let ps := (ms.flatMap (fun m => fragmentsWith m.2.bad m.2.packet)).filter (fun q => decide (seqAhead q.oseq p.oseq < 32768))
    (sortBy (fun a b => decide (seqAhead a.oseq p.oseq ≤ seqAhead b.oseq p.oseq)) ps).foldl (fun s q => emitPacket q s) s)

end Sys2Proof.Machine
end

