-- ==== Sys2Proof/Machine/Faults.lean ====
section
/-! DEFINITION. Uncontainable errors and what detects them (16 R424, 18 R451 to R459), the patrol scrub (19 R482), boundary resets of a
register's pending copy that follow it. -/
namespace Sys2Proof.Machine

/-- Whether the device runs: out of cold reset, at no final code of 16 Table 16-5. -/
def State.running (s : State) : Bool := decide (1 ≤ s.boot.status) && decide (s.boot.status ≤ 7)

/-- Every ladder block at L4 (16 R424): pens 0 to 63, stacks 64 to 71, ports 72 to 89, flash channels 90 to 105 (19 R483). -/
def allL4 (s : State) : State :=
  { s with power := { s.power with ladder := (List.range 106).map (fun b => (b, ⟨4, (getND s.power.ladder b ⟨0, 0⟩).since⟩)) } }

/-- THERMAL_TRIP (16 R424): THERM_TRIP_N, a fail-stop, every block at L4. In a final code of Table 16-5 the code stays (16 R422). -/
def execThermalTrip (sensor : Nat) (s : State) : Host.Outcome State Fault Refusal :=
  .next (if 80 ≤ sensor || s.boot.status = 0 then s else
    let s := if s.running then failStop 1 s else s
    allL4 { s with boot := { s.boot with thermTripN := false } })

/-- WATCHDOG_EXPIRY (18 Table 18-4, cause 4): one of the eight control processors. -/
def execWatchdogExpiry (cpu : Nat) (s : State) : Host.Outcome State Fault Refusal :=
  .next (onlyIf (s.running && decide (cpu < 8)) s (failStop 4 s))

/-- The PLLs of order 3 of 16 Table 16-4 by their CLK bit (19 R483): the central PLL and the link's. The always-on and security domains
have none. -/
def isCentralPll (pll : Nat) : Bool := pll == 8 || pll == 19

/-- PLL_LOCK_LOSS (18 Table 18-4, cause 5): the lock bit clears; a central PLL in service fails the device. -/
def execPllLockLoss (pll : Nat) (s : State) : Host.Outcome State Fault Refusal :=
  .next (if !s.running || 21 ≤ pll then s else
    let s := { s with power := { s.power with pllLock := if bitOf s.power.pllLock pll then s.power.pllLock - 2 ^ pll else s.power.pllLock } }
    onlyIf (isCentralPll pll) s (failStop 5 s))

/-- Whether a stack holds bound pens. -/
def State.stackBound (s : State) (k : Nat) : Bool :=
  s.folds.any (fun p => p.2.status != 0 && decide (bitsOf p.2.pens.toNat (8 * k + 7) (8 * k) ≠ 0))

/-- HBM_STACK_FAILURE (18 Table 18-4, cause 6): a stack that holds bound pens stops answering. -/
def execHbmStackFailure (stack : Nat) (s : State) : Host.Outcome State Fault Refusal :=
  .next (onlyIf (s.running && decide (stack < 8) && s.stackBound stack) s (failStop 6 s))

/-- SEC_SELF_CHECK_FAILURE (18 Table 18-4, cause 7). -/
def execSecSelfCheckFailure (s : State) : Host.Outcome State Fault Refusal := .next (onlyIf s.running s (failStop 7 s))

/-! ### Patrol scrub (19 R482, 18 R452, R455) -/

/-- The counters of a channel's corrected errors and poisoned units (HBM_CH_CE, HBM_CH_UE), which have keys of their own above the window. -/
def rHbmChCe (c : Nat) : Nat := 0x2100000 + c * 8
def rHbmChUe (c : Nat) : Nat := 0x2200000 + c * 8

/-- Whether a sheet of fold `f` holds part of session `y`'s image structures here (its page table, page lists, count table or parameter sheet) or,
at its home, of its transcript (18 Table 18-2). -/
def State.structureOf (s : State) (f i : Nat) (y : Sess) : Bool :=
  let a := y.record.imageRoot
  ((y.isOwner || y.share) && y.fold == f && ([s.mapIndex f a, s.ptParam a, s.ptCount a] ++ s.listSheets a).contains i) ||
    (y.isHome && sidFold y.record.sessionId == f && (s.txSheets y).contains i)

/-- One uncorrectable unit of sheet space, poisoned already: its record, whose SOURCE is 10 where a session's structure is hit, and what follows for
that session (18 R454, R456, log entry 179). -/
def unitLost (f ch u : Nat) (s : State) : State :=
  let i := s.mapIndex f (u * 64)
  let held := decide (s.winBase f ≤ u * 64) && (s.fold f).backed i
  let l := if held then (s.sessions.filter (fun p => s.structureOf f i p.2)).map (·.2.record.sessionId) else []
  let sheet := u * 64 / 65536 % 2 ^ 30
  if l.isEmpty then errorUncorrected (some f) 0 ch 0 sheet 0 s
  else l.foldl (fun s x => poisonSession x s) (errorUncorrected (some f) 10 0 ((s.fold f).sheet i).kind sheet 0 s)

/-- A home record whose H fields are lost (18 Table 18-2): SESSION_ENDED with reason 1 and ST_POISON, and the record is freed; where the owner is
another device the event goes to the home fold's default queue (log entry 179). -/
def recordLost (x : W64) (s : State) : State :=
  match s.sess x with
  | none => s
  | some y =>
    if !y.isHome then s
    else if y.isOwner then loseSession x stPoison flPoisoned s
    else
      let s := postOwner (sidFold x)
        { plainRecord evSessionEnded (sidFold x) false stPoison 0 (leBytes 4 y.record.turn ++ leBytes 1 1 ++ zerosB 6) with
          session := x, ring := some y.record.sessionRing } s
      closeHome x (dropShare x s)

/-- A session structure in a fold's system slots that the scrub has lost, reported with SOURCE 10 and no sheet (18 R456, log entry 179). -/
def structureLost (f : Nat) (x : W64) (g : State → State) (s : State) : State :=
  match s.sess x with
  | none => s
  | some _ => g (errorUncorrected (some f) 10 0 0 0xFFFFFFFF 0 s)

/-- What the scrub finds on one bound channel: corrections counted, units poisoned and reported, session structures and home records lost, an
uncontainable structure. -/
def scrubChannel (r : ScrubFinding) (s : State) : State :=
  match s.penFold (r.channel / 4) with
  | none => s
  | some f =>
    let s := errorCorrected (some f) 0 r.channel 0 r.corrected (s.count (rHbmChCe r.channel) r.corrected)
    let s := (s.addPoison r.bad).count (rHbmChUe r.channel) r.bad.length
    let s := r.bad.foldl (fun s u => unitLost f r.channel u s) s
    let s := r.copies.foldl (fun s x => structureLost f x (poisonSession x) s) s
    let s := r.records.foldl (fun s x => structureLost f x (recordLost x) s) s
    if r.structural then failStop 3 s else s

/-- HBM_SCRUB_PASS: the pass of one PERIOD. A committed PERIOD becomes active at its start (19 Table 19-4); with PERIOD 0 there is none. -/
def execHbmScrubPass (findings : List ScrubFinding) (s : State) : Host.Outcome State Fault Refusal :=
  .next (serve s fun s =>
    let s := if s.act rHbmScrub = 0 then s else applyPend (fun k => k == rHbmScrub) s
    if s.act rHbmScrub = 0 then s else (findings.foldl (fun s r => scrubChannel r s) s).count rHbmScrubPasses 1)

end Sys2Proof.Machine
end

