-- ==== Sys2Proof/Machine/Folds.lean ====
section
/-! DEFINITION. The parts of SYS and NFC commits that take effect without a wait: forming a fold, adding resources, removing ways (19 R477), and
the start of a namespace's formation or release (12 R313). -/
namespace Sys2Proof.Machine

/-- The value register `k` takes when what is pending becomes active. -/
def State.due (s : State) (k : Nat) : Nat := match getN s.regs.pend k with
  | some v => v.toNat
  | none => s.act k

/-- A SYS register of fold `f`. -/
def sysKey (f k : Nat) : Bool := k == rSysFoldPens f || k == rSysFoldWays f || k == rSysFoldCtrl f

/-- Whether a SYS commit of fold `f` waits. -/
def State.sysDue (s : State) (f : Nat) : Bool := s.regs.pend.any (fun p => sysKey f p.1)

/-- The pens and ways fold `f` will have. -/
def State.duePens (s : State) (f : Nat) : W64 := BitVec.ofNat 64 (s.due (rSysFoldPens f))
def State.dueWays (s : State) (f : Nat) : W64 := BitVec.ofNat 64 (s.due (rSysFoldWays f))

/-- The fold's part of the commit active once what is bound is what it says. -/
def settleSys (f : Nat) (s : State) : State :=
  let x := s.fold f
  if s.sysDue f && x.status == 2 && x.pens == s.duePens f && x.ways == s.dueWays f && s.due (rSysFoldCtrl f) == 1 then applyPend (sysKey f) s else s

/-- The key of generation 1 drawn, where it has not been; none while the DRBG has stopped (15 R411). -/
def drawFirstKey (f : Nat) (s : State) : Option State :=
  if (s.fold f).key.state != 0 || !(s.fold f).key.current.isEmpty then some s
  else (drbg 64 s).map (fun r => r.2.modKey f (fun x => { x with current := r.1 }))

/-- The fold formed: resources bound, quotas 0, role decode, key state LIVE with the key drawn for generation 1; a fold whose namespace was
rebuilt before keeps the key state of its record (15 R403, R404). It stays FORMING while no key can be drawn (log entry 77). -/
def formFold (f : Nat) (s : State) : State :=
  if (s.fold f).status != 1 then s else
  match drawFirstKey f s with
  | none => s
  | some s =>
    let pens := s.duePens f
    let ways := s.dueWays f
    settleSys f (s.modFold f (fun x =>
      { x with status := 2, pens := pens, ways := ways, quota := [], role := 0
               key := if x.key.state = 0 then { x.key with state := 1, g := 1 } else x.key }))

/-- FOLD_FORM (19 Table 19-6 row 1). -/
def execFoldForm (f : Nat) (s : State) : Host.Outcome State Fault Refusal := .next (serve s (formFold f))

/-- The pens and ways that a commit adds to a FORMED fold, bound. -/
def addResources (f : Nat) (s : State) : State :=
  if !s.formed f || !s.sysDue f || s.due (rSysFoldCtrl f) != 1 then s else
  let pens := s.duePens f
  let ways := s.dueWays f
  settleSys f (s.modFold f (fun x => { x with pens := x.pens ||| pens, ways := x.ways ||| ways }))

/-- FOLD_ADD_RESOURCES (19 Table 19-6 row 2). -/
def execFoldAddResources (f : Nat) (s : State) : Host.Outcome State Fault Refusal := .next (serve s (addResources f))

/-- Written-since-bind bits of a commons way cleared: it reads zeros (15 R408 step 4, R409). -/
def clearWay (s : State) (w : Nat) : State :=
  let a := commonsAt w 0
  { s with mem := memClear s.mem a (a + 0x100000), poison := s.poison.filter (fun u => !(decide (a ≤ u * 64) && decide (u * 64 < a + 0x100000))) }

/-- Sheets of fold `f` whose place `gone` names moved to T2, a migration under way first ended; none where one finds no room. -/
def moveOut (f : Nat) (gone : Sheet → Bool) (s : State) : Option State :=
  ((s.fold f).sheets.filter (fun p => gone p.2)).foldl (fun t p => t.bind (fun s =>
    let s := settleMig f p.1 s
    if gone ((s.fold f).sheet p.1) then moveNow f p.1 2 (s.kvPen f p.1) s else some s)) (some s)

/-- The ways a commit takes away from a FORMED fold: their T1 sheets move to T2, then they are cleared and free. Nothing happens while one is
pinned or its sheets find no room (log entry 72). -/
def removeWays (f : Nat) (s : State) : State :=
  let x := s.fold f
  let keep := s.dueWays f
  let gone := x.wayList.filter (fun w => !keep.toNat.testBit w)
  if !s.formed f || !s.sysDue f || s.due (rSysFoldCtrl f) != 1 || gone.isEmpty || gone.any (x.pinnedWays.contains ·) then s
  else
    match moveOut f (fun e => e.tier == 1 && gone.contains (e.loc % 64)) s with
    | none => s
    | some s => settleSys f (gone.foldl clearWay (s.modFold f (fun x => { x with ways := x.ways &&& keep })))

/-- FOLD_REMOVE_WAYS (19 Table 19-6 row 3). -/
def execFoldRemoveWays (f : Nat) (s : State) : Host.Outcome State Fault Refusal := .next (serve s (removeWays f))

/-- What a SYS commit does to every fold without a wait. -/
def sysAtOnce (s : State) : State := (List.range 64).foldl (fun s f => removeWays f (addResources f (formFold f s))) s

/-! ### Namespaces (12 Table 12-2) -/

/-- An NFC register of fold `f`. -/
def nfcKey (f k : Nat) : Bool := decide (0x81000 + f * 0x80 ≤ k) && decide (k < 0x81080 + f * 0x80)

/-- Whether a change of fold `f`'s channel mask waits. -/
def State.maskDue (s : State) (f : Nat) : Bool := hasN s.regs.pend (rNfcNsChannels f)

/-- ABSENT and a non-zero mask: the fold's part of the commit is active, the blocks are erased. -/
def startFormation (f : Nat) (s : State) : State :=
  if s.maskDue f && s.due (rNfcNsChannels f) != 0 && (s.fold f).ns.state == nsAbsent then
    let s := applyPend (nfcKey f) s
    formNamespace f (s.act (rNfcNsChannels f)) s
  else s

/-- NAMESPACE_FORM (12 R313). -/
def execNamespaceForm (f : Nat) (s : State) : Host.Outcome State Fault Refusal := .next (serve s (startFormation f))

/-- A namespace whose good blocks are being erased. -/
def Namespace.releasing (x : Namespace) : Namespace :=
  { x with state := nsReleasing, map := [], slotsUsed := [], writes := [], gc := none, gcRunning := false, log := [], checkpoint := none
           slots := 0, openBuffer := none, openNative := none, openGc := none, sealedKeys := [], sealedG := 0, discards := [] }

/-- NORMAL or READ_ONLY and mask 0. -/
def startNsRelease (f : Nat) (s : State) : State :=
  let x := (s.fold f).ns
  if s.maskDue f && s.due (rNfcNsChannels f) == 0 && (x.state == nsNormal || x.state == nsReadOnly) then
    (applyPend (nfcKey f) s).modNs f Namespace.releasing
  else s

/-- The HBM of a releasing fold zeroed and its namespace being released (15 R408 steps 2 and 3). -/
def scrubbed (f : Nat) (s : State) : State :=
  s.modFold f (fun x =>
    { x with releaseStep := 2, key := { x.key with scrubLeft := 0 }, ns := if x.ns.state = nsAbsent then x.ns else x.ns.releasing })

/-- NAMESPACE_RELEASE (12 R313, 15 R408 step 3). -/
def execNamespaceRelease (f : Nat) (s : State) : Host.Outcome State Fault Refusal :=
  .next (serve s fun s =>
    if (s.fold f).status = 3 then (if (s.fold f).releaseStep = 1 then scrubbed f s else s) else startNsRelease f s)

/-- What a warm reset finishes of NFC commits that wait (19 R476). -/
def nfcAtOnce (s : State) : State := (List.range 64).foldl (fun s f => startNsRelease f (startFormation f s)) s

end Sys2Proof.Machine
end

