-- ==== Sys2Proof/Machine/HostLink.lean ====
section
/-! DEFINITION. The host link (03 R56 to R61): training and width, replay and retrain, loss. -/
namespace Sys2Proof.Machine

/-- Width and group the link comes up with: 8 lanes, or lanes 0 to 3, or lanes 4 to 7 (03 R57). -/
def linkWidth (lanes : Byte) : Nat × Nat :=
  if lanes = 0xFF then (8, 0) else if lanes.toNat % 16 = 15 then (4, 0) else if lanes.toNat / 16 = 15 then (4, 1) else (0, 0)

/-- The lanes of `lanes` that may train: those of no fenced group, and lanes 0 to 3 only under LINK_X4 (16 R417, R420). -/
def Boot.usableLanes (b : Boot) (lanes : Byte) : Byte :=
  lanes &&& ((if bitOf b.fenceLink 0 then 0 else 0x0F) ||| (if bitOf b.fenceLink 1 || bitOf b.strap 4 then 0 else 0xF0))

/-- The link after training on `lanes`: a failed training is repeated; the first that succeeds after a cold reset makes the device ready
(16 Table 16-1 step 18, R422). -/
def trainLink (lanes : Byte) (s : State) : State :=
  let w := linkWidth (s.boot.usableLanes lanes)
  if w.1 = 0 then { s with link := { s.link with up := false, training := true, width := 0, group := 0, trainedAt := some s.now } }
  else
    { s with link := { s.link with up := true, training := false, width := w.1, group := w.2, everUp := true, downSince := none, failedReplays := 0, trainedAt := none }
             boot := { s.boot with status := if s.boot.status = 4 then 5 else s.boot.status } }

/-- The link is lost: the limit of 03 R60 begins, unless it runs. -/
def loseLink (s : State) : State :=
  { s with link := { s.link with up := false, training := true, width := 0, group := 0, failedReplays := 0, trainedAt := none
                                 downSince := s.link.downSince.orElse (fun _ => some s.now) } }

/-- Whether the link trains: from step 17 of the cold start on, not while a warm reset runs, not after a fail-stop. -/
def State.linkAlive (s : State) : Bool := s.boot.status == 4 || s.boot.status == 5

/-- LINK_TRAINING (03 R57): after reset and after a retrain. -/
def execLinkTraining (lanes : Byte) (s : State) : Host.Outcome State Fault Refusal :=
  .next (onlyIf (s.linkAlive && !s.link.up && s.link.trainedAt.isNone) s (trainLink lanes s))

/-- LINK_TRAINING_RETRY (03 R57): training is repeated 10 ms after neither group of 4 lanes has trained. -/
def execLinkTrainingRetry (lanes : Byte) (s : State) : Host.Outcome State Fault Refusal :=
  .next (onlyIf (s.linkAlive && !s.link.up && s.link.trainedAt.any (fun t => decide (t + 10000 ≤ s.now))) s (trainLink lanes s))

/-- LINK_FLIT_NAK (03 R58): the flits from the one refused are replayed, how many being open (log entry 3); after 8 failed replays of the same flit
the link retrains. `again` says that a replay of the same flit has failed. Each NAK is a corrected error of the link (18 R451, log entry 178). -/
def execLinkFlitNak (again : Bool) (s : State) : Host.Outcome State Fault Refusal :=
  .next (if !s.link.up then s else
    let n := if again then s.link.failedReplays + 1 else 0
    let r := s.draw
    let s := errorCorrected none 6 0 0 1 (r.2.count rLnkReplayCount (1 + r.1 % 256))
    if 8 ≤ n then loseLink (s.count rLnkRetrainCount 1) else { s with link := { s.link with failedReplays := n } })

/-- LINK_DOWN (03 R60): the trained link is lost. -/
def execLinkDown (s : State) : Host.Outcome State Fault Refusal := .next (onlyIf s.link.up s (loseLink s))

/-- LNK_DOWN_LIMIT as it acts (19 R479). -/
def State.downLimit (s : State) : Nat := max 10000 (s.act rLnkDownLimit)

/-- LINK_DOWN_LIMIT_EXPIRY (03 R60): a link that has been up and is not up again in time fails the device. -/
def execLinkDownLimitExpiry (s : State) : Host.Outcome State Fault Refusal :=
  .next (match s.link.downSince with
    | none => s
    | some t => onlyIf (s.linkAlive && s.link.everUp && !s.link.up && decide (t + s.downLimit ≤ s.now)) s (failStop 2 s))

end Sys2Proof.Machine
end

