-- ==== Sys2Proof/Machine/Ports.lean ====
section
/-! DEFINITION. The fabric ports: egress selection (13 R357 to R359), gate lists (13 R360 to R362), training, replay, loss (13 R332, R335, R363). -/
namespace Sys2Proof.Machine

/-! ### Gates (13 R360) -/

/-- The open mask of a port. -/
def Port.openMask (x : Port) : Nat := match x.gates with
  | some l => (l[x.gateIndex]?).elim 0xFFFF (fun e => e.mask.toNat)
  | none => 0xFFFF

/-- A port whose closed queues have lost the tags of their heads (13 R358). -/
def Port.dropTags (x : Port) : Port := { x with head := x.head.filter (fun p => x.openMask.testBit p.1) }

/-- A list takes over: entry 0 (13 R362). -/
def Port.takeOver (l : List GateEntry) (x : Port) : Port :=
  Port.dropTags { x with gates := some l, gateIndex := 0, pendingGates := none }

/-- The entries of a gate list as read. -/
def gateEntries (b : List Byte) : List GateEntry :=
  (List.range (b.length / 8)).map (fun i => ⟨BitVec.ofNat 16 (leAt b (8 * i) 2), leAt b (8 * i + 4) 4⟩)

/-- Fields that GATE_LIST_LOAD reserves (13 R361). -/
def gateReserved (d : Desc) : Bool :=
  bodyReserved d [(16, 21), (24, 29), (32, 39)] && decide (descNum d 24 4 < 2 ^ 18) && decide (descByte d 29 < 2)

/-- GATE_LIST_LOAD (13 R361). A descriptor with CANCEL is the other row's (log entry 5). -/
def execGateListLoad (d : Desc) (s : State) : Host.Outcome State Fault Refusal :=
  .next (if bitOf (descByte d 29) 0 then s else serve s (descriptor opGateListLoad (gateReserved d) false d fun s =>
    let ports := bitsSet 18 (descNum d 24 4)
    let n := descByte d 28
    let start := descNum d 32 8
    if 64 < n || ports.isEmpty then .error (stBadDescriptor, s)
    else match (if n = 0 then .ok [] else s.hostRead mgmtPath (descNum d 16 6) (8 * n) : Except W16 (List Byte)) with
      | .error e => .error (e, s)
      | .ok b =>
        let l := gateEntries b
        if l.any (fun e => decide (e.ns < 20)) || (List.range n).any (fun i => leAt b (8 * i + 2) 2 != 0) then .error (stBadDescriptor, s)
        else if ports.any (fun p => (s.port p).pendingGates.isSome) then .error (stBusy, s)
        else
          let late := decide (start ≤ s.now)
          let s := ports.foldl (fun s p => s.modPort p (if late then Port.takeOver l else fun x => { x with pendingGates := some (l, start) })) s
          .ok (complete opGateListLoad d stOk 0 (leBytes 8 start ++ leBytes 1 (b2n late) ++ [0, 0]) s)))

/-- GATE_LIST_CANCEL: GATE_LIST_LOAD with CANCEL (13 R361). -/
def execGateListCancel (d : Desc) (s : State) : Host.Outcome State Fault Refusal :=
  .next (if !bitOf (descByte d 29) 0 then s else serve s (descriptor opGateListLoad (gateReserved d) false d fun s =>
    let ports := bitsSet 18 (descNum d 24 4)
    if descByte d 28 != 0 || ports.isEmpty then .error (stBadDescriptor, s)
    else
      let start := descNum d 32 8
      let s := ports.foldl (fun s p => s.modPort p (fun x => { x with pendingGates := none })) s
      .ok (complete opGateListLoad d stOk 0 (leBytes 8 start ++ leBytes 1 (b2n (decide (start ≤ s.now))) ++ [0, 0]) s)))

/-- GATE_LIST_TAKEOVER (13 R362): the pending list at its START, port up or down. -/
def execGateListTakeover (port : Nat) (s : State) : Host.Outcome State Fault Refusal :=
  .next (serve s fun s =>
    match (if port < 18 then (s.port port).pendingGates else none) with
    | none => s
    | some q => onlyIf (decide (q.2 ≤ s.now)) s (s.modPort port (Port.takeOver q.1)))

/-- GATE_ENTRY_ADVANCE (13 R360): the next entry of the active list, entry 0 after the last. -/
def execGateEntryAdvance (port : Nat) (s : State) : Host.Outcome State Fault Refusal :=
  .next (serve s fun s =>
    match (if port < 18 then (s.port port).gates else none) with
    | none => s
    | some l => onlyIf (decide (0 < l.length)) s (s.modPort port (fun x => Port.dropTags { x with gateIndex := (x.gateIndex + 1) % l.length })))

/-! ### Egress selection (13 R357 to R359) -/

/-- Weight and cost of queue `q` of port `p`. -/
def State.wfqCost (s : State) (p q : Nat) : Nat :=
  let w := if q < 8 then bitsOf (s.act (rFabWfqLo p)) (8 * q + 7) (8 * q) else bitsOf (s.act (rFabWfqHi p)) (8 * q - 57) (8 * q - 64)
  65536 / max 1 w

/-- Whether the neighbour has room for a packet on virtual channel `v` (13 R333). -/
def Port.hasCredit (x : Port) (v : Nat) : Bool := decide (0 < x.credits.getD v 0)

/-- The packet of queue `q` that stands at the head of its virtual channel there with credit, the earliest of them: none that waits on one virtual
channel holds up another (13 R333, R357; log entry 65). -/
def Port.nextIn (x : Port) (q : Nat) : Option (Packet × Nat) := (getND x.queues q []).find? (fun e => x.hasCredit (packetChannel e.1))

/-- The queues with an eligible packet: an open gate, and credit. -/
def Port.ready (x : Port) : List Nat := (List.range 16).filter (fun q => (x.nextIn q).isSome && x.openMask.testBit q)

/-- `n` credits more for each virtual channel. -/
def Port.giveCredits (n : List Nat) (x : Port) : Port := { x with credits := (List.range 4).map (fun v => x.credits.getD v 0 + n.getD v 0) }

/-- The credit that a packet of virtual channel `v` uses. -/
def Port.takeCredit (v : Nat) (x : Port) : Port :=
  { x with credits := (List.range 4).map (fun u => x.credits.getD u 0 - (if u = v then 1 else 0)) }

/-- Finish tags of the heads that have become eligible (13 R358). -/
def tagHeads (s : State) (p : Nat) (x : Port) : Port :=
  { x with head := x.ready.foldl (fun h q => if hasN h q then h else setN h q (max x.v (getND x.finish q 0) + s.wfqCost p q)) x.head }

/-- Packet `e` of queue `q` started with finish tag `f` at time `now` (13 R333, R358, R359). -/
def Port.start (now q : Nat) (e : Packet × Nat) (x : Port) : Port :=
  let f := getND x.head q 0
  let so := min (2 ^ 32 - 1) ((now - e.2) * 1000)
  { x.takeCredit (packetChannel e.1) with
    queues := setN x.queues q (dropFirst e (getND x.queues q [])), v := f, finish := setN x.finish q f, head := delN x.head q, wire := some e.1
    sojournMark := setN x.sojournMark q (max (getND x.sojournMark q 0) so) }

/-- EGRESS_SELECT (13 R358, R359): the eligible packet with the smallest finish tag starts. -/
def execEgressSelect (port : Egress) (s : State) : Host.Outcome State Fault Refusal :=
  .next (serve s fun s =>
    if 18 ≤ port.port || (s.port port.port).state != 2 then s else
    let x := tagHeads s port.port ((s.port port.port).giveCredits port.returned)
    match (minOn (fun q => getND x.head q 0) x.ready).bind (fun q => (x.nextIn q).map (fun e => (q, e))) with
    | none => s.modPort port.port (fun _ => x)
    | some (q, e) => pullWithheld port.port q (s.modPort port.port (fun _ => x.start s.now q e)))

/-- The marks of a port's queues cleared. -/
def clearPortMarks (port : Nat) (queues : W16) (s : State) : State :=
  s.modPort port (fun x =>
    { x with depthMark := x.depthMark.filter (fun q => !queues.toNat.testBit q.1)
             sojournMark := x.sojournMark.filter (fun q => !queues.toNat.testBit q.1) })

/-- FAB_HWM_CLEAR (13 R359): the marks of the queues named. -/
def execFabHwmClear (port : Nat) (queues : W16) (s : State) : Host.Outcome State Fault Refusal :=
  .next (serve s fun s => onlyIf (decide (port < 18)) s (clearPortMarks port queues s))

/-! ### Training (13 R332, R335, R363) -/

/-- Lanes a port comes up with. -/
def portWidth (lanes : BitVec 4) : Nat :=
  if lanes = 15#4 then 4 else if lanes.toNat % 4 = 3 || lanes.toNat / 4 = 3 then 2 else 0

/-- A port after training at time `now`: up at the width and revision found, held, or to train again. -/
def trained (now self : Nat) (t : PortTrain) (x : Port) : Port :=
  let w := portWidth t.lanes
  let r := min fabRev t.rev
  let x := { x with failedReplays := 0, wire := none, width := 0, nrev := 0, trainedAt := none, credits := t.credits }
  if w = 0 then { x with state := 1, cause := 1, trainedAt := some now }
  else if t.device = self then { x with state := 3, cause := 3, neighbour := t.device, nport := t.port }
  else if r < max fabMinRev t.minRev then { x with state := 3, cause := 2, neighbour := t.device, nport := t.port }
  else { x with state := 2, cause := 0, nrev := r, width := w, neighbour := t.device, nport := t.port, v := 0, finish := [], head := [], gateIndex := 0 }

/-- Whether port `p` may train: enabled, the own number valid, not fenced. -/
def State.mayTrain (s : State) (p : Nat) : Bool := p < 18 && s.self.isSome && bitOf (s.act (rFabPortCtrl p)) 0 && !bitOf s.boot.fencePorts p

/-- PORT_TRAINING (13 R332): a port that is down trains, and one that retrains. -/
def execPortTraining (port : Nat) (t : PortTrain) (s : State) : Host.Outcome State Fault Refusal :=
  .next (serve s fun s =>
    onlyIf (s.mayTrain port && decide ((s.port port).state < 2) && (s.port port).trainedAt.isNone) s (s.modPort port (trained s.now s.selfNo t)))

/-- PORT_TRAINING_RETRY (13 R332): training that has failed is repeated 10 ms later. -/
def execPortTrainingRetry (port : Nat) (t : PortTrain) (s : State) : Host.Outcome State Fault Refusal :=
  .next (serve s fun s =>
    onlyIf (s.mayTrain port && (s.port port).state == 1 && (s.port port).trainedAt.any (fun t => decide (t + 10000 ≤ s.now))) s
      (s.modPort port (trained s.now s.selfNo t)))

/-- PORT_FLIT_NAK (13 R332): the flits from the one refused are replayed, how many being open (log entry 3); after 8 failed replays of the same
flit the port retrains. `again` says that a replay of the same flit has failed. Each NAK is a corrected error of the port (18 R451, log entry 178). -/
def execPortFlitNak (port : Nat) (again : Bool) (s : State) : Host.Outcome State Fault Refusal :=
  .next (serve s fun s =>
    if 18 ≤ port || (s.port port).state != 2 then s else
    let n := if again then (s.port port).failedReplays + 1 else 0
    let r := s.draw
    let s := errorCorrected none 5 port 0 1 (r.2.count (rFabPortReplay port) (1 + r.1 % 1024))
    if 8 ≤ n then (s.count (rFabPortRetrain port) 1).modPort port (fun x => { x with state := 1, failedReplays := 0, width := 0 })
    else s.modPort port (fun x => { x with failedReplays := n }))

/-- PORT_DOWN (13 R332, R334): the port loses its neighbour; flits not acknowledged are lost. -/
def execPortDown (port : Nat) (s : State) : Host.Outcome State Fault Refusal :=
  .next (serve s fun s =>
    onlyIf (decide (port < 18) && (s.port port).state == 2) s
      (s.modPort port (fun x => { x with state := 0, cause := 1, width := 0, failedReplays := 0, wire := none, credits := [0, 0, 0, 0] })))

end Sys2Proof.Machine
end

