-- ==== Sys2Proof/Machine/Boot.lean ====
section
/-! DEFINITION. Power-up, self-test and measured boot, cold and warm reset, SELFTEST_REPORT (16 R415 to R431, 15 R390 to R395, 12 R309). -/
namespace Sys2Proof.Machine

/-! ### What a cold reset keeps: NAND contents and host memory (16 Table 16-7, 12 R317, 18 R459) -/

/-- A superblock whose copy a reset cut short: closed again (12 R322). -/
def SuperBlock.uncopied (toBuffer : Bool) (y : SuperBlock) : SuperBlock := if y.mode = 5 then { y with mode := if toBuffer then 4 else 3 } else y

/-- A namespace with the copy under way abandoned. -/
def Namespace.dropCopy (x : Namespace) : Namespace :=
  let back := x.gc.any (·.fold)
  { x with gc := none, gcRunning := false, blocks := x.blocks.map (fun p => (p.1, p.2.uncopied back)) }

/-- A namespace as the NAND keeps it: it must be rebuilt. One that was forming or releasing is gone (12 Table 12-2; log entry 66). -/
def Namespace.kept (x : Namespace) : Namespace :=
  if x.state = nsAbsent || x.state = nsForming || x.state = nsReleasing then Namespace.reset
  else
    { x.dropCopy with state := nsRebuilding, map := [], slotsUsed := [], writes := [], discards := []
                      sealedState := if x.state = nsRebuilding then x.sealedState else 0 }

/-- A fold as its namespace keeps it: the sheets in T3, and the images whose share lies there (log entry 66). -/
def Fold.kept (x : Fold) : Fold :=
  let n := x.ns.kept
  if n.state = nsAbsent then Fold.reset
  else
    let sheets := (x.sheets.filter (fun p => p.2.tier == 3)).map (fun p => (p.1, { p.2 with migrating := false, snap := false }))
    { Fold.reset with
      ns := n, sheets := sheets
      images := x.images.filter (fun p => (p.2.ownSheets ++ p.2.understudySheets).all (fun i => hasN sheets i)) }

/-- A session the reset keeps: parked in flash at the home that owns it (18 R459, log entry 66). -/
def Sess.keptBy (s : State) (y : Sess) : Bool :=
  y.isHome && y.isOwner && y.record.state == parkedIn 3 && (s.fold y.fold).ns.kept.state != nsAbsent

/-- What a session was doing, gone. -/
def Sess.quiet (y : Sess) : Sess :=
  { y with turn := none, endings := [], closing := none, park := none, revive := none, overflow := none, resend := none, endWait := []
           txWait := none, heldPoison := false, wet := none, history := none, record := { y.record with turnHeld := false } }

/-- The memory of the sheets kept. -/
def keptMem (s : State) : List Host.Cell :=
  let spans := s.folds.flatMap (fun p => if p.2.ns.kept.state = nsAbsent then [] else
    (p.2.sheets.filter (fun e => e.2.tier == 3)).map (fun e => s.sheetOffset p.1 e.1))
  s.mem.filter (fun c => spans.any (fun a => decide (a ≤ c.1) && decide (c.1 < a + 65536)))

/-- The device while COLD_RST_N is low (16 R423, R425, Table 16-7): everything volatile lost, outputs in their reset state. The queue of
commands, host memory and the TAP are no part of it. -/
def coldState (s : State) : State :=
  { State.reset with
    pending := s.pending, freeCount := s.freeCount, hostMem := s.hostMem, tap := s.tap, mem := keptMem s
    folds := (s.folds.map (fun p => (p.1, p.2.kept))).filter (fun p => p.2.ns.state != nsAbsent)
    sessions := (s.sessions.filter (fun p => p.2.keptBy s)).map (fun p => (p.1, { p.2.quiet with move := none })) }

/-- COLD_RESET_ASSERT (16 R423): COLD_RST_N low. The input filter rejects a pulse below 20 ns (20 R496); the board must not produce one from
20 ns to 1 µs. -/
def execColdResetAssert (widthNs : Nat) (s : State) : Host.Outcome State Fault Refusal :=
  if widthNs < 20 then .next s else if widthNs < 1000 then .fault .boardPulse else .next (coldState s)

/-! ### Self-test (16 R420, R421) -/

/-- A mask of the numbers of `l` below `n`. -/
def maskOf (n : Nat) (l : List Nat) : Nat := sumOn (fun i => if l.contains i then 2 ^ i else 0) (List.range n)

end Sys2Proof.Machine

namespace Sys2Proof
open Sys2Proof.Machine

/-- The units of the failures of orders `os`. -/
def BootInputs.failed (b : BootInputs) (os : List Nat) : List Nat := (b.failures.filter (fun x => os.contains x.order)).map (·.unit)

/-- Units the factory record enables; all of them while none is accepted. -/
def BootInputs.pensOn (b : BootInputs) : Nat := b.factory.elim (2 ^ 64 - 1) (·.pens.toNat)
def BootInputs.portsOn (b : BootInputs) : Nat := b.factory.elim (2 ^ 18 - 1) (·.ports) % 2 ^ 18
def BootInputs.stacksOn (b : BootInputs) : Nat := b.factory.elim 255 (·.hbmStacks) % 256
def BootInputs.flashOn (b : BootInputs) : Nat := b.factory.elim 65535 (·.flash) % 65536

/-- Stacks fenced: order 8, and by orders 2 and 4, which number pens 0 to 63, stacks 64 to 71, chiplets 72 and 73, the flash
controller 74 (log entry 67). -/
def BootInputs.stackFences (b : BootInputs) : Nat :=
  maskOf 8 (b.failed [8] ++ (b.failed [2, 4]).map (fun u => if 64 ≤ u then u - 64 else 8)) &&& b.stacksOn
/-- Pens fenced: their own failures, and those of a fenced stack. -/
def BootInputs.penFences (b : BootInputs) : Nat :=
  maskOf 64 (b.failed [2, 4, 6] ++ (bitsSet 8 b.stackFences).flatMap (fun k => (List.range 8).map (8 * k + ·))) &&& b.pensOn
/-- Ports fenced: their own failures, and those of a failed chiplet (13 R331). -/
def BootInputs.portFences (b : BootInputs) : Nat :=
  maskOf 18 (b.failed [7] ++ ((b.failed [2, 4]).filter (fun u => u == 72 || u == 73)).flatMap (fun u => (List.range 9).map ((u - 72) * 9 + ·))) &&&
    b.portsOn
/-- Link lane groups fenced: order 7, units 18 and 19. -/
def BootInputs.linkFences (b : BootInputs) : Nat := maskOf 2 ((b.failed [7]).map (fun u => if 18 ≤ u then u - 18 else 2))
/-- Flash channels fenced. Without NAND (STRAP[3]) step 12 is skipped. -/
def BootInputs.flashFences (b : BootInputs) : Nat :=
  if bitOf b.strap 3 then 0
  else (if (b.failed [4]).contains 74 then 65535 else maskOf 16 (b.failed [9])) &&& b.flashOn
/-- The orders that failed for a unit that is tested, bit k − 1 for order k. -/
def BootInputs.checks (b : BootInputs) : Nat := maskOf 9 ((b.failures.filter (fun x => decide (1 ≤ x.order))).map (·.order - 1))
/-- Signatures that matched: bits SEC, boot controller, key store. -/
def BootInputs.signatures (b : BootInputs) : Nat := 7 - maskOf 3 (b.failed [5])

/-- The final code self-test ends in, if any (16 R420, R421): steps 8 and 9, then what is left to work with. -/
def BootInputs.testCode (b : BootInputs) : Option Nat :=
  if !(b.failed [1, 3]).isEmpty then some 9
  else if b.signatures != 7 then some 8
  else if b.pensOn &&& b.penFences = b.pensOn || b.linkFences = 3 || (bitOf b.strap 4 && bitOf b.linkFences 0) then some 14
  else none

/-- The final code the boot ends in after self-test, if any (16 R418, R422, 15 R390, R393, R394). -/
def BootInputs.bootCode (b : BootInputs) : Option Nat :=
  if !b.flashReadable then some 10
  else if b.seed.isNone then some 11
  else if b.factory.isNone then some 12
  else if [2, 3, 4, 5, 6].any (fun k => ((b.stages[k]?).bind (·.copy)).isNone) then some 13
  else none

/-- Chip enables of channel `c`, present and fenced (12 R309, 16 R420): a fenced channel counts as one with every chip enable fenced. -/
def BootInputs.present (b : BootInputs) (c : Nat) : Nat :=
  if bitOf b.strap 3 || !bitOf b.flashOn c then 0 else b.chipEnables.getD c 0 % 256
def BootInputs.cesFenced (b : BootInputs) (c : Nat) : Nat :=
  if bitOf b.strap 3 || !bitOf b.flashOn c then 0 else if bitOf b.flashFences c then 255 else b.chipEnablesFenced.getD c 0 % 256

/-- PLLs locked: all but those whose failure of order 4 fenced what they clock (19 R483). -/
def BootInputs.pllsLocked (b : BootInputs) : Nat :=
  let bad := (b.failed [4]).map (fun u => if u < 64 then u / 8 else if u < 72 then u - 64 + 9 else if u < 74 then u - 72 + 17 else 20)
  maskOf 21 ((List.range 21).filter (fun k => !bad.contains k))

/-- Whether a ladder block is held at L4: disabled by the factory record (15 R393) or fenced (16 R420). -/
def BootInputs.heldBlock (b : BootInputs) (k : Nat) : Bool :=
  if k < 64 then !bitOf b.pensOn k || bitOf b.penFences k
  else if k < 72 then !bitOf b.stacksOn (k - 64) || bitOf b.stackFences (k - 64)
  else if k < 90 then !bitOf b.portsOn (k - 72) || bitOf b.portFences (k - 72)
  else !bitOf b.flashOn (k - 90) || bitOf b.flashFences (k - 90)

end Sys2Proof

namespace Sys2Proof.Machine

/-! ### The cold start (16 Table 16-1) -/

/-- A final code: FAULT_N low, link and ports down (16 R422). -/
def finalCode (c : Nat) (s : State) : State := { s with boot := { s.boot with status := c, faultN := false } }

/-- What self-test records at step 12 (16 Table 16-9). -/
def recordTest (b : BootInputs) (s : State) : State :=
  { s with
    boot := { s.boot with fencePens := BitVec.ofNat 64 b.penFences, fencePorts := b.portFences, fenceStacks := b.stackFences
                          fenceLink := b.linkFences, fenceFlash := b.flashFences, checksFailed := b.checks, lbist := b.signatures
                          durationUs := b.durationUs }
    fab := { s.fab with ports := (bitsSet 18 b.portFences).map (fun p => (p, { Port.reset with cause := 5 })) } }

/-- SEC while it loads stages: the seed, the factory record once accepted, and the stages up to the first that no copy verifies for. -/
def secLoading (b : BootInputs) (s : State) : State :=
  let n := match [2, 3, 4, 5, 6].find? (fun k => ((b.stages[k]?).bind (·.copy)).isNone) with
    | some k => k
    | none => 7
  { s with sec := { s.sec with seed := if b.flashReadable then b.seed else none, factoryOk := b.flashReadable && b.seed.isSome && b.factory.isSome
                               stages := if b.flashReadable && b.seed.isSome then b.stages.take (if b.factory.isSome then n else 1) else [] } }

/-- Steps 14 and 15: M, AK, the alias certificate, the DRBG. -/
def secReady (b : BootInputs) (s : State) : State :=
  let r := s.draw
  let m := measure (b.stages.take 7)
  { r.2 with sec := { r.2.sec with identityOk := true, drbgOk := true, measurement := m, ak := true, chain := b.chain
                                   aliasCert := (b.seed.map (fun d => aliasOf d m r.1)).getD [] } }

/-- The blocks of a kept namespace whose chip enable is fenced, retired (12 R309, R324). -/
def retireFenced (f : Nat) (s : State) : State :=
  let x := (s.fold f).ns
  let dead (u : Nat) : Bool :=
    let p := x.places.getD u 0
    bitOf (s.boot.chipEnablesFenced.getD (p % 16) 0) (p / 16 % 8)
  ((List.range x.units).filter dead).foldl (fun s u =>
    (List.range s.boot.firmware.nsb).foldl (fun s k => retireBlock f k u 4 s) s) s

/-- Step 16 and the parameters firmware brings: chip enables, CORE_MV, formats, ladder. -/
def partsReady (b : BootInputs) (s : State) : State :=
  let s :=
    { s with
      boot := { s.boot with status := 4, factory := b.factory, firmware := b.firmware, chipEnables := (List.range 16).map b.present
                            chipEnablesFenced := (List.range 16).map b.cesFenced, report := some 0 }
      power := { s.power with coreTarget := b.factory.elim 0 (·.coreMv), pllLock := b.pllsLocked
                              ladder := ((List.range 106).filter b.heldBlock).map (fun k => (k, ⟨4, 0⟩)) } }
  let s := (List.range 64).foldl (fun s f => s.setAct (rSessWriteCompat f) b.firmware.fmtMin) s
  (keysN s.folds).foldl (fun s f => retireFenced f s) s

/-- The cold start from COLD_RST_N's rise to the end of the first link training, or to the code it stops at. -/
def coldStart (b : BootInputs) (s : State) : State :=
  let s := { s with boot := { s.boot with strap := b.strap % 64, lbistTaint := b.testCode == some 8 } }
  if b.comparatorHot then
    let s := failStop 1 s
    { s with boot := { s.boot with thermTripN := false } }
  else match b.testCode with
    | some 9 => finalCode 9 s
    | some 8 => finalCode 8 s
    | some c => finalCode c (recordTest b s)
    | none =>
      let s := secLoading b (recordTest b s)
      match b.bootCode with
      | some c => finalCode c s
      | none => trainLink b.linkLanes (partsReady b (secReady b s))

/-- COLD_RESET (16 R415): COLD_RST_N rises, or power has come back. -/
def execColdReset (b : BootInputs) (s : State) : Host.Outcome State Fault Refusal := .next (coldStart b (coldState s))

/-! ### Warm reset (16 R426 to R429, 19 R476) -/

/-- Register parts that may complete after step 6 of a warm reset (19 R476): SYS pen removals and releases, TIER windows. -/
def afterWarm (k : Nat) : Bool :=
  decide (k < 0x10000) || (decide (0x61000 ≤ k) && decide (k < 0x63000) && decide ((k - 0x61000) % 0x80 < 0x10))

/-- ENABLE of every event queue 0 in both copies, RING_CTRL's command gone (16 Table 16-7). -/
def disableQueues (s : State) : State :=
  let isCfg (k : Nat) : Bool := decide (0x22000 ≤ k) && decide (k < 0x26000) && k % 0x40 == 8
  let isCtrl (k : Nat) : Bool := decide (ringKeyBase ≤ k) && decide (k < ringKeyBase + 0x40000) && k % 0x40 == 0x20
  let off (p : Nat × W64) : Nat × W64 := if isCfg p.1 then (p.1, p.2 &&& 0xFFFFFFFFFFFEFFFF) else p
  let fix (m : NMap W64) : NMap W64 := (m.map off).filter (fun p => !isCtrl p.1)
  { s with regs := { s.regs with active := fix s.regs.active, shadow := fix s.regs.shadow, pend := fix s.regs.pend } }

/-- A session after a warm reset (16 R428): a turn in progress is gone; an owned ACTIVE one is OPEN, or WAITING when a TOOL_RESULT carried its
turn. An offer made stays with its giver. -/
def Sess.warm (now : Nat) (y : Sess) : Sess :=
  let rest := if (y.turn.map (·.opcode)) == some opToolResult then stateWaiting else stateOpen
  let z := { y.quiet with move := y.move.filter (fun m => m.stage == 1) }
  if y.isOwner && y.record.state == stateActive then { z with record := { z.record with state := rest, lastActive := now } } else z

/-- A snapshot engine after a warm reset: what ran is abandoned; a fold of a drove of two or more members waits to be joined again (R429). -/
def Snap.warm (peers : Bool) (q : Snap) : Snap :=
  { q with state := if peers || q.halted then 5 else 0, halted := peers || q.halted, marked := [], copies := [], dir := [], data := [], sessions := []
           reported := false, digest := none, written := 0, fail := none, job := none, restores := [], reports := [], poisonedCopies := [] }

/-- A fold after a warm reset: no sequence, no request, no step, no migration that has not committed; checkpoint written (R426, R427). -/
def Fold.warm (peers : Bool) (x : Fold) : Fold :=
  let ns := if x.ns.state = nsNormal || x.ns.state = nsReadOnly then writeCheckpoint { x.ns.dropCopy with writes := [], discards := [] } else x.ns
  { x with seqs := [], queue := [], victims := [], nextWork := [], step := none, attempts := 0, drain := none, requests := [], quotaOut := [], moveFail := []
           rcl := Recall.reset, join := none, cutAt := none, compacts := [], seats := [], displaced := [], drained := none, awaiting := false, roster := [],
           posted := none, reserved := [], layersIn := [], slices := [], joinOver := none, prefixNews := [], snap := x.snap.warm peers, key := { x.key with next := none }
           ns := ns, sheets := x.sheets.map (fun p => (p.1, { p.2 with snap := false })) }

/-- A pen after a warm reset: program stopped, stream queue empty; slate and notify counters as they were. -/
def Pen.warm (x : Pen) : Pen :=
  { x.abandon with fillBank := 0, bank0 := StreamBank.reset, bank1 := StreamBank.reset, reread := none, waiting := [] }

/-- What the fold gives up first: the step's wet entries, migrations, registrations, a compaction's new pages, a cut's header. -/
def settleFold (f : Nat) (s : State) : State :=
  let s := dropStep f s
  let s := (keysN (s.fold f).migs).foldl (fun s i => abandonMig f i s) s
  let s := (s.fold f).registering.foldl (fun s g => dropRegistration f g.1 g.2 s) s
  discardAll f ((s.fold f).compacts.flatMap (·.fresh)) s

/-- Fold `f` out of its drove of two or more members, whose peers go on without it; it can be joined to another one (R429, 18 R462; log entry 177). -/
def partDrove (f : Nat) (s : State) : State :=
  (s.modFold f (fun x => { x with members := [], snap := { x.snap with absorbed := [], share := [], lostMember := none } })).setAct (rFabFoldDrove f)
    (s.act (rFabFoldDrove f) % 2 ^ 32)

/-- A warm reset up to its wait for WARM_RST_N (R426 steps 1 to 4). -/
def beginWarm (cause : Nat) (s : State) : State :=
  let fresh := (keysN s.folds).filter (fun f => hasN s.regs.pend (rSchAcctInterval f))
  let s : State := disableQueues (applyPend (fun k => !afterWarm k) (nfcAtOnce (sysAtOnce s)))
  let s := fresh.foldl (fun s f => restartPages f s) s
  let s := (keysN s.folds).foldl (fun s f => settleFold f s) s
  let s : State := (s.sessions.map (·.2.record.sessionId)).foldl (fun s x => releaseDraft x s) s
  let peers := (keysN s.folds).filter (fun f => decide (1 < s.droveSize f))
  let s := peers.foldl (fun s f => partDrove f s) s
  let s := s.setAct rSecDrbgReseeds 0
  { s with
    rings := s.rings.map (fun p => (p.1, { p.2 with state := 0, closing := false, fetched := [], inflight := [], fence := none }))
    eqs := s.eqs.map (fun p => (p.1, { p.2 with backlog := [], overrun := false }))
    undelivered := []
    sessions := s.sessions.map (fun p => (p.1, p.2.warm s.now))
    folds := s.folds.map (fun p => (p.1, p.2.warm (peers.contains p.1)))
    pens := s.pens.map (fun p => (p.1, p.2.warm))
    fab := { Fabric.reset with lost := s.fab.lost, ports := s.fab.ports.map (fun p => (p.1, { Port.reset with cause := if p.2.cause = 5 then 5 else 0 })) }
    link := { s.link with up := false, training := false, width := 0, group := 0, everUp := false, downSince := none, failedReplays := 0, fatalFlits := [],
                          trainedAt := none }
    sec := { s.sec with entropyFail := false, drbgOk := true, requests := 0, lastReseed := s.now }
    boot := { s.boot with status := 6, cause := cause, warmCount := s.boot.warmCount + 1, evidenceWarm := true, report := some 1 } }

/-- WARM_RESET (16 R423 cause 1, R426): WARM_RST_N low, ignored while STATUS is not 0x5; filtered below 20 ns, forbidden to the board below 1 µs
(20 R496). -/
def execWarmReset (widthNs : Nat) (s : State) : Host.Outcome State Fault Refusal :=
  if s.boot.status != 5 || widthNs < 20 then .next s
  else if widthNs < 1000 then .fault .boardPulse
  else .next (beginWarm 1 s)

/-- What BIST_WARM written with `v` does: 0x5752 starts a warm reset, ignored while one is under way or the device is not in service. -/
def bistWarm (v : Nat) (s : State) : State := onlyIf (s.boot.status == 5 && v % 65536 == 0x5752) s (beginWarm 2 s)

/-- BIST_WARM_WRITE (16 R423 cause 2) from the management path; any other requester is refused (03 R62). -/
def execBistWarmWrite (requester : Nat) (value : W64) (s : State) : Host.Outcome State Fault Refusal :=
  .next (serve s fun s => if requester != mgmtPath then s.count rLnkReqRejected 1 else bistWarm value.toNat s)

/-- WARM_RESET_RESUME (16 R426 steps 5 and 6): the link and the enabled ports retrain, STATUS 0x5 (log entry 68). -/
def execWarmResetResume (s : State) : Host.Outcome State Fault Refusal :=
  .next (if s.boot.status != 6 then s else
    let s := { s with boot := { s.boot with status := 5 }, link := { s.link with training := true } }
    (List.range 18).foldl (fun s p => if s.mayTrain p then s.modPort p (fun x => { x with state := 1 }) else s) s)

/-! ### SELFTEST_REPORT (16 R430) -/

/-- Whether self-test or the chip-enable initialisation has fenced anything. -/
def Boot.anyFenced (b : Boot) : Bool :=
  b.fencePens != 0 || b.fencePorts != 0 || b.fenceStacks != 0 || b.fenceLink != 0 || b.fencedChannels != 0

/-- The SPECIFIC bytes (16 Table 16-8). -/
def Boot.reportBytes (b : Boot) (kind : Nat) : List Byte :=
  leBytes 1 kind ++ leBytes 1 (b2n b.anyFenced + 2 * b2n (b.lbist == 7) + 4 * b2n (b.checksFailed % 4 != 0)) ++ leBytes 2 (b.durationUs / 1000) ++
    leBytes 1 (popc 64 b.fencePens.toNat) ++ leBytes 1 (popc 18 b.fencePorts) ++ leBytes 1 b.fenceStacks ++ leBytes 2 b.fencedChannels ++
    leBytes 1 b.fenceLink ++ [0]

/-- SELFTEST_REPORT: written once the management queue is enabled. -/
def execSelftestReport (s : State) : Host.Outcome State Fault Refusal :=
  .next (serve s fun s =>
    match s.boot.report, s.defaultQueue mgmtPath with
    | some k, some _ =>
      postDevice evSelftestReport (if s.boot.anyFenced then stInternal else stOk) 0 (s.boot.reportBytes k)
        { s with boot := { s.boot with report := none } }
    | _, _ => s)

end Sys2Proof.Machine
end

