-- ==== Sys2Proof/Machine/Power.lean ====
section
/-! DEFINITION. The power ladder, sensors, duty and telemetry (17 R436 to R450, 19 R483, R484). Temperatures are in eighths of a degree. -/
namespace Sys2Proof.Machine

/-! ### Ladder blocks: pens 0 to 63, stacks 64 to 71, ports 72 to 89, flash channels 90 to 105 (19 R483) -/

/-- The register of a block's policy. -/
def policyReg (b : Nat) : Nat := if b < 64 then rPwrPenPolicy else if b < 72 then rPwrHbmPolicy else if b < 90 then rPwrPortPolicy else rPwrFlashPolicy

/-- A rung that is disabled (17 R437). -/
def rungOff : Nat := 0xFFFFFFFF

/-- Whether a block is disabled by the factory record. -/
def State.blockDisabled (s : State) (b : Nat) : Bool :=
  match s.boot.factory with
  | none => false
  | some r =>
    if b < 64 then !bitOf r.pens.toNat b else if b < 72 then !bitOf r.hbmStacks (b - 64) else if b < 90 then !bitOf r.ports (b - 72)
    else !bitOf r.flash (b - 90)

/-- Whether a block is fenced (16 R420). -/
def State.blockFenced (s : State) (b : Nat) : Bool :=
  if b < 64 then bitOf s.boot.fencePens.toNat b else if b < 72 then bitOf s.boot.fenceStacks (b - 64)
  else if b < 90 then bitOf s.boot.fencePorts (b - 72) else bitOf s.boot.fenceFlash (b - 90)

/-- Whether a fold has pen `n`, forming and releasing folds included. -/
def State.penTaken (s : State) (n : Nat) : Bool := s.folds.any (fun p => p.2.status != 0 && p.2.pens.toNat.testBit n)

/-- When L4 is permitted (17 Table 17-3). -/
def State.mayCollapse (s : State) (b : Nat) : Bool :=
  s.blockFenced b || s.blockDisabled b ||
    (if b < 64 then !s.penTaken b
     else if b < 72 then (List.range 8).all (fun i => !s.penTaken (8 * (b - 64) + i) || s.blockFenced (8 * (b - 64) + i))
     else if b < 90 then !bitOf (s.act (rFabPortCtrl (b - 72))) 0
     else bitOf s.boot.strap 3 || !s.folds.any (fun p => bitOf p.2.ns.mask (b - 90)))

/-- Block `b`'s ladder entry. -/
def State.block (s : State) (b : Nat) : Ladder := getND s.power.ladder b ⟨0, 0⟩
/-- `s` with block `b` at level `l`. -/
def State.setLevel (s : State) (b l : Nat) : State :=
  { s with power := { s.power with ladder := setN s.power.ladder b { s.block b with level := l } } }

/-- A pen's collapse to L4 (17 Table 17-2, 15 R409): the slate and its written-since-bind bits are lost, so it reads zeros. -/
def collapsePen (n : Nat) (s : State) : State :=
  let a := slateAt n 0
  ({ s with mem := memClear s.mem a (a + 0x1000000),
            poison := s.poison.filter (fun u => !(decide (a ≤ u * 64) && decide (u * 64 < a + 0x1000000))) }.modPen n (fun _ => Pen.reset)).setLevel n 4

/-- A block's entry to L4. -/
def collapse (b : Nat) (s : State) : State := if b < 64 then collapsePen b s else s.setLevel b 4

/-- LADDER_L1_ENTRY (17 R437): 64 cycles with no work. -/
def execLadderL1Entry (b : Nat) (s : State) : Host.Outcome State Fault Refusal :=
  .next (serve s fun s => onlyIf (decide (b < 106) && (s.block b).level == 0 && !(decide (b < 64) && (s.pen b).running)) s (s.setLevel b 1))

/-- The level a block that has been idle for `t` µs goes to from level `l` (17 R437). -/
def idleLevel (l2 l3 t l : Nat) (collapses : Bool) : Nat :=
  if l3 != rungOff && decide (l3 ≤ t) then (if collapses then 4 else max l 3)
  else if l2 != rungOff && decide (l2 ≤ t) then max l 2
  else l

/-- LADDER_IDLE_EXPIRY (17 R437): a block at L1 or deeper. Idle time counts from its last LADDER_WAKE (log entry 69). -/
def execLadderIdleExpiry (b : Nat) (s : State) : Host.Outcome State Fault Refusal :=
  .next (serve s fun s =>
    let x := s.block b
    let p := s.act (policyReg b)
    if 106 ≤ b || x.level = 0 || x.level = 4 || (b < 64 && (s.pen b).running) then s
    else
      let l := idleLevel (bitsOf p 31 0) (bitsOf p 63 32) (s.now - x.since) x.level (s.mayCollapse b)
      if l = 4 then collapse b s else s.setLevel b l)

/-- LADDER_WAKE (17 R438, R439): work wakes the block. A wait of a pen at L3 or L4 is counted. A stack that leaves L4 is trained and zeroed, a pen that does
holds nothing. A fenced or disabled block stays at L4. -/
def execLadderWake (b : Nat) (s : State) : Host.Outcome State Fault Refusal :=
  .next (serve s fun s =>
    if 106 ≤ b || s.blockFenced b || s.blockDisabled b then s
    else
      let deep := decide (b < 64) && decide (3 ≤ (s.block b).level)
      let s := { s with power := { s.power with ladder := setN s.power.ladder b ⟨0, s.now⟩ } }
      if deep then s.count rPwrPenWakes 1 else s)

/-! ### Duty marks -/

/-- Mark 10 keeps the lowest duty. -/
def markDuty (s : State) : State :=
  let d : Int := s.power.duty
  match getN s.power.marks 10 with
  | some w => if d < w then { s with power := { s.power with marks := setN s.power.marks 10 d } } else s
  | none => { s with power := { s.power with marks := setN s.power.marks 10 d } }

/-! ### Duty (17 R442, R445) -/

/-- A new duty, with the time of the change. -/
def setDuty (d : Nat) (s : State) : State :=
  if d = s.power.duty then s else markDuty { s with power := { s.power with duty := d, dutyAt := s.now } }

/-- The duty after an evaluation (17 Table 17-4). -/
def nextDuty (s : State) : Nat :=
  let t := s.act rPwrThermal
  let on : Int := bitsOf t 7 0 * 8
  let off : Int := bitsOf t 15 8 * 8
  let limit := bitsOf t 26 16
  let d := s.power.duty
  if on ≤ s.power.tmax || limit < s.power.pest then max 1 (d - 1)
  else if off < s.power.tmax && 95 * limit < 100 * s.power.pest then d
  else if s.power.dutyAt + 1000 ≤ s.now then min 8 (d + 1)
  else d

/-- Time at a duty below 8/8, for every such duty and for this one (19 R484). -/
def countThrottle (us : Nat) (s : State) : State :=
  let d := s.power.duty
  if 8 ≤ d then s
  else
    let t := s.power.throttle
    let t := setN t 0 (getND t 0 0 + BitVec.ofNat 64 us)
    { s with power := { s.power with throttle := setN t d (getND t d 0 + BitVec.ofNat 64 us) } }

/-- The hottest of the latest junction samples. -/
def Power.hottest (x : Power) : Int :=
  ((List.range 80).filterMap (fun i => getN x.samples i)).foldl max (((List.range 80).filterMap (fun i => getN x.samples i)).headD 0)

/-- Tmax of an interval before its first sample: the lowest value a sample can hold. -/
def noSample : Int := -32768

/-- THROTTLE_EVALUATION (17 R442): the interval's Tmax and the estimate against the limits, a committed PWR_THERMAL becoming active first
(19 Table 19-4). While VDD_CORE stays low the duty stays (R445). -/
def execThrottleEvaluation (pestWatts : Nat) (s : State) : Host.Outcome State Fault Refusal :=
  .next (serve s fun s =>
    let s := applyPend (fun k => k == rPwrThermal) s
    let s := markMax 9 pestWatts (countThrottle 100 { s with power := { s.power with pest := pestWatts } })
    let s := if s.power.undervolt then s else setDuty (nextDuty s) s
    { s with power := { s.power with tmax := noSample } })

/-- CORE_UNDERVOLTAGE (17 R445): what the VDD_CORE monitor reads; more than 25 mV below the target sets D to 4/8, at or above it ends that. -/
def execCoreUndervoltage (millivolts : Nat) (s : State) : Host.Outcome State Fault Refusal :=
  .next (serve s fun s =>
    if millivolts + 25 < s.power.coreTarget then setDuty 4 { s with power := { s.power with undervolt := true } }
    else if s.power.coreTarget ≤ millivolts then { s with power := { s.power with undervolt := false } }
    else s)

/-- CORE_TARGET_CHANGE (17 R445): at most 10 mV at a time, within 650 to 850 mV. -/
def execCoreTargetChange (millivolts : Nat) (s : State) : Host.Outcome State Fault Refusal :=
  .next (serve s fun s =>
    onlyIf (decide (650 ≤ millivolts) && decide (millivolts ≤ 850) && decide (millivolts ≤ s.power.coreTarget + 10) &&
        decide (s.power.coreTarget ≤ millivolts + 10)) s
      { s with power := { s.power with coreTarget := millivolts } })

/-! ### Sensors (17 R441, R444) -/

/-- One junction sample: kept, and the hottest with its sensor. -/
def junctionSample (i : Nat) (t : Int) (s : State) : State :=
  let hotter := match getN s.power.marks 0 with
    | some w => decide (w < t)
    | none => true
  let s := { s with power := { s.power with samples := setN s.power.samples i t, tmax := max s.power.tmax t } }
  if hotter then { s with power := { s.power with marks := setN s.power.marks 0 t, markSensor := i } } else s

/-- One stack reading: its mark, doubled refresh from 85 °C, the halved command rate from 95 °C until it reads 92 °C or less. -/
def stackSample (k : Nat) (t : Int) (s : State) : State :=
  let hot := s.power.refresh2x.filter (· != k)
  let half := s.power.halfRate.filter (· != k)
  let keeps := decide (95 * 8 ≤ t) || (s.power.halfRate.contains k && decide (92 * 8 < t))
  markMax (k + 1) t
    { s with power := { s.power with stackTemps := setN s.power.stackTemps k t, refresh2x := if 85 * 8 ≤ t then hot ++ [k] else hot
                                     halfRate := if keeps then half ++ [k] else half } }

/-- SENSOR_SAMPLE (17 R441): the 80 junction sensors and the 8 stacks. -/
def execSensorSample (junction stackTemps : List Int) (s : State) : Host.Outcome State Fault Refusal :=
  .next (serve s fun s =>
    let s := (List.range (min 80 junction.length)).foldl (fun s i => junctionSample i (junction.getD i 0) s) s
    (List.range (min 8 stackTemps.length)).foldl (fun s k => stackSample k (stackTemps.getD k 0) s) s)

/-! ### Temperature history (17 R449) -/

/-- The bin of a temperature in °C (12 Table 12-6). -/
def tempBin (c : Int) : Nat := if c < 0 then 0 else if 112 ≤ c then 15 else (c / 8).toNat + 1

/-- TEMP_HISTORY_SAMPLE: the hottest junction sample in whole °C. -/
def execTempHistorySample (s : State) : Host.Outcome State Fault Refusal :=
  .next (serve s fun s =>
    let c := s.power.hottest / 8
    { s with power := { s.power with tempBins := setN s.power.tempBins (tempBin c) (getND s.power.tempBins (tempBin c) 0 + 1)
                                     tempLast := (s.power.tempLast ++ [c]).drop (s.power.tempLast.length - 63) } })

/-! ### Clears (17 R447, R448) -/

/-- Histograms emptied. -/
def clearHists (hists : Nat) (s : State) : State :=
  { s with power := { s.power with hist := s.power.hist.filter (fun p => !(bitOf hists (p.1 / 32) && decide (p.1 < 224))) } }

/-- TLM_HIST_CLEAR: bit h empties histogram h. -/
def execTlmHistClear (hists : Nat) (s : State) : Host.Outcome State Fault Refusal := .next (serve s (clearHists hists))

/-- Marks forgotten. -/
def clearMarks (marks : Nat) (s : State) : State :=
  { s with power := { s.power with marks := s.power.marks.filter (fun p => !(bitOf marks p.1 && decide (p.1 < 19)))
                                   markSensor := if bitOf marks 0 then 0 else s.power.markSensor } }

/-- TLM_HWM_CLEAR: bit m forgets mark m. -/
def execTlmHwmClear (marks : Nat) (s : State) : Host.Outcome State Fault Refusal := .next (serve s (clearMarks marks))

end Sys2Proof.Machine
end

