-- ==== Sys2Proof/Machine/Checks.lean ====
section
/-! DEFINITION. The checks of a commit, block by block (19 R472 to R474, Table 19-6, and the chapters' own refusals). A check is the register it
names, its reason (Table 19-3) and whether it fails. `s` is the device, `t` the device as it would stand with the pending copy active, `p` the
pending values. Only what a commit changes is checked (log entry 73). -/
namespace Sys2Proof.Machine

/-- Why a commit is refused, in the order in which 19 Table 19-3 numbers the classes from 1. -/
inductive Reason where
  | range | align | pair | overlap | inUse | capacity | notReady | busy | owner | state | internal
  deriving DecidableEq, Repr

/-- REASON (19 Table 19-2). -/
def Reason.code (r : Reason) : Nat := r.ctorIdx + 1

/-- A check: register key, reason, whether it fails. -/
abbrev Check := Nat × Reason × Bool

/-! ### What a commit touches -/

/-- The instances of an array of registers that pending values belong to. -/
def touched (p : NMap W64) (base stride n : Nat) : List Nat :=
  ((p.filter (fun e => decide (base ≤ e.1) && decide (e.1 < base + stride * n))).map (fun e => (e.1 - base) / stride)).eraseDups

/-- The first of the registers `l` that a pending value changes. -/
def firstOf (p : NMap W64) (l : List Nat) : Nat := (l.find? (fun k => hasN p k)).getD (l.headD 0)

/-- Whether any of the registers `l` changes. -/
def anyOf (p : NMap W64) (l : List Nat) : Bool := l.any (fun k => hasN p k)

/-- A field outside lo … hi. -/
def outOf (lo hi v : Nat) : Bool := decide (v < lo) || decide (hi < v)

/-- Whether fold `f`'s system slots and T2 sheets fit in its HBM. -/
def State.hbmFits (t : State) (f : Nat) : Bool := decide (t.sysSheets f + (t.fold f).use 2 ≤ 131072 * (t.fold f).penList.length)

/-- Whether an owner field names a fold or the management path. -/
def ownerOk (o : Nat) : Bool := decide (o < 64) || o == mgmtPath

/-- Why `n` bytes at host-window offset `a` do not lie in one general window of `owner`: OWNER when the first byte lies in another owner's window,
else RANGE (05 R149). -/
def windowReason (t : State) (owner a n : Nat) : Option Reason :=
  match t.winAt a with
  | none => some .range
  | some w =>
    if t.act (rLnkWinOwner w) != owner then some .owner
    else if bitOf (t.act (rLnkWinKind w)) 0 || decide (t.act (rLnkWinBase w) + t.winSize w < a + n) then some .range
    else none

/-- The check of register `k` that `n` bytes at `a` lie in one general window of `owner`. -/
def inWindow (t : State) (k owner a n : Nat) : Check := (k, (windowReason t owner a n).getD .range, (windowReason t owner a n).isSome)

/-! ### SYS (19 Table 19-6) -/

/-- Why pen `n` cannot be bound to fold `f`: another fold has it, or asks for it in the same commit, or has not released it; or it is not ready. -/
def penReason (s t : State) (f n : Nat) : Option Reason :=
  if s.folds.any (fun q => q.1 != f && q.2.status == 3 && q.2.pens.toNat.testBit n) then some .notReady
  else if s.folds.any (fun q => q.1 != f && q.2.status != 0 && q.2.pens.toNat.testBit n) ||
      (List.range 64).any (fun g => g != f && t.act (rSysFoldCtrl g) == 1 && bitOf (t.act (rSysFoldPens g)) n) then some .owner
  else if s.blockDisabled n || s.blockFenced n || s.blockFenced (64 + n / 8) || s.blockDisabled (64 + n / 8) || (s.block (64 + n / 8)).level == 4 then
    some .notReady
  else none

/-- Why commons way `w` cannot be bound to fold `f`. -/
def wayReason (s t : State) (f w : Nat) : Option Reason :=
  if s.folds.any (fun q => q.1 != f && q.2.status == 3 && q.2.ways.toNat.testBit w) then some .notReady
  else if s.folds.any (fun q => q.1 != f && q.2.status != 0 && q.2.ways.toNat.testBit w) ||
      (List.range 64).any (fun g => g != f && t.act (rSysFoldCtrl g) == 1 && bitOf (t.act (rSysFoldWays g)) w) then some .owner
  else none

/-- The checks of the resources that fold `f` adds to those it has. -/
def addChecks (s t : State) (f : Nat) (pens ways : W64) : List Check :=
  let ps := (bitsSet 64 (t.act (rSysFoldPens f))).filter (fun n => !pens.toNat.testBit n)
  let ws := (bitsSet 64 (t.act (rSysFoldWays f))).filter (fun w => !ways.toNat.testBit w)
  (ps.filterMap (penReason s t f)).map (fun r => (rSysFoldPens f, r, true)) ++ (ws.filterMap (wayReason s t f)).map (fun r => (rSysFoldWays f, r, true))

/-- The checks of the resources that FORMED fold `f` gives up. -/
def dropChecks (s t : State) (f : Nat) : List Check :=
  let x := s.fold f
  let keep := (bitsSet 64 (t.act (rSysFoldPens f))).filter (fun n => x.pens.toNat.testBit n)
  let gone := x.penList.filter (fun n => !bitOf (t.act (rSysFoldPens f)) n)
  let busy := x.active.isSome || x.drain.any (fun d => d.kind == 1 || d.kind == 2) || x.seqs.any (fun e => gone.contains e.2.pen)
  [(rSysFoldPens f, .inUse, !gone.isEmpty && busy),
   (rSysFoldPens f, .capacity, !gone.isEmpty && decide (131072 * keep.length < x.use 2 + s.sysSheets f)),
   (rSysFoldWays f, .inUse, x.pinnedWays.any (fun w => !bitOf (t.act (rSysFoldWays f)) w))]

/-- Whether an enabled ring, event queue or window belongs to `owner`. -/
def State.ownsLink (s : State) (owner : Nat) : Bool :=
  s.rings.any (fun r => r.2.state != 0 && s.ringOwner r.1 == owner) || (List.range 256).any (fun q => s.eqOn q && s.eqOwner q == owner) ||
    (List.range 256).any (fun n => s.winOn n && s.act (rLnkWinOwner n) == owner)

/-- The SYS checks of fold `f`. -/
def sysChecks (s t : State) (p : NMap W64) (f : Nat) : List Check :=
  let x := s.fold f
  let keys := [rSysFoldPens f, rSysFoldWays f, rSysFoldCtrl f]
  let on := t.act (rSysFoldCtrl f) == 1
  if x.status = 3 then [(firstOf p keys, .notReady, true)]
  else if x.status = 2 then
    if on then [(rSysFoldPens f, .range, t.act (rSysFoldPens f) == 0)] ++ addChecks s t f x.pens x.ways ++ dropChecks s t f
    else [(rSysFoldCtrl f, .inUse, (s.drove f).isSome || s.ownsLink f), (rSysFoldCtrl f, .busy, x.ns.state == nsForming || x.ns.state == nsRebuilding)]
  else if on then
    [(rSysFoldPens f, .range, t.act (rSysFoldPens f) == 0)] ++ addChecks s t f 0 0 ++ [(rSysFoldCtrl f, .internal, x.key.state == 0 && (drbg 64 s).isNone)]
  else []

/-! ### LNK (03 R63) -/

/-- The registers of window `n`. -/
def winKeys (n : Nat) : List Nat := [rLnkWinBase n, rLnkWinSize n, rLnkWinHost n, rLnkWinOwner n, rLnkWinKind n]

/-- Whether window `n`'s definition is referred to by an enabled ring, an enabled event queue, a session's stream ring or a T4 sheet. -/
def State.winUsed (s : State) (n : Nat) : Bool :=
  let base := s.act (rLnkWinBase n)
  let holds (a : Nat) : Bool := decide (base ≤ a) && decide (a < base + s.winSize n)
  s.winOn n &&
    (s.rings.any (fun r => r.2.state != 0 && (holds (s.act (rRingSqBase r.1)) || holds (s.act (rRingHeadWb r.1)))) ||
      (List.range 256).any (fun q => s.eqOn q && (holds (s.act (rRingEqBase q)) || holds (s.act (rRingEqHeadAddr q)))) ||
      s.sessions.any (fun y => y.2.isOwner && holds y.2.record.streamBase) ||
      (bitOf (s.act (rLnkWinKind n)) 0 && decide (0 < (s.fold (s.act (rLnkWinOwner n))).use 4)))

/-- The checks of window `n`. -/
def lnkChecks (s t : State) (p : NMap W64) (n : Nat) : List Check :=
  let b := t.act (rLnkWinBase n)
  let e := b + t.winSize n
  let others := (List.range 256).filter (fun m => m != n && t.winOn m)
  [(rLnkWinSize n, .range, decide (22 < t.act (rLnkWinSize n))), (rLnkWinOwner n, .range, !ownerOk (t.act (rLnkWinOwner n))),
   (firstOf p (winKeys n), .inUse, s.winUsed n)] ++
  (if !t.winOn n then [] else
    [(rLnkWinBase n, .range, decide (b < 0x300000000000) || decide (0x380000000000 < e)), (rLnkWinBase n, .align, b % t.winSize n != 0),
     (rLnkWinBase n, .overlap, others.any (fun m => decide (t.act (rLnkWinBase m) < e) && decide (b < t.act (rLnkWinBase m) + t.winSize m))),
     (rLnkWinKind n, .capacity, bitOf (t.act (rLnkWinKind n)) 0 &&
       others.any (fun m => bitOf (t.act (rLnkWinKind m)) 0 && t.act (rLnkWinOwner m) == t.act (rLnkWinOwner n)))])

/-! ### RING (03 R65, R72, 19 R480) -/

/-- The checks of ring `r`. -/
def ringChecks (s t : State) (p : NMap W64) (r : Nat) : List Check :=
  let setup := [rRingSqBase r, rRingSqCfg r, rRingHeadWb r, rRingSqHead r]
  let o := t.ringOwner r
  let q := t.ringQueue r
  let size := 64 * 2 ^ t.ringLog2 r
  let mine := (s.rings.filter (fun e => e.1 != r && e.2.state != 0 && s.ringOwner e.1 == o)).length +
    ((touched p ringKeyBase 0x40 4096).filter (fun i => i != r && (s.ring i).state == 0 && t.act (rRingCtrl i) == 1 && t.ringOwner i == o)).length
  [(rRingSqCfg r, .range, outOf 4 16 (t.ringLog2 r) || !ownerOk o), (firstOf p setup, .inUse, (s.ring r).state != 0 && anyOf p setup)] ++
  (if t.act (rRingCtrl r) != 1 then [] else
    [(rRingSqBase r, .align, t.act (rRingSqBase r) % size != 0), inWindow t (rRingSqBase r) o (t.act (rRingSqBase r)) size,
     (rRingSqCfg r, .pair, !t.eqOn q || t.eqOwner q != o), (rRingSqCfg r, .capacity, decide (o < 64) && decide (64 ≤ mine)),
     (rRingHeadWb r, .align, t.act (rRingHeadWb r) % 4 != 0), inWindow t (rRingHeadWb r) o (t.act (rRingHeadWb r)) 4])

/-- The checks of event queue `q`. -/
def eqChecks (s t : State) (q : Nat) : List Check :=
  let o := t.eqOwner q
  let size := 32 * 2 ^ t.eqLog2 q
  let bound := s.rings.any (fun r => r.2.state != 0 && s.ringQueue r.1 == q)
  [(rRingEqCfg q, .range, outOf 4 16 (t.eqLog2 q) || !ownerOk o), (rRingEqCfg q, .inUse, s.eqOn q && !t.eqOn q && bound),
   (rRingEqCfg q, .pair, t.eqOn q && s.rings.any (fun r => r.2.state != 0 && s.ringQueue r.1 == q && s.ringOwner r.1 != o))] ++
  (if !t.eqOn q then [] else
    [(rRingEqBase q, .align, t.act (rRingEqBase q) % size != 0), inWindow t (rRingEqBase q) o (t.act (rRingEqBase q)) size,
     (rRingEqHeadAddr q, .align, t.act (rRingEqHeadAddr q) % 4 != 0), inWindow t (rRingEqHeadAddr q) o (t.act (rRingEqHeadAddr q)) 4,
     (rRingEqCfg q, .capacity, decide (o < 64) && decide (4 < ((List.range 256).filter (fun i => t.eqOn i && t.eqOwner i == o)).length))])

/-! ### Per-fold blocks -/

/-- SESS (04 R124). -/
def sessChecks (s t : State) (p : NMap W64) (f : Nat) : List Check :=
  let k := rSessDirRecords f
  [(k, .capacity, decide (16777216 < sumOn (fun g => t.act (rSessDirRecords g)) (List.range 64))),
   (k, .inUse, decide (t.act k < (s.sessions.filter (fun y => y.2.isHome && sidFold y.2.record.sessionId == f)).length)),
   (k, .capacity, hasN p k && t.act k != 0 && !t.hbmFits f),
   (rSessWriteCompat f, .range, outOf s.boot.firmware.fmtMin s.boot.firmware.fmtMax (t.act (rSessWriteCompat f)))]

/-- SCH (05 R149). -/
def schChecks (s t : State) (f : Nat) : List Check :=
  let pf := t.act (rSchPrefill f)
  let mv := t.act (rSchMove f)
  let a := rSchAcctAddr f
  let n := t.act (rSchAcctInterval f)
  [(rSchBudget f, .range, outOf 1000 1000000 (t.act (rSchBudget f))), (rSchPrefill f, .range, outOf 16 4096 (bitsOf pf 12 0)),
   (rSchPrefill f, .pair, decide (bitsOf pf 12 0 < bitsOf pf 28 16)), (rSchGenLimit f, .range, outOf 1 512 (t.act (rSchGenLimit f))),
   (rSchAdmitQueue f, .range, outOf 16 4096 (t.act (rSchAdmitQueue f))),
   (rSchAdmitQueue f, .inUse, decide (t.act (rSchAdmitQueue f) < (s.fold f).queued.length)),
   (a, .align, t.act a % 512 != 0), (rSchAcctInterval f, .range, n != 0 && decide (n < 1000)),
   (rSchMove f, .range, outOf 1 512 (bitsOf mv 9 0) || decide (95 < bitsOf mv 23 16))] ++
  (if n = 0 then [] else [inWindow t a f (t.act a) 1024])

/-- TIER (02 R25, R42, 19 R481). The window's rules apply to a commit that changes it. -/
def tierChecks (s t : State) (p : NMap W64) (f : Nat) : List Check :=
  let b := t.winBase f
  let l := t.winLimit f
  let k := rTierFoldBase f
  let start := if s.winLimit f = 0 then b else s.winBase f
  let out (i : Nat) : Bool := decide (start + i * 65536 < b) || decide (l < start + i * 65536 + 65536)
  let meets (g : Nat) : Bool := g != f && decide (t.winBase g < l) && decide (b < t.winLimit g)
  let sp := t.act (rTierSpillTier f)
  (if !anyOf p [k, rTierFoldLimit f] then [] else
    (if b = 0 && l = 0 then [] else
      [(k, .pair, decide (l ≤ b)), (rTierFoldLimit f, .range, decide (0x300000000000 < l)), (k, .overlap, (List.range 64).any meets),
       (k, .capacity, !t.hbmFits f)]) ++
    [(k, .inUse, (s.fold f).sheets.any (fun e => out e.1))]) ++
  [(rTierSpillTier f, .range, sp != 4 && !(sp == 3 && (s.fold f).ns.state != nsAbsent)),
   (rTierQuotaThresh f, .range, t.act (rTierQuotaThresh f) == 0)]

/-- Why a channel cannot be given to fold `f`'s namespace (12 R310). -/
def channelReason (s t : State) (f c : Nat) : Option Reason :=
  if s.folds.any (fun q => q.1 != f && q.2.ns.state == nsReleasing && bitOf q.2.ns.mask c) then some .notReady
  else if s.folds.any (fun q => q.1 != f && q.2.ns.state != nsAbsent && bitOf q.2.ns.mask c) ||
      (List.range 64).any (fun g => g != f && bitOf (t.act (rNfcNsChannels g)) c) then some .owner
  else
    let pres := s.boot.chipEnables.getD c 0
    if pres &&& (255 - s.boot.chipEnablesFenced.getD c 0) = 0 then some .notReady else none

/-- NFC (12 R310, R330). A mask equal to the channels a kept namespace has is no change of them (log entry 66). -/
def nfcChecks (s t : State) (p : NMap W64) (f : Nat) : List Check :=
  let x := (s.fold f).ns
  let k := rNfcNsChannels f
  let m := t.act k
  let rs := t.act (rNfcNsReserve f)
  let th := t.act (rNfcGcThresh f)
  let hw := t.act (rNfcHealthWarn f)
  let formed := x.state != nsAbsent
  let again := formed && m == x.mask
  (if !hasN p k then [] else
    ((bitsSet 16 m).filterMap (channelReason s t f)).map (fun r => (k, r, !again)) ++
    [(k, .inUse, m != 0 && formed && !again), (k, .busy, m == 0 && (x.state == nsForming || x.state == nsRebuilding)),
     (k, .inUse, m == 0 && formed && (!x.map.isEmpty || s.quota f 3 != 0))]) ++
  [(rNfcNsReserve f, .range, outOf 7 50 (bitsOf rs 5 0) || outOf 1 10 (bitsOf rs 11 8)),
   (rNfcNsReserve f, .inUse, formed && hasN p (rNfcNsReserve f)),
   (rNfcGcAgeScale f, .range, t.act (rNfcGcAgeScale f) == 0),
   (rNfcGcThresh f, .range, outOf 2 255 (bitsOf th 7 0) || outOf 3 255 (bitsOf th 15 8) || outOf 1 254 (bitsOf th 23 16)),
   (rNfcGcThresh f, .pair, decide (bitsOf th 15 8 ≤ bitsOf th 7 0) || decide (bitsOf th 7 0 ≤ bitsOf th 23 16)),
   (rNfcGcThresh f, .inUse, formed && bitsOf th 23 16 != bitsOf (s.act (rNfcGcThresh f)) 23 16),
   (rNfcReadPolicy f, .range, t.act (rNfcReadPolicy f) == 0),
   (rNfcHealthWarn f, .range, decide (100 < bitsOf hw 7 0) || bitsOf hw 15 8 == 0 || decide (125 < bitsOf hw 23 16)),
   (rNfcCheckpoint f, .range, outOf 65536 (2 ^ 31) (t.act (rNfcCheckpoint f)))]

/-- A route entry's checks (13 R337, R364). -/
def routeChecks (t : State) (k : Nat) : List Check :=
  let a := bitsOf (t.act k) 4 0
  let b := bitsOf (t.act k) 9 5
  let bad (v : Nat) : Bool := decide (17 < v) && v != 31
  [(k, .range, bad a || bad b), (k, .pair, a == b && a != 31)]

/-- FAB (13 R364). -/
def fabChecks (s t : State) (p : NMap W64) : List Check :=
  let zero (k : Nat) : Bool := (leBytes 8 (t.act k)).any (· == 0)
  [(rFabSelf, .state, hasN p rFabSelf && (List.range 18).any (fun i => bitOf (s.act (rFabPortCtrl i)) 0))] ++
  (touched p 0x90100 0x40 18).flatMap (fun i => [(rFabWfqLo i, .range, zero (rFabWfqLo i)), (rFabWfqHi i, .range, zero (rFabWfqHi i))]) ++
  (touched p 0x92000 8 512).flatMap (fun g => routeChecks t (rFabRouteGroup g)) ++ (touched p 0x93000 8 512).flatMap (fun d => routeChecks t (rFabRouteLocal d))

/-- TOK (10 R282). -/
def tokChecks (s t : State) (f : Nat) : List Check :=
  let k := rTokVcache f
  [(k, .range, decide (48 < t.act k)), (k, .capacity, s.formed f && decide ((s.fold f).wayList.length < ceilDiv (t.act k) 3))]

/-- BELL (09 R253). -/
def bellChecks (t : State) (f : Nat) : List Check :=
  let l := t.act (rBellLen f)
  let g := t.act (rBellNgram f)
  [(rBellMode f, .range, t.act (rBellMode f) == 3), (rBellLen f, .range, outOf 1 8 (bitsOf l 3 0) || bitsOf l 11 8 == 0),
   (rBellLen f, .pair, decide (bitsOf l 3 0 < bitsOf l 11 8)),
   (rBellNgram f, .range, outOf 1 8 (bitsOf g 3 0) || decide (8 < bitsOf g 7 4) || outOf 64 4096 (bitsOf g 28 16)),
   (rBellNgram f, .pair, decide (bitsOf g 7 4 < bitsOf g 3 0))]

/-- RCL (11 R283, R284, R306). -/
def rclChecks (s t : State) (p : NMap W64) (f : Nat) : List Check :=
  let b := rRclBase f
  let c := t.act (rRclConfig f)
  let q := t.act (rRclQuery f)
  let bu := t.act (rRclBuild f)
  let on := bitOf c 8
  let backed := (s.fold f).backed (s.mapIndex f (t.act b))
  let old := s.index f
  let dimChanges := bitsOf c 1 0 != bitsOf (s.act (rRclConfig f)) 1 0
  let first := if hasN p b then b else if dimChanges then rRclConfig f else rRclCap f
  [(b, .range, on && (decide (t.act b < t.winBase f) || decide (t.winLimit f < t.act b + 65536 * rclSheets (bitsOf c 1 0) (t.act (rRclCap f))))),
   (rRclConfig f, .pair, on && hasN p (rRclConfig f) && backed && (s.num (t.act b) 4 != 0x314C4352 || s.num (t.act b + 4) 1 != bitsOf c 1 0)),
   (rRclCap f, .range, on && outOf 1 0xFFF00000 (t.act (rRclCap f))),
   (first, .inUse, (old.any (fun x => decide (0 < s.ixSeq x))) && (anyOf p [b, rRclCap f] || dimChanges)),
   (rRclQuery f, .range, decide (128 < bitsOf q 7 0) || outOf 1 4096 (bitsOf q 28 16)),
   (rRclQuery f, .capacity, decide (128 < sumOn (fun g => bitsOf (t.act (rRclQuery g)) 7 0) (List.range 64))),
   (rRclBuild f, .range, outOf 8 64 (bitsOf bu 6 0) || outOf 16 256 (bitsOf bu 24 16))]

/-- SNAP (14 R389). -/
def snapChecks (s t : State) (p : NMap W64) (f : Nat) : List Check :=
  let b := rSnapStoreBase f
  let n := t.snapSlots f
  let sh := t.act (rSnapSlotSheets f)
  let keys := [b, rSnapStore f, rSnapSlotSheets f]
  let st := (s.fold f).snap.state
  let a := t.snapArea f
  let r := t.recallArea f
  [(rSnapStore f, .range, n == 1 || decide (8 < n)), (rSnapSlotSheets f, .range, (n != 0 || sh != 0) && outOf 16 (2 ^ 31) sh),
   (b, .range, n != 0 && (decide (t.act b < t.winBase f) || decide (t.windowSheets f < a.2))),
   (b, .overlap, decide (a.1 < r.2) && decide (r.1 < a.2)),
   (rSnapCowSheets f, .capacity, anyOf p [rSnapStore f, rSnapCowSheets f] && n != 0 && t.act (rSnapCowSheets f) != 0 && !t.hbmFits f),
   (firstOf p keys, .busy, anyOf p keys && ((st != 0 && st != 5) || (s.fold f).snap.job.isSome))]

/-- INK (08 R237). -/
def inkChecks (t : State) (f : Nat) : List Check :=
  let w := t.act (rInkWindow f)
  let sp := t.act (rInkSpill f)
  let keep := bitsOf (t.act (rInkEvict f)) 20 0
  [(rInkCtxMax f, .range, outOf 128 1048576 (t.act (rInkCtxMax f))), (rInkWindow f, .range, outOf 1 8 (bitsOf w 3 0) || outOf 128 65536 (bitsOf w 24 8)),
   (rInkWindow f, .pair, keep != 0 && decide (keep < bitsOf w 24 8 + 4)),
   (rInkSpill f, .range, decide (14 < bitsOf sp 3 0) || bitsOf sp 7 4 == 0), (rInkSpill f, .pair, decide (bitsOf sp 7 4 ≤ bitsOf sp 3 0)),
   (rInkPrefetch f, .range, t.act (rInkPrefetch f) == 0), (rInkPrefix f, .range, decide (65536 < t.act (rInkPrefix f)))]

/-- PWR (17 Table 17-3, 19 R483). -/
def pwrChecks (t : State) : List Check :=
  let th := t.act rPwrThermal
  [rPwrPenPolicy, rPwrHbmPolicy, rPwrPortPolicy, rPwrFlashPolicy].flatMap (fun k =>
    let a := bitsOf (t.act k) 31 0
    let b := bitsOf (t.act k) 63 32
    [(k, .range, (a != rungOff && outOf 1 65535 a) || (b != rungOff && outOf 10 16777215 b)),
     (k, .pair, a != rungOff && b != rungOff && decide (b ≤ a))]) ++
  [(rPwrThermal, .range, outOf 70 105 (bitsOf th 7 0) || outOf 300 1250 (bitsOf th 26 16)),
   (rPwrThermal, .pair, decide (bitsOf th 7 0 < bitsOf th 15 8 + 2))]

/-- The checks of block `b`, in the order they are written; the first that fails in ascending register offset decides (19 R472 step 3). -/
def blockChecks (b : Nat) (s t : State) (p : NMap W64) : List Check :=
  let per (base stride : Nat) (g : Nat → List Check) : List Check := (touched p base stride 64).flatMap g
  if b = 0 then per 0x1000 0x20 (sysChecks s t p)
  else if b = 1 then (touched p 0x11000 0x40 256).flatMap (lnkChecks s t p)
  else if b = 2 then (touched p ringKeyBase 0x40 4096).flatMap (ringChecks s t p) ++ (touched p 0x22000 0x40 256).flatMap (eqChecks s t)
  else if b = 3 then per 0x30100 0x20 (sessChecks s t p)
  else if b = 4 then per 0x41000 0x80 (schChecks s t)
  else if b = 6 then per 0x61000 0x80 (tierChecks s t p)
  else if b = 7 then [(rHbmScrub, .range, t.act rHbmScrub != 0 && decide (t.act rHbmScrub < 1000))]
  else if b = 8 then per 0x81000 0x80 (nfcChecks s t p)
  else if b = 9 then fabChecks s t p
  else if b = 10 then per 0xA1000 0x40 (tokChecks s t)
  else if b = 11 then per 0xB1000 0x40 (bellChecks t)
  else if b = 12 then per 0xC1000 0x40 (rclChecks s t p)
  else if b = 13 then per 0xD1000 0x40 (snapChecks s t p)
  else if b = 16 then pwrChecks t
  else if b = 19 then per 0x131000 0x40 (fun f => [(rScrWindowDepth f, .range, outOf 2 8 (t.act (rScrWindowDepth f)))])
  else if b = 20 then per 0x141000 0x40 (inkChecks t)
  else []

end Sys2Proof.Machine
end

