-- ==== Sys2Proof/Machine/Commit.lean ====
section
/-! DEFINITION. Shadows and commit (19 R471 to R476): GO, DISCARD, the application points. -/
namespace Sys2Proof.Machine

/-- Whether block `b` has SH fields and commit registers (19 Table 19-2). -/
def hasCommit (b : Nat) : Bool := [0, 1, 2, 3, 4, 6, 7, 8, 9, 10, 11, 12, 13, 14, 16, 17, 19, 20].contains b

/-- The commit registers of block `b`. -/
def State.commitOf (s : State) (b : Nat) : CommitReg := getND s.regs.commit b CommitReg.reset
/-- `s` with `g` applied to the commit registers of block `b`. -/
def State.modCommit (s : State) (b : Nat) (g : CommitReg → CommitReg) : State :=
  { s with regs := { s.regs with commit := setN s.regs.commit b (g (s.commitOf b)) } }

/-- Block offset of a register. -/
def offsetOf (k : Nat) : Nat := if ringKeyBase ≤ k then 0x100 + (k - ringKeyBase) % 0x40 else k % 65536

/-- The shadow values of block `b` that differ from the active copy: the pending copy of a commit. -/
def State.changes (s : State) (b : Nat) : NMap W64 := s.regs.shadow.filter (fun p => blockOf p.1 == b && p.2.toNat != s.act p.1)

/-- The device with pending values active, for the checks. -/
def State.withActive (s : State) (p : NMap W64) : State := p.foldl (fun s e => s.setAct e.1 e.2.toNat) s

/-- The check that refuses a commit: the first that fails, in ascending register offset. -/
def firstBad (l : List Check) : Option Check := minOn (fun c => offsetOf c.1) (l.filter (fun c => c.2.2))

/-! ### Application (19 R475) -/

/-- The registers that hold map indices, moved to a new window base (02 R25): `g` gives the new index. Page tables in the fold's sheets stand as
they are (log entry 74). -/
def Fold.reindex (g : Nat → Nat) (x : Fold) : Fold :=
  let key {α : Type} (m : NMap α) : NMap α := m.map (fun p => (g p.1, p.2))
  { x with
    sheets := key x.sheets, migs := key x.migs, requests := x.requests.map (fun r => (g r.1, r.2)), moveFail := key x.moveFail, quotaOut := key x.quotaOut
    images := x.images.map (fun p => (p.1, { p.2 with ownSheets := p.2.ownSheets.map g, understudySheets := p.2.understudySheets.map g }))
    registering := x.registering.map (fun p => (p.1, { p.2 with
      left := p.2.left.map (fun r => { r with index := g r.index })
      image := { p.2.image with ownSheets := p.2.image.ownSheets.map g, understudySheets := p.2.image.understudySheets.map g } }))
    expanded := x.expanded.map (fun p => (p.1, p.2.map g)), prefix_ := x.prefix_.map (fun p => (p.1, { p.2 with pages := p.2.pages.map g }))
    snap := { x.snap with marked := x.snap.marked.map g, copies := key x.snap.copies
                          poisonedCopies := x.snap.poisonedCopies.map g, share := x.snap.share.map (fun p => (p.1, g p.2))
                          kept := x.snap.kept.map (fun p => (p.1, g p.2)) }
    compacts := x.compacts.map (fun c => { c with run := c.run.map g, fresh := c.fresh.map g })
    ns := { x.ns with writes := x.ns.writes.map (fun o => { o with index := o.index.map g }) } }

/-- A session's map indices, moved. -/
def Sess.reindex (g : Nat → Nat) (y : Sess) : Sess :=
  { y with history := y.history.map g, wet := y.wet.map (·.map g), park := y.park.map (fun p => { p with left := p.left.map g })
           revive := y.revive.map (fun r => { r with groups := r.groups.map (·.map g) })
           move := y.move.map (fun m => { m with pulled := m.pulled.map (fun p => (p.1, g p.2)) }) }

/-- A TIER register of fold `f`. -/
def tierKey (f k : Nat) : Bool := decide (0x61000 + f * 0x80 ≤ k) && decide (k < 0x61080 + f * 0x80)

/-- Fold `f`'s part of a TIER commit active; every backed sheet keeps its offset. -/
def applyTier (f : Nat) (s : State) : State :=
  let t := applyPend (tierKey f) s
  if s.winLimit f = 0 || t.winBase f = s.winBase f then t
  else
    let g (i : Nat) : Nat := (s.sheetOffset f i - t.winBase f) / 65536
    let t := t.modFold f (Fold.reindex g)
    { t with sessions := t.sessions.map (fun p => if p.2.fold = f then (p.1, p.2.reindex g) else p) }

/-- Whether a change of fold `f`'s window waits. -/
def State.windowDue (s : State) (f : Nat) : Bool := hasN s.regs.pend (rTierFoldBase f) || hasN s.regs.pend (rTierFoldLimit f)

/-- Fold `f` between two migrations. -/
def State.noMigration (s : State) (f : Nat) : Bool := (s.fold f).migs.all (fun m => m.2.phase == 1 || m.2.phase == 7)

/-- The folds that pending values of an array belong to. -/
def dueFolds (s : State) (base stride : Nat) : List Nat := touched s.regs.pend base stride 64

/-- An event queue that a commit has enabled starts empty (03 R72). -/
def startQueues (s₀ s : State) : State :=
  (touched s₀.regs.pend 0x22000 0x40 256).foldl (fun s q => if s.eqOn q && !s₀.eqOn q then s.setEq q EventQueue.reset else s) s

/-- The index of fold `f`, enabled over an unbacked header sheet, gets a fresh header of KIND 5 (11 R283). -/
def startIndex (f : Nat) (s : State) : State :=
  match s.index f with
  | none => s
  | some x =>
    let i := s.mapIndex f x.base
    if (s.fold f).backed i then s else
    match readyWrite f i 5 s with
    | .ok s => s.write x.base (freshHeader x.dim x.cap)
    | .error e => e.2

/-- Fold `f` of SYS: a change of a fold that stays NONE is active at once; a fold that is to be formed is forming. -/
def startForming (f : Nat) (s : State) : State :=
  if (s.fold f).status != 0 then s
  else if s.due (rSysFoldCtrl f) = 0 then applyPend (sysKey f) s
  else
    let s := s.modFold f (fun x => { x with status := 1 })
    (drawFirstKey f s).getD s

/-- What becomes active of block `b` at its application point, whenever the block is at one. SYS and the channel masks wait for their own rows,
PWR_THERMAL for the duty evaluation. -/
def applyBlock (b : Nat) (s : State) : State :=
  let inBlock (k : Nat) : Bool := blockOf k == b
  let idle (f : Nat) : Bool := (s.fold f).step.isNone
  if b = 0 then (dueFolds s 0x1000 0x20).foldl (fun s f => startForming f s) s
  else if b = 2 then startQueues s (applyPend inBlock s)
  else if b = 4 then (dueFolds s 0x41000 0x80).foldl (fun s f => if idle f then applyFoldStep f s else s) s
  else if b = 11 then (dueFolds s 0xB1000 0x40).foldl (fun s f => if idle f then applyFoldStep f s else s) s
  else if b = 20 then (dueFolds s 0x141000 0x40).foldl (fun s f => if idle f then applyFoldStep f s else s) s
  else if b = 6 then (dueFolds s 0x61000 0x80).foldl (fun s f => if !s.windowDue f && s.noMigration f then applyTier f s else s) s
  else if b = 8 then
    (dueFolds s 0x81000 0x80).foldl (fun s f =>
      if !s.maskDue f || ((s.fold f).ns.state != nsAbsent && s.due (rNfcNsChannels f) == (s.fold f).ns.mask) then applyPend (nfcKey f) s else s) s
  else if b = 10 then applyPend (fun k => inBlock k && idle ((k - 0xA1000) / 0x40)) s
  else if b = 19 then applyPend (fun k => inBlock k && idle ((k - 0x131000) / 0x40)) s
  else if b = 12 then
    let fs := dueFolds s 0xC1000 0x40
    fs.foldl (fun s f => startIndex f s) (applyPend inBlock s)
  else if b = 16 then applyPend (fun k => inBlock k && k != rPwrThermal) s
  else if b = 7 || b = 17 then s
  else applyPend inBlock s

/-- A commit with nothing left to apply is applied. -/
def finishCommit (b : Nat) (s : State) : State := if s.regs.pend.any (fun p => blockOf p.1 == b) then s else applyPend (fun _ => false) s

/-- A commit of block `b` (19 R472, R473). -/
def commitGo (b : Nat) (s : State) : State :=
  let c := s.commitOf b
  if !hasCommit b then s
  else if c.state = 1 || c.state = 2 then s.modCommit b (fun c => { c with overrun := true })
  else
    let p := s.changes b
    match firstBad (blockChecks b s (s.withActive p) p) with
    | some k => s.modCommit b (fun c => { c with state := 4, overrun := false, reason := k.2.1.code, offset := offsetOf k.1 })
    | none =>
      let s := s.modCommit b (fun c => { c with state := 2, overrun := false, reason := 0, offset := 0, seq := c.seq + 1 })
      let s := { s with regs := { s.regs with pend := p.foldl (fun m e => setN m e.1 e.2) s.regs.pend } }
      finishCommit b (applyBlock b s)

/-- COMMIT_GO (19 R472). -/
def execCommitGo (b : Nat) (s : State) : Host.Outcome State Fault Refusal := .next (serve s (commitGo b))

/-- COMMIT_APPLY (19 R475): the block is at its application point. -/
def commitApply (b : Nat) (s : State) : State :=
  if b = 6 then finishCommit b ((dueFolds s 0x61000 0x80).foldl (fun s f => applyTier f s) s)
  else if b = 7 || b = 17 then applyPend (fun k => blockOf k == b) s
  else if b = 0 then s
  else finishCommit b (applyBlock b s)

/-- COMMIT_APPLY. -/
def execCommitApply (b : Nat) (s : State) : Host.Outcome State Fault Refusal :=
  .next (serve s fun s => onlyIf ((s.commitOf b).state == 2) s (commitApply b s))

/-- The shadow of block `b` reloaded (19 R473); a refusal's REASON and OFFSET go with STATE 4 (19 Table 19-5 step 4). -/
def commitDiscard (b : Nat) (s : State) : State :=
  if !hasCommit b then s else
  let s := { s with regs := { s.regs with shadow := s.regs.shadow.filter (fun p => blockOf p.1 != b) } }
  if (s.commitOf b).state = 3 || (s.commitOf b).state = 4 then
    s.modCommit b (fun c => { c with state := 0, reason := 0, offset := 0 })
  else s

/-- COMMIT_DISCARD (19 R473). -/
def execCommitDiscard (b : Nat) (s : State) : Host.Outcome State Fault Refusal := .next (serve s (commitDiscard b))

end Sys2Proof.Machine
end

