-- ==== Sys2Proof/Machine/FlashHost.lean ====
section
/-! DEFINITION. The host's descriptors of the flash tier: FLASH_DISCARD and HEALTH_READ (12 R326, R327, R329). -/
namespace Sys2Proof.Machine

/-- Whether FLASH_DISCARD skips map index `i` (12 R326): shared, wet, a weight tile, or the enabled recall index. -/
def discardSkips (s : State) (f i : Nat) : Bool :=
  let e := (s.fold f).sheet i
  (s.fold f).backed i && (decide (1 < e.refs) || e.wet || e.kind == 2 || (e.kind == 5 && bitOf (s.act (rRclConfig f)) 8))

/-- FLASH_DISCARD (12 R326): each sheet of the range in ascending order; the COMPLETION waits for the TRIM page when the range
held a T3 sheet. -/
def execFlashDiscard (d : Desc) (s : State) : Host.Outcome State Fault Refusal :=
  .next (serve s (descriptor opFlashDiscard (bodyReserved d [(16, 21), (24, 27)]) false d fun s =>
    let f := s.descFold d
    let a := descNum d 16 6
    let n := descNum d 24 4
    if a % 65536 != 0 || n = 0 || 16777216 < n then .error (stBadDescriptor, s)
    else if !(decide (s.winBase f ≤ a) && decide (a + n * 65536 ≤ s.winLimit f)) then .error (stNotOwner, s)
    else
      let lo := s.mapIndex f a
      let backed := (keysN (s.fold f).sheets).filter (fun i => decide (lo ≤ i) && decide (i < lo + n))
      let skip := backed.filter (discardSkips s f)
      let drop := backed.filter (fun i => !discardSkips s f i)
      let flash := drop.any (fun i => ((s.fold f).sheet i).tier == 3)
      let spec := leBytes 4 (n - skip.length) ++ leBytes 4 skip.length ++ zerosB 3
      let s := discardAll f drop s
      .ok (if flash then s.modNs f (fun x => { x with discards := x.discards ++ [{ d with body := padTo 48 d.body ++ spec }] })
        else complete opFlashDiscard d stOk 0 spec s)))

/-- Whether the buffer is dynamic (12 R318). -/
def State.bufferDynamic (s : State) (f : Nat) : Bool := s.act rNfcService != 1 || (s.fold f).ns.state == nsRebuilding

/-- The 512-byte health log page (12 Table 12-6). -/
def healthPage (s : State) (f : Nat) : List Byte :=
  let fw := s.boot.firmware
  let x := (s.fold f).ns
  leBytes 2 1 ++ leBytes 1 f ++ leBytes 1 x.state ++ leBytes 1 (b2n (s.bufferDynamic f)) ++ leBytes 1 (popc 16 x.mask) ++
  leBytes 2 x.mask ++ leBytes 8 s.now ++ leBytes 8 x.slots ++ leBytes 8 (x.map.filter (fun p => p.2 != lpnPoisoned)).length ++
  leBytes 4 (x.good - x.grownBad) ++ leBytes 4 x.factoryBad ++ leBytes 4 x.grownBad ++ leBytes 4 x.spareInitial ++
  leBytes 4 x.spareLeft ++ leBytes 1 x.sparePct ++ leBytes 1 (x.wearPct fw) ++ [0, 0] ++ leBytes 4 fw.endurance ++
  leBytes 4 x.eraseMax ++ leBytes 4 (x.eraseMean fw) ++ leBytes 4 (x.freeSb fw) ++ leBytes 4 x.bufferSb ++ zerosB 4 ++
  leBytes 8 x.hostPages.toNat ++ leBytes 8 x.nandPages.toNat ++ leBytes 8 x.cwHard.toNat ++ leBytes 8 x.cwSoft.toNat ++
  leBytes 8 x.readRetries.toNat ++ leBytes 8 x.cwBad.toNat ++ leBytes 4 x.programFails ++ leBytes 4 x.eraseFails ++
  leBytes 4 x.gcRestarts ++ zerosB 4 ++ (List.range 16).flatMap (fun b => leBytes 8 (getND x.tempHist b 0).toNat) ++
  leBytes 1 x.tempLast.length ++ leBytes 1 (ofSigned 8 (x.tempMax.getD 0)) ++ [0, 0] ++
  padTo 64 (x.tempLast.map (fun c => BitVec.ofNat 8 (ofSigned 8 c))) ++ zerosB 172

/-- The 32,768-byte grown-bad log (12 R329). -/
def grownBadLog (x : Namespace) : List Byte :=
  padTo 32768 (leBytes 4 x.grownBad ++ leBytes 2 (min 4088 x.badLog.length) ++ zerosB 58 ++
    (x.badLog.take 4088).flatMap (fun e => leBytes 8 e.toNat))

/-- A log written whole to DEST, then the COMPLETION (12 R329). A poisoned log page of a mapped LPN is not told apart from a
mapped page. -/
def readLog (d : Desc) (log : State → Nat → List Byte) : State → State :=
  descriptor opHealthRead (bodyReserved d [(16, 21), (24, 24)] && decide (descByte d 24 ≤ 1)) false d fun s =>
    let f := s.descFold d
    if (s.fold f).ns.state = nsAbsent then .error (stBadDescriptor, s)
    else andThen (writeLocal f (descNum d 16 6) (log s f) s) (fun s => .ok (complete opHealthRead d stOk 0 [] s))

/-- HEALTH_READ of the health log, LOG 0 (12 R327, R329). -/
def execHealthRead (d : Desc) (s : State) : Host.Outcome State Fault Refusal :=
  .next (serve s fun s => onlyIf (descByte d 24 != 1) s (readLog d healthPage s))

/-- HEALTH_READ of the grown-bad log, LOG 1 (12 R329). -/
def execHealthReadGrownBad (d : Desc) (s : State) : Host.Outcome State Fault Refusal :=
  .next (serve s fun s => onlyIf (descByte d 24 != 0) s (readLog d (fun s f => grownBadLog (s.fold f).ns) s))

end Sys2Proof.Machine
end

