-- ==== Sys2Proof/Machine/Release.lean ====
section
/-! DEFINITION. Pens given up and folds released (19 R477, 15 R408, R409). -/
namespace Sys2Proof.Machine

/-- The pens a commit takes away from a FORMED fold: the fold's sheets in their slates and channels move to T2 elsewhere (02 R43), then the
channels are zeroed and the pens collapse. Nothing happens while an image is active or a sheet finds no room (log entry 72). -/
def removePens (f : Nat) (s : State) : State :=
  let x := s.fold f
  let keep := s.duePens f
  let gone := x.penList.filter (fun n => !keep.toNat.testBit n)
  let leaves (e : Sheet) : Bool := (e.tier == 0 && gone.contains (e.loc % 64)) || (e.tier == 2 && gone.contains (e.loc % 256 / 4))
  if !s.formed f || !s.sysDue f || s.due (rSysFoldCtrl f) != 1 || gone.isEmpty || x.active.isSome || x.drain.any (fun d => d.kind == 1 || d.kind == 2) then s
  else
    match moveOut f leaves (s.modFold f (fun x => { x with pens := x.pens &&& keep })) with
    | none => s
    | some s => settleSys f (gone.foldl (fun s n => collapsePen n s) s)

/-- FOLD_REMOVE_PENS (19 Table 19-6 row 4). -/
def execFoldRemovePens (f : Nat) (s : State) : Host.Outcome State Fault Refusal := .next (serve s (removePens f))

/-- Everything a released fold held gone but its pens, ways and channels (15 R408 step 1): keys, sealed record, sheets, images, sessions. -/
def releaseFold (f : Nat) (s : State) : State :=
  let x := s.fold f
  let lo := s.winBase f
  let hi := s.winLimit f
  let mine (y : Sess) : Bool := y.fold == f || (y.isHome && sidFold y.record.sessionId == f)
  let s := s.setFold f { Fold.reset with status := 3, releaseStep := 1, pens := x.pens, ways := x.ways, ns := { x.ns with sealedKeys := [], sealedG := 0 }
                                         key := { FoldKey.reset with scrubLeft := 8192 * x.penList.length } }
  let s := { s with mem := memClear s.mem lo hi, poison := s.poison.filter (fun u => !(decide (lo ≤ u * 64) && decide (u * 64 < hi)))
                    sessions := s.sessions.filter (fun p => !mine p.2) }
  { s with regs := { s.regs with shadow := delN s.regs.shadow (rNfcNsChannels f) } }.setAct (rNfcNsChannels f) 0

/-- FOLD_RELEASE (15 R408 step 1, 19 Table 19-6 row 5). -/
def execFoldRelease (f : Nat) (s : State) : Host.Outcome State Fault Refusal :=
  .next (serve s fun s => onlyIf (s.formed f && hasN s.regs.pend (rSysFoldCtrl f) && s.due (rSysFoldCtrl f) == 0) s (releaseFold f s))

/-- FOLD_RELEASE_DONE (15 R408 step 4, 19 Table 19-6 row 6): pens collapsed, ways cleared, resources free, the commit's last part active. -/
def execFoldReleaseDone (f : Nat) (s : State) : Host.Outcome State Fault Refusal :=
  .next (serve s fun s =>
    let x := s.fold f
    onlyIf (x.status == 3 && x.ns.state == nsAbsent) s
      (let s := x.wayList.foldl clearWay (x.penList.foldl (fun s n => collapsePen n s) s)
       applyPend (sysKey f) { s with folds := delN s.folds f }))

end Sys2Proof.Machine
end

