-- ==== Sys2Proof/Machine/Regs.lean ====
section
/-! DEFINITION. The register window (19 R469 to R485, Table 19-15): what every register reads, what a write does. -/
namespace Sys2Proof.Machine

/-! ### Registers read out of the state -/

/-- The value `v` in bits from `lo` up, `n` bits wide. -/
def field (lo n v : Nat) : Nat := v % 2 ^ n * 2 ^ lo

/-- The instance of an array of registers at offset `o`, and the place within it. -/
def slotOf (o base stride : Nat) : Nat × Nat := ((o - base) / stride, (o - base) % stride)

/-- The fold a pen is bound to, forming and releasing folds included. -/
def State.penOwner (s : State) (n : Nat) : Option Nat := (s.folds.find? (fun p => p.2.status != 0 && p.2.pens.toNat.testBit n)).map (·.1)

/-- The fold whose namespace has channel `c`. -/
def State.channelOwner (s : State) (c : Nat) : Option Nat := (s.folds.find? (fun p => p.2.ns.state != nsAbsent && bitOf p.2.ns.mask c)).map (·.1)

/-- SYS (19 Table 19-7). -/
def sysRead (s : State) (o : Nat) : Nat :=
  let i := slotOf o 0x1000 0x20
  if o = 0x8 then 0x00016408
  else if o = 0x10 then s.stageVersion 4
  else if 0x1000 ≤ o && i.1 < 64 && i.2 = 0x18 then field 0 2 (s.fold i.1).status + field 8 3 (s.fold i.1).releaseStep
  else 0

/-- LNK_STATUS (19 Table 19-8). -/
def lnkRead (s : State) (o : Nat) : Nat :=
  if o = 0x8 then b2n s.link.up + 2 * b2n s.link.training + field 4 4 s.link.width + field 8 2 s.link.group else 0

/-- RING (19 Table 19-9). -/
def ringRead (s : State) (o : Nat) : Nat :=
  let i := slotOf o 0x2000 0x40
  let r := s.ring (s.act rRingSel)
  let d := s.act rRingEqDsel
  if o = 0x18 then (getND s.dropped (bitsOf d 7 0 * 32 + bitsOf d 12 8) 0).toNat
  else if o = 0x128 then field 0 2 r.state + field 32 32 r.head.toNat
  else if 0x2000 ≤ o && i.1 < 256 && i.2 = 0x18 then (s.eq i.1).producer.toNat + field 32 14 (s.eq i.1).backlog.length
  else 0

/-- SESS (04 Table 4-11). -/
def sessRead (s : State) (o : Nat) : Nat :=
  let i := slotOf o 0x100 0x20
  if o = 0x30 then field 0 8 s.boot.firmware.fmtMin + field 8 8 s.boot.firmware.fmtMax
  else if 0x100 ≤ o && i.1 < 64 && i.2 = 0x10 then field 0 1 (s.fold i.1).role + 2 * b2n ((s.fold i.1).drain.any (fun d => d.kind == 0))
  else 0

/-- SCH (05 Table 5-6). -/
def schRead (s : State) (o : Nat) : Nat :=
  let i := slotOf o 0x1000 0x80
  if o = 0x8 then field 0 16 s.seqUsed
  else if 0x1000 ≤ o && i.1 < 64 && i.2 = 0x48 then field 0 16 (s.fold i.1).seqs.length + field 16 13 (s.fold i.1).queued.length
  else 0

/-- TIER (19 Table 19-10). -/
def tierRead (s : State) (o : Nat) : Nat :=
  let i := slotOf o 0x1000 0x80
  let q (t : Nat) : Nat := field 0 32 (getND (s.fold i.1).quota t 0) + field 32 32 ((s.fold i.1).use t)
  if o < 0x1000 || 64 ≤ i.1 then 0
  else if i.2 = 0x30 then field 0 32 (s.sysSheets i.1)
  else if i.2 = 0x38 then q 2 else if i.2 = 0x40 then q 3 else if i.2 = 0x48 then q 4 else 0

/-- HBM (19 Table 19-11). -/
def hbmRead (s : State) (o : Nat) : Nat :=
  let c := s.act rHbmSel
  let k := c / 32
  let l := (s.block (64 + k)).level
  if o = 0x10 then
    b2n (!s.blockFenced (64 + k) && !s.blockDisabled (64 + k) && decide (l < 4)) + 2 * b2n (l == 3) + 4 * b2n (s.blockFenced (64 + k)) +
      8 * b2n (s.power.refresh2x.contains k)
  else if o = 0x18 then s.act (rHbmChCe c)
  else if o = 0x20 then s.act (rHbmChUe c)
  else if o = 0x28 then ofLe ((List.range 8).map (fun k => BitVec.ofNat 8 (ofSigned 8 (getND s.power.stackTemps k 0 / 8))))
  else 0

/-- NFC (12 Table 12-7). -/
def nfcRead (s : State) (o : Nat) : Nat :=
  let fw := s.boot.firmware
  let i := slotOf o 0x1000 0x80
  let x := (s.fold i.1).ns
  let c := (o - 0x18) / 8
  let pres := s.boot.chipEnables.getD c 0
  if o = 0x10 then
    field 0 4 fw.bits + field 4 4 fw.luns + field 8 4 fw.planes + field 12 16 fw.nsb + field 32 12 fw.ppb + field 44 4 fw.retry + field 48 16 fw.endurance
  else if 0x18 ≤ o && c < 16 then
    field 0 8 pres + field 8 8 (s.boot.chipEnablesFenced.getD c 0) + (if pres = 0 then 0 else field 16 4 (Config.flashTiming c) + field 20 12 (Config.flashRate c)) +
      (match s.channelOwner c with
        | some f => field 32 6 f + field 38 1 1
        | none => 0)
  else if o < 0x1000 || 64 ≤ i.1 then 0
  else if i.2 = 0x40 then
    field 0 3 x.state + 8 * b2n (x.state != nsAbsent && s.bufferDynamic i.1) + 16 * b2n x.gcRunning +
      (if x.state = nsAbsent then 0 else field 16 16 (x.freeSb fw) + field 32 16 x.bufferSb)
  else if i.2 = 0x48 then field 0 40 x.slots
  else if i.2 = 0x50 then (x.map.filter (fun p => p.2 != lpnPoisoned)).length
  else 0

/-- FAB (13 Table 13-5). -/
def fabRead (s : State) (o : Nat) : Nat :=
  let i := slotOf o 0x100 0x40
  let x := s.port i.1
  let sel := bitsOf (s.act (rFabHwm i.1)) 51 48
  let g := s.port ((o - 0x600) / 8)
  if o = 0x10 then fabRev + 16 * fabMinRev
  else if o = 0x60 then field 0 13 s.watched.length
  else if 0x100 ≤ o && i.1 < 18 then
    if i.2 = 0x8 then
      field 0 3 x.state + field 4 4 x.cause + field 8 4 x.nrev + field 12 3 x.width + field 32 18 x.neighbour + field 50 6 x.nport
    else if i.2 = 0x30 then field 0 16 (getND x.depthMark sel 0) + field 16 32 (getND x.sojournMark sel 0) + field 48 4 sel
    else 0
  else if 0x600 ≤ o && o < 0x690 then
    b2n g.gates.isSome + 2 * b2n g.pendingGates.isSome + field 2 6 g.gateIndex + field 8 8 ((g.gates.map (·.length)).getD 0) +
      field 16 48 ((g.pendingGates.map (·.2)).getD 0)
  else 0

/-- SNAP (14 Table 14-7). -/
def snapRead (s : State) (o : Nat) : Nat :=
  let i := slotOf o 0x1000 0x40
  let q := (s.fold i.1).snap
  if o < 0x1000 || 64 ≤ i.1 then 0
  else if i.2 = 0x30 then field 0 3 q.state + field 4 4 q.slot + field 12 20 q.copies.length + field 32 32 q.step
  else if i.2 = 0x38 then q.lastStep.toNat
  else 0

/-- SEC (15 Table 15-11). -/
def secRead (s : State) (o : Nat) : Nat :=
  let i := slotOf o 0x1000 0x40
  let k := (s.fold i.1).key
  let x := s.sec
  if o = 0x8 then
    b2n x.identityOk + 2 * b2n x.factoryOk + 4 * b2n x.tainted + 8 * b2n x.drbgOk + 16 * b2n x.entropyFail + field 8 4 x.stages.length
  else if o < 0x1000 || 64 ≤ i.1 then 0
  else if i.2 = 0 then field 0 2 k.state + (if k.state = 0 then 0 else 4 * (k.g.toNat % 2)) + field 32 32 k.g.toNat
  else if i.2 = 0x8 then field 0 32 k.sweepLeft
  else if i.2 = 0x18 then field 0 6 k.imageKeys.length + field 8 5 k.ownerKeys.length + field 16 1 (b2n k.ephemeral.isSome)
  else if i.2 = 0x20 then b2n ((s.fold i.1).status == 3) + field 32 32 k.scrubLeft
  else 0

/-- BIST (16 Table 16-9). -/
def bistRead (s : State) (o : Nat) : Nat :=
  let b := s.boot
  if o = 0x8 then field 0 4 b.status + field 4 3 b.cause + field 7 1 (b2n b.lbistTaint) + field 8 6 b.strap + field 16 32 b.warmCount.toNat
  else if o = 0x10 then b.fencePens.toNat
  else if o = 0x18 then field 0 18 b.fencePorts + field 18 8 b.fenceStacks + field 26 2 b.fenceLink + field 32 16 b.fenceFlash
  else if o = 0x20 then field 0 9 b.checksFailed + field 16 3 b.lbist
  else if o = 0x28 then field 0 32 b.durationUs
  else 0

/-- PWR and CLK (19 Table 19-12). -/
def pwrRead (s : State) (o : Nat) : Nat :=
  let b := s.act rPwrLadderSel
  if o = 0x8 then field 0 4 s.power.duty + field 16 16 s.power.pest
  else if o = 0x10 then field 0 10 s.power.coreTarget
  else if o = 0x28 then (if b < 106 then field 0 3 (s.block b).level + 8 * b2n (s.blockFenced b) else 0)
  else 0
def clkRead (s : State) (o : Nat) : Nat := if o = 0x8 then s.timer.toNat else if o = 0x10 then field 0 21 s.power.pllLock else 0

/-- TLM (19 Table 19-13). -/
def tlmRead (s : State) (o : Nat) : Nat :=
  let x := s.power
  let h := s.act rTlmHistSel
  let m := s.act rTlmHwmSel
  let k := s.act rTlmSensorSel
  if o = 0x10 then
    (if h < 224 then (getND x.hist h 0).toNat else if h < 240 then (getND x.tempBins (h - 224) 0).toNat
     else if h < 304 then ofSigned 64 (x.tempLast.getD (h - 240) 0) else if h = 304 then x.tempLast.length else 0)
  else if o = 0x28 then (if m < 19 then ofSigned 48 (getND x.marks m 0) + (if m = 0 then field 56 8 x.markSensor else 0) else 0)
  else if o = 0x48 then
    ofSigned 16 (if k < 80 then getND x.samples k 0 else if k < 88 then getND x.stackTemps (k - 80) 0 else 0)
  else if o = 0x50 then (getND x.throttle (s.act rTlmThrottleSel) 0).toNat
  else 0

/-- SCR (07 Table 7-7). -/
def scrRead (s : State) (o : Nat) : Nat :=
  let i := slotOf o 0x1000 0x40
  let x := s.fold i.1
  if o < 0x1000 || 64 ≤ i.1 then 0
  else if i.2 = 0x8 then
    field 0 5 (x.active.getD 0) + field 7 1 (b2n x.active.isSome) + field 8 1 (b2n x.streamed) + field 9 1 (b2n x.faulted) +
      field 10 1 (b2n (x.drain.any (fun d => d.kind == 1 || d.kind == 2))) + field 12 4 x.depthUsed + field 16 7 x.pinned
  else if i.2 = 0x10 then sumOn (fun k => if hasN x.images k then 2 ^ k else 0) (List.range 32)
  else 0

/-- INK_PREFIX_USED (08 Table 8-7). -/
def inkRead (s : State) (o : Nat) : Nat :=
  let i := slotOf o 0x2000 0x40
  if 0x2000 ≤ o && i.1 < 64 && i.2 = 0x38 && s.isRoot i.1 then field 0 17 (s.fold i.1).prefix_.length else 0

/-- PEN n (19 Table 19-14, 06 Table 6-11). -/
def penRead (s : State) (n o : Nat) : Nat :=
  let x := s.pen n
  let bank := if x.fillBank = 0 then x.bank0 else x.bank1
  if o = 0 then
    (match s.penOwner n with
      | some f => field 0 6 f + 64
      | none => 0) + 128 * b2n (s.blockFenced n) + field 8 3 (s.block n).level
  else if o = 0x118 then (getND x.notify (s.act (rPenNotifySel n)) 0).toNat
  else if o = 0x218 then
    field 0 9 (sumOn (fun p : StreamPkt => p.words.length) bank.packets) + field 12 1 x.fillBank + field 16 5 bank.packets.length
  else 0

/-- A register with no row of its own, read out of the state: the block's table at block offset `o`. -/
def blockRead (s : State) (k : Nat) : Nat :=
  let o := k % 65536
  let b := k / 65536
  if 0x1000000 ≤ k then (if k < 0x1400000 then penRead s ((k - 0x1000000) / 65536) o else 0)
  else if b = 0 then sysRead s o else if b = 1 then lnkRead s o else if b = 2 then ringRead s o else if b = 3 then sessRead s o
  else if b = 4 then schRead s o else if b = 6 then tierRead s o else if b = 7 then hbmRead s o else if b = 8 then nfcRead s o
  else if b = 9 then fabRead s o else if b = 10 then (if o = 0x8 then 0x0F01 else 0) else if b = 13 then snapRead s o
  else if b = 14 then secRead s o else if b = 15 then bistRead s o else if b = 16 then pwrRead s o else if b = 17 then clkRead s o
  else if b = 18 then tlmRead s o else if b = 19 then scrRead s o else if b = 20 then inkRead s o else 0

/-! ### Reads -/

/-- The register that the window offset `o` shows: ring registers are those of the ring in RING_SEL (19 R470). -/
def regKey (s : State) (o : Nat) : Nat :=
  if 0x20100 ≤ o && o < 0x20138 then ringKeyBase + s.act rRingSel * 0x40 + (o - 0x20100) else o

/-- COMMIT_STATUS and VIEW of block `b` (19 Table 19-2). -/
def commitRead (s : State) (b o : Nat) : Nat :=
  let c := s.commitOf b
  if o = 0xFE8 then b2n c.view
  else if o = 0xFF8 then field 0 3 c.state + 8 * b2n c.overrun + field 8 8 c.reason + field 16 16 c.offset + field 32 32 c.seq.toNat
  else 0

/-- What the register at window offset `o` holds, for a read that changes nothing (19 R469, R471). -/
def regRead (s : State) (o : Nat) : Nat :=
  if o % 8 != 0 || 0x2000000 ≤ o then 0
  else if o < 0x150000 && hasCommit (o / 65536) && (o % 65536 == 0xFE8 || o % 65536 == 0xFF0 || o % 65536 == 0xFF8) then commitRead s (o / 65536) (o % 65536)
  else
    let k := regKey s o
    match regRow k with
    | none => blockRead s o
    | some r =>
      if r.kind = .sh then (if (s.commitOf (blockOf k)).view then s.act k else s.shadowOf k)
      else if decide (0x90100 ≤ o) && decide (o < 0x90580) && (o - 0x90100) % 0x40 == 0x30 then fabRead s (o % 65536)
      else s.act k

/-- A read of 8 bytes at window offset `o` from the management path: its value, and the device after it (05 R147, 15 R412). -/
def readWindow (o : Nat) (s : State) : W64 × State :=
  if o = 0x50008 then readTally s
  else if o = 0xE0020 then readChallenge s
  else (BitVec.ofNat 64 (regRead s o), s)

/-! ### Writes -/

/-- A write to a register that holds a value: SH fields change their shadow; counters and status words ignore it. -/
def writeReg (k v : Nat) (s : State) : State :=
  match regRow k with
  | none => s
  | some r =>
    let w := v &&& r.mask
    if r.kind = .sh then
      { s with regs := { s.regs with shadow := if w = s.act k then delN s.regs.shadow k else setN s.regs.shadow k (BitVec.ofNat 64 w) } }
    else if r.kind = .ro then s
    else if k = rNfcService && w = 3 then s
    else s.setAct k w

/-- Registers whose write is a command (access WO): the commit registers and the clears; VIEW. None for another. -/
def writeCommand (o v : Nat) (s : State) : Option State :=
  let b := o / 65536
  let x := o % 65536
  if o < 0x150000 && hasCommit b && x == 0xFE8 then some (s.modCommit b (fun c => { c with view := bitOf v 0 }))
  else if o < 0x150000 && hasCommit b && x == 0xFF0 then
    some (if bitOf v 0 && bitOf v 1 then s else if bitOf v 0 then commitGo b s else if bitOf v 1 then commitDiscard b s else s)
  else if o < 0x150000 && hasCommit b && x == 0xFF8 then some s
  else if o = 0x90030 then some (clearLost (v % 2 ^ 18) s)
  else if decide (0x90100 ≤ o) && decide (o < 0x90580) && (o - 0x90100) % 0x40 == 0x38 then some (clearPortMarks ((o - 0x90100) / 0x40) (BitVec.ofNat 16 v) s)
  else if o = 0x120018 then some (clearHists (v % 128) s)
  else if o = 0x120030 then some (clearMarks (v % 2 ^ 19) s)
  else if o = 0xF0030 then some (bistWarm v s)
  else none

/-- What software reads of a register before a write to one of its halves. -/
def heldBy (s : State) (k : Nat) : Nat := match regRow k with
  | some r => if r.kind = .sh then s.shadowOf k else s.act k
  | none => 0

/-- A write of `size` bytes at window offset `o` from the management path (19 R469): 8 bytes, or 4 to either aligned half, which leaves the other
half as it is. -/
def writeWindow (o size : Nat) (v : W64) (s : State) : State :=
  let at_ := o - o % 8
  let k := regKey s at_
  if 0x2000000 ≤ o then s
  else if size = 8 && o % 8 = 0 then (writeCommand o v.toNat s).getD (writeReg k v.toNat s)
  else if size = 4 && o % 8 = 0 then (writeCommand o (v.toNat % 2 ^ 32) s).getD (writeReg k (heldBy s k / 2 ^ 32 * 2 ^ 32 + v.toNat % 2 ^ 32) s)
  else if size = 4 && o % 8 = 4 then
    (if (writeCommand at_ 0 s).isSome then s else writeReg k (v.toNat % 2 ^ 32 * 2 ^ 32 + heldBy s k % 2 ^ 32) s)
  else s

/-- REGISTER_WRITE (19 R469): from the management path; any other requester's write is ignored and counted (03 R62). -/
def execRegisterWrite (requester offset size : Nat) (value : W64) (s : State) : Host.Outcome State Fault Refusal :=
  .next (serve s fun s => if requester != mgmtPath then s.count rLnkReqRejected 1 else writeWindow offset size value s)

end Sys2Proof.Machine
end

