-- ==== Sys2Proof/Machine/I3cTap.lean ====
section
/-! DEFINITION. The I3C management interface and the TAP (20 R489, R497 to R499). `i3c.out` is what the last transfer or common command code
returned. -/
namespace Sys2Proof.Machine

/-- The interface answers from STATUS 0x1 on (20 R497). -/
def onI3c (s : State) (f : State → State) : State := if s.boot.status = 0 then s else f s

/-- Registers reached over I3C in every STATUS: SYS_ID, the SYS error registers, the BIST block (20 R499). -/
def alwaysOpen (o : Nat) : Bool := o == 0x8 || [0x400, 0x408, 0x410, 0x418].contains o || (decide (0xF0000 ≤ o) && decide (o < 0x100000))

/-- Whether register `o` is available in the present STATUS. -/
def State.i3cOpen (s : State) (o : Nat) : Bool := s.ready || alwaysOpen o

/-- The window offset in bytes 1 to 4 of a frame. -/
def frameOffset (l : List Byte) : Nat := leAt l 1 4

/-- Whether a frame has the length and command of a write (13 bytes, 0x01) or of a read (5 bytes, 0x02), with an offset that is 8-byte aligned
and within 25 bits (20 R498). -/
def frameOk (n cmd : Nat) (l : List Byte) : Bool :=
  l.length == n && leAt l 0 1 == cmd && frameOffset l % 8 == 0 && decide (frameOffset l < 2 ^ 25)

/-- A frame discarded: the next read returns 0x02 once. -/
def badFrame (s : State) : State := { s with i3c := { s.i3c with malformed := true, out := [] } }

/-- I3C_PRIVATE_WRITE: a register write; discarded where the register is not available. -/
def execI3cPrivateWrite (frame : List Byte) (s : State) : Host.Outcome State Fault Refusal :=
  .next (onI3c s fun s =>
    if !frameOk 13 1 frame then badFrame s
    else
      let s := { s with i3c := { s.i3c with result := none, out := [] } }
      if s.i3cOpen (frameOffset frame) then writeWindow (frameOffset frame) 8 (BitVec.ofNat 64 (leAt frame 5 8)) s else s)

/-- A read command: its result is held until the next command. The value under status 0x03 is open (log entry 3). -/
def i3cCommand (frame : List Byte) (s : State) : State :=
  if !frameOk 5 2 frame then badFrame s
  else if s.i3cOpen (frameOffset frame) then
    let r := readWindow (frameOffset frame) s
    { r.2 with i3c := { r.2.i3c with result := some (0x00, r.1) } }
  else
    let r := s.draw
    { r.2 with i3c := { r.2.i3c with result := some (0x03, BitVec.ofNat 64 r.1) } }

/-- The private read of 9 bytes: 0x02 once after a malformed frame, else the held result; what it returns where none is held, and the value
bytes under 0x02, are open (log entry 3). -/
def i3cAnswer (s : State) : State :=
  let r := s.draw
  if s.i3c.malformed then { r.2 with i3c := { r.2.i3c with malformed := false, out := 0x02 :: leBytes 8 r.1 } }
  else match s.i3c.result with
    | some (st, v) => { s with i3c := { s.i3c with out := st :: leBytes 8 v.toNat } }
    | none => { r.2 with i3c := { r.2.i3c with out := leBytes 9 r.1 } }

/-- I3C_PRIVATE_READ: the read command `frame` and the private read that follows; with no frame, a further private read. -/
def execI3cPrivateRead (frame : List Byte) (s : State) : Host.Outcome State Fault Refusal :=
  .next (onI3c s fun s => i3cAnswer (if frame.isEmpty then s else i3cCommand frame s))

/-! ### Dynamic address and common command codes (20 R497) -/

/-- `s` with the bytes the target has returned. -/
def i3cReturns (l : List Byte) (s : State) : State := { s with i3c := { s.i3c with out := l } }

/-- The provisional ID, bits 47:0; without an accepted factory record its low 32 bits are open (log entry 3). -/
def provisionalId (s : State) : Nat × State :=
  match s.boot.factory with
  | some r => (2 ^ 32 + r.serial % 2 ^ 32, s)
  | none => (2 ^ 32 + s.draw.1 % 2 ^ 32, s.draw.2)

/-- I3C_ENTDAA: a target without a dynamic address sends PID, BCR and DCR, most significant byte first, and takes the address. -/
def execI3cEntdaa (address : Nat) (s : State) : Host.Outcome State Fault Refusal :=
  .next (onI3c s fun s =>
    if s.i3c.dynamic.isSome then s
    else
      let r := provisionalId s
      { r.2 with i3c := { r.2.i3c with dynamic := some (address % 128), out := beBytes 6 r.1 ++ [0x00, 0x00] } })

/-- The static address. -/
def State.i3cStatic (s : State) : Nat := 0x30 + bitsOf s.boot.strap 2 1

/-- I3C_SETDASA: the dynamic address given by the static one, while the target has none. -/
def execI3cSetdasa (staticAddress address : Nat) (s : State) : Host.Outcome State Fault Refusal :=
  .next (onI3c s fun s =>
    onlyIf (staticAddress == s.i3cStatic && s.i3c.dynamic.isNone) s { s with i3c := { s.i3c with dynamic := some (address % 128), out := [] } })

/-- I3C_RSTDAA: no dynamic address. -/
def execI3cRstdaa (s : State) : Host.Outcome State Fault Refusal :=
  .next (onI3c s fun s => { s with i3c := { s.i3c with dynamic := none, out := [] } })

/-- I3C_GETPID. -/
def execI3cGetpid (s : State) : Host.Outcome State Fault Refusal :=
  .next (onI3c s fun s => i3cReturns (beBytes 6 (provisionalId s).1) (provisionalId s).2)

/-- I3C_GETBCR. -/
def execI3cGetbcr (s : State) : Host.Outcome State Fault Refusal := .next (onI3c s (i3cReturns [0x00]))

/-- I3C_GETDCR. -/
def execI3cGetdcr (s : State) : Host.Outcome State Fault Refusal := .next (onI3c s (i3cReturns [0x00]))

/-- I3C_GETSTATUS: two bytes whose value the spec leaves to I3C Basic: open (log entry 3). -/
def execI3cGetstatus (s : State) : Host.Outcome State Fault Refusal :=
  .next (onI3c s fun s => i3cReturns (leBytes 2 s.draw.1) s.draw.2)

/-- I3C_ENEC_DISEC: accepted, no effect. -/
def execI3cEnecDisec (_enable : Bool) (s : State) : Host.Outcome State Fault Refusal := .next (onI3c s (i3cReturns []))

/-! ### TAP (20 R489) -/

/-- TAP_INSTRUCTION: the instruction in force; TRST_N low holds Test-Logic-Reset. It works in every STATUS. -/
def execTapInstruction (i : TapOp) (s : State) : Host.Outcome State Fault Refusal := .next { s with tap := i }

/-- What the TAP's selected register is: the IDCODE (also after Test-Logic-Reset), one bypass bit, or the boundary (none of the spec's). -/
def tapIdcode (i : TapOp) : Option W32 := match i with
  | .idcode => some 0x16408FFF
  | _ => none

end Sys2Proof.Machine
end

