-- ==== Sys2Proof/Machine/Dispatch.lean ====
section
/-! DEFINITION. One arm per command: each a direct call of the command's meaning. -/
namespace Sys2Proof.Machine

/-- The effect of a command on everything but the queue of waiting commands. -/
def exec (i : Instr) (s : State) : Host.Outcome State Fault Refusal :=
  match i with
  | .sessionOpen d => Sys2Proof.Machine.execSessionOpen d s
  | .sessionClose d => Sys2Proof.Machine.execSessionClose d s
  | .turnSubmit d => Sys2Proof.Machine.execTurnSubmit d s
  | .toolResult d => Sys2Proof.Machine.execToolResult d s
  | .turnCancel d => Sys2Proof.Machine.execTurnCancel d s
  | .streamResend d => Sys2Proof.Machine.execStreamResend d s
  | .sessionPark d => Sys2Proof.Machine.execSessionPark d s
  | .sessionRevive d => Sys2Proof.Machine.execSessionRevive d s
  | .sessionRecover d => Sys2Proof.Machine.execSessionRecover d s
  | .sessionMoveOffer d => Sys2Proof.Machine.execSessionMoveOffer d s
  | .sessionMoveAccept d => Sys2Proof.Machine.execSessionMoveAccept d s
  | .movePullComplete session => Sys2Proof.Machine.execMovePullComplete session s
  | .leasePoll session => Sys2Proof.Machine.execLeasePoll session s
  | .offerDeadlineExpiry session => Sys2Proof.Machine.execOfferDeadlineExpiry session s
  | .parkAfterCheck => Sys2Proof.Machine.execParkAfterCheck s
  | .parkComplete session => Sys2Proof.Machine.execParkComplete session s
  | .reviveComplete session => Sys2Proof.Machine.execReviveComplete session s
  | .reviveLayerReport session layer => Sys2Proof.Machine.execReviveLayerReport session layer s
  | .modelRegister d => Sys2Proof.Machine.execModelRegister d s
  | .modelActivate d => Sys2Proof.Machine.execModelActivate d s
  | .activateLoadComplete fold status => Sys2Proof.Machine.execActivateLoadComplete fold status s
  | .modelRetire d => Sys2Proof.Machine.execModelRetire d s
  | .recallQuery d => Sys2Proof.Machine.execRecallQuery d s
  | .queryAdmit fold => Sys2Proof.Machine.execQueryAdmit fold s
  | .recallInsert d => Sys2Proof.Machine.execRecallInsert d s
  | .recallDelete d => Sys2Proof.Machine.execRecallDelete d s
  | .recallMerge d => Sys2Proof.Machine.execRecallMerge d s
  | .mergeRoundCommit fold => Sys2Proof.Machine.execMergeRoundCommit fold s
  | .snapshotCut d => Sys2Proof.Machine.execSnapshotCut d s
  | .snapshotDrainSheet fold => Sys2Proof.Machine.execSnapshotDrainSheet fold s
  | .shardComplete fold => Sys2Proof.Machine.execShardComplete fold s
  | .manifestBuild fold reports => Sys2Proof.Machine.execManifestBuild fold reports s
  | .snapshotRestore d others manifests => Sys2Proof.Machine.execSnapshotRestore d others manifests s
  | .droveJoin d => Sys2Proof.Machine.execDroveJoin d s
  | .joinReport fold index status => Sys2Proof.Machine.execJoinReport fold index status s
  | .joinCommit fold => Sys2Proof.Machine.execJoinCommit fold s
  | .joinLimitExpiry fold => Sys2Proof.Machine.execJoinLimitExpiry fold s
  | .droveLeave d => Sys2Proof.Machine.execDroveLeave d s
  | .droveShrink d => Sys2Proof.Machine.execDroveShrink d s
  | .shrinkComplete fold => Sys2Proof.Machine.execShrinkComplete fold s
  | .droveRebalance d => Sys2Proof.Machine.execDroveRebalance d s
  | .keyInstallOwner d => Sys2Proof.Machine.execKeyInstallOwner d s
  | .keyInstallImage d => Sys2Proof.Machine.execKeyInstallImage d s
  | .keyRemove d => Sys2Proof.Machine.execKeyRemove d s
  | .keyRotate d => Sys2Proof.Machine.execKeyRotate d s
  | .keyRecordDurable fold status => Sys2Proof.Machine.execKeyRecordDurable fold status s
  | .keySweepStep fold => Sys2Proof.Machine.execKeySweepStep fold s
  | .sweepPassRetry fold => Sys2Proof.Machine.execSweepPassRetry fold s
  | .attest d => Sys2Proof.Machine.execAttest d s
  | .attestEphemeral d => Sys2Proof.Machine.execAttestEphemeral d s
  | .attestChain d => Sys2Proof.Machine.execAttestChain d s
  | .ephemeralKeyExpiry fold => Sys2Proof.Machine.execEphemeralKeyExpiry fold s
  | .quotaSet d => Sys2Proof.Machine.execQuotaSet d s
  | .gateListLoad d => Sys2Proof.Machine.execGateListLoad d s
  | .gateListCancel d => Sys2Proof.Machine.execGateListCancel d s
  | .gateListTakeover port => Sys2Proof.Machine.execGateListTakeover port s
  | .gateEntryAdvance port => Sys2Proof.Machine.execGateEntryAdvance port s
  | .roleSet d => Sys2Proof.Machine.execRoleSet d s
  | .drainLimitExpiry fold => Sys2Proof.Machine.execDrainLimitExpiry fold s
  | .flashDiscard d => Sys2Proof.Machine.execFlashDiscard d s
  | .healthRead d => Sys2Proof.Machine.execHealthRead d s
  | .healthReadGrownBad d => Sys2Proof.Machine.execHealthReadGrownBad d s
  | .fence d => Sys2Proof.Machine.execFence d s
  | .sqTailDoorbell ring requester offset size value => Sys2Proof.Machine.execSqTailDoorbell ring requester offset size value s
  | .descriptorFetch ring => Sys2Proof.Machine.execDescriptorFetch ring s
  | .eqHeadPoll queue => Sys2Proof.Machine.execEqHeadPoll queue s
  | .streamChunkWrite pen => Sys2Proof.Machine.execStreamChunkWrite pen s
  | .streamHeadReread pen => Sys2Proof.Machine.execStreamHeadReread pen s
  | .streamHeadPoll session => Sys2Proof.Machine.execStreamHeadPoll session s
  | .streamBankSwap pen => Sys2Proof.Machine.execStreamBankSwap pen s
  | .accountingPage fold => Sys2Proof.Machine.execAccountingPage fold s
  | .stepStart fold => Sys2Proof.Machine.execStepStart fold s
  | .emptyStep fold => Sys2Proof.Machine.execEmptyStep fold s
  | .verificationJudgement fold => Sys2Proof.Machine.execVerificationJudgement fold s
  | .verificationCommit fold record => Sys2Proof.Machine.execVerificationCommit fold record s
  | .transcriptWriteAck session status => Sys2Proof.Machine.execTranscriptWriteAck session status s
  | .opLayer pen op => Sys2Proof.Machine.execOpLayer pen op s
  | .opEnd pen op => Sys2Proof.Machine.execOpEnd pen op s
  | .opMma pen op => Sys2Proof.Machine.execOpMma pen op s
  | .vewAdd pen op => Sys2Proof.Machine.execVewAdd pen op s
  | .vewSubtract pen op => Sys2Proof.Machine.execVewSubtract pen op s
  | .vewMultiply pen op => Sys2Proof.Machine.execVewMultiply pen op s
  | .vewMaximum pen op => Sys2Proof.Machine.execVewMaximum pen op s
  | .vewMinimum pen op => Sys2Proof.Machine.execVewMinimum pen op s
  | .vewMultiplyConstant pen op => Sys2Proof.Machine.execVewMultiplyConstant pen op s
  | .vewAddConstant pen op => Sys2Proof.Machine.execVewAddConstant pen op s
  | .vewConvert pen op => Sys2Proof.Machine.execVewConvert pen op s
  | .vewExp pen op => Sys2Proof.Machine.execVewExp pen op s
  | .vewReciprocal pen op => Sys2Proof.Machine.execVewReciprocal pen op s
  | .vewReciprocalSquareRoot pen op => Sys2Proof.Machine.execVewReciprocalSquareRoot pen op s
  | .vredSum pen op => Sys2Proof.Machine.execVredSum pen op s
  | .vredMaximum pen op => Sys2Proof.Machine.execVredMaximum pen op s
  | .vredSumOfSquares pen op => Sys2Proof.Machine.execVredSumOfSquares pen op s
  | .vredArgmax pen op => Sys2Proof.Machine.execVredArgmax pen op s
  | .vredCombine pen op => Sys2Proof.Machine.execVredCombine pen op s
  | .normRmsnorm pen op => Sys2Proof.Machine.execNormRmsnorm pen op s
  | .normLayernorm pen op => Sys2Proof.Machine.execNormLayernorm pen op s
  | .actSilu pen op => Sys2Proof.Machine.execActSilu pen op s
  | .actGeluErf pen op => Sys2Proof.Machine.execActGeluErf pen op s
  | .actGeluTanh pen op => Sys2Proof.Machine.execActGeluTanh pen op s
  | .actSwiglu pen op => Sys2Proof.Machine.execActSwiglu pen op s
  | .ropeHalfPairs pen op => Sys2Proof.Machine.execRopeHalfPairs pen op s
  | .ropeAdjacentPairs pen op => Sys2Proof.Machine.execRopeAdjacentPairs pen op s
  | .opAttn pen op => Sys2Proof.Machine.execOpAttn pen op s
  | .routeTopkSoftmax pen op => Sys2Proof.Machine.execRouteTopkSoftmax pen op s
  | .routeSoftmaxTopk pen op => Sys2Proof.Machine.execRouteSoftmaxTopk pen op s
  | .routeSoftmaxTopkNorm pen op => Sys2Proof.Machine.execRouteSoftmaxTopkNorm pen op s
  | .opRacc pen op => Sys2Proof.Machine.execOpRacc pen op s
  | .opNotify pen op => Sys2Proof.Machine.execOpNotify pen op s
  | .opBar pen op => Sys2Proof.Machine.execOpBar pen op s
  | .barComplete pen => Sys2Proof.Machine.execBarComplete pen s
  | .barTimeout pen => Sys2Proof.Machine.execBarTimeout pen s
  | .opGather pen op => Sys2Proof.Machine.execOpGather pen op s
  | .opCopy pen op => Sys2Proof.Machine.execOpCopy pen op s
  | .opLogits pen op => Sys2Proof.Machine.execOpLogits pen op s
  | .scrollLayerLoad pen => Sys2Proof.Machine.execScrollLayerLoad pen s
  | .migrationStart fold index => Sys2Proof.Machine.execMigrationStart fold index s
  | .migrationCommit fold index result => Sys2Proof.Machine.execMigrationCommit fold index result s
  | .migrationRelease fold index => Sys2Proof.Machine.execMigrationRelease fold index s
  | .fabPacketReceive port p => Sys2Proof.Machine.execFabPacketReceive port p s
  | .fabRead p => Sys2Proof.Machine.execFabRead p s
  | .fabWrite p => Sys2Proof.Machine.execFabWrite p s
  | .fabAread p => Sys2Proof.Machine.execFabAread p s
  | .fabFadd p => Sys2Proof.Machine.execFabFadd p s
  | .fabCas p => Sys2Proof.Machine.execFabCas p s
  | .fabAcc p => Sys2Proof.Machine.execFabAcc p s
  | .fabNotify p => Sys2Proof.Machine.execFabNotify p s
  | .fabFence p => Sys2Proof.Machine.execFabFence p s
  | .fabResponse p => Sys2Proof.Machine.execFabResponse p s
  | .fabSequenceNack p => Sys2Proof.Machine.execFabSequenceNack p s
  | .fabRetryExpiry tag => Sys2Proof.Machine.execFabRetryExpiry tag s
  | .watchProbe device => Sys2Proof.Machine.execWatchProbe device s
  | .watchSilence device => Sys2Proof.Machine.execWatchSilence device s
  | .egressSelect port => Sys2Proof.Machine.execEgressSelect port s
  | .portTraining port t => Sys2Proof.Machine.execPortTraining port t s
  | .portTrainingRetry port t => Sys2Proof.Machine.execPortTrainingRetry port t s
  | .portFlitNak port again => Sys2Proof.Machine.execPortFlitNak port again s
  | .portDown port => Sys2Proof.Machine.execPortDown port s
  | .linkTraining lanes => Sys2Proof.Machine.execLinkTraining lanes s
  | .linkTrainingRetry lanes => Sys2Proof.Machine.execLinkTrainingRetry lanes s
  | .linkFlitNak again => Sys2Proof.Machine.execLinkFlitNak again s
  | .linkDownLimitExpiry => Sys2Proof.Machine.execLinkDownLimitExpiry s
  | .thermalTrip sensor => Sys2Proof.Machine.execThermalTrip sensor s
  | .watchdogExpiry cpu => Sys2Proof.Machine.execWatchdogExpiry cpu s
  | .pllLockLoss pll => Sys2Proof.Machine.execPllLockLoss pll s
  | .hbmStackFailure stack => Sys2Proof.Machine.execHbmStackFailure stack s
  | .secSelfCheckFailure => Sys2Proof.Machine.execSecSelfCheckFailure s
  | .hbmScrubPass findings => Sys2Proof.Machine.execHbmScrubPass findings s
  | .coldReset b => Sys2Proof.Machine.execColdReset b s
  | .warmReset widthNs => Sys2Proof.Machine.execWarmReset widthNs s
  | .warmResetResume => Sys2Proof.Machine.execWarmResetResume s
  | .selftestReport => Sys2Proof.Machine.execSelftestReport s
  | .scanUnlock token => Sys2Proof.Machine.execScanUnlock token s
  | .scanChallengeRead requester => Sys2Proof.Machine.execScanChallengeRead requester s
  | .drbgReseed => Sys2Proof.Machine.execDrbgReseed s
  | .entropyHealthFail => Sys2Proof.Machine.execEntropyHealthFail s
  | .commitGo block => Sys2Proof.Machine.execCommitGo block s
  | .commitApply block => Sys2Proof.Machine.execCommitApply block s
  | .commitDiscard block => Sys2Proof.Machine.execCommitDiscard block s
  | .ringEnable ring => Sys2Proof.Machine.execRingEnable ring s
  | .ringDisable ring => Sys2Proof.Machine.execRingDisable ring s
  | .ringReset ring => Sys2Proof.Machine.execRingReset ring s
  | .foldForm fold => Sys2Proof.Machine.execFoldForm fold s
  | .foldAddResources fold => Sys2Proof.Machine.execFoldAddResources fold s
  | .foldRemoveWays fold => Sys2Proof.Machine.execFoldRemoveWays fold s
  | .foldRemovePens fold => Sys2Proof.Machine.execFoldRemovePens fold s
  | .foldRelease fold => Sys2Proof.Machine.execFoldRelease fold s
  | .foldReleaseDone fold => Sys2Proof.Machine.execFoldReleaseDone fold s
  | .namespaceForm fold => Sys2Proof.Machine.execNamespaceForm fold s
  | .namespaceFormationDone fold => Sys2Proof.Machine.execNamespaceFormationDone fold s
  | .namespaceRelease fold => Sys2Proof.Machine.execNamespaceRelease fold s
  | .namespaceReleaseDone fold => Sys2Proof.Machine.execNamespaceReleaseDone fold s
  | .namespaceRebuild fold => Sys2Proof.Machine.execNamespaceRebuild fold s
  | .flashWrite fold index => Sys2Proof.Machine.execFlashWrite fold index s
  | .nandProgramComplete fold => Sys2Proof.Machine.execNandProgramComplete fold s
  | .nandProgramFail fold unit => Sys2Proof.Machine.execNandProgramFail fold unit s
  | .nandEraseFail fold superblock unit => Sys2Proof.Machine.execNandEraseFail fold superblock unit s
  | .flashRead fold lpn codewords => Sys2Proof.Machine.execFlashRead fold lpn codewords s
  | .gcVictimCopy fold => Sys2Proof.Machine.execGcVictimCopy fold s
  | .gcCommit fold => Sys2Proof.Machine.execGcCommit fold s
  | .slcFold fold => Sys2Proof.Machine.execSlcFold fold s
  | .foldIdleTimer fold => Sys2Proof.Machine.execFoldIdleTimer fold s
  | .nandTempSample fold celsius => Sys2Proof.Machine.execNandTempSample fold celsius s
  | .ladderL1Entry block => Sys2Proof.Machine.execLadderL1Entry block s
  | .ladderIdleExpiry block => Sys2Proof.Machine.execLadderIdleExpiry block s
  | .ladderWake block => Sys2Proof.Machine.execLadderWake block s
  | .throttleEvaluation pestWatts => Sys2Proof.Machine.execThrottleEvaluation pestWatts s
  | .coreUndervoltage millivolts => Sys2Proof.Machine.execCoreUndervoltage millivolts s
  | .sensorSample junction stackTemps => Sys2Proof.Machine.execSensorSample junction stackTemps s
  | .tempHistorySample => Sys2Proof.Machine.execTempHistorySample s
  | .tallyDataRead requester => Sys2Proof.Machine.execTallyDataRead requester s
  | .bistWarmWrite requester value => Sys2Proof.Machine.execBistWarmWrite requester value s
  | .fabLostClear device => Sys2Proof.Machine.execFabLostClear device s
  | .fabHwmClear port queues => Sys2Proof.Machine.execFabHwmClear port queues s
  | .tlmHistClear hists => Sys2Proof.Machine.execTlmHistClear hists s
  | .tlmHwmClear marks => Sys2Proof.Machine.execTlmHwmClear marks s
  | .registerWrite requester offset size value => Sys2Proof.Machine.execRegisterWrite requester offset size value s
  | .i3cPrivateWrite frame => Sys2Proof.Machine.execI3cPrivateWrite frame s
  | .i3cPrivateRead frame => Sys2Proof.Machine.execI3cPrivateRead frame s
  | .i3cEntdaa address => Sys2Proof.Machine.execI3cEntdaa address s
  | .i3cSetdasa staticAddress address => Sys2Proof.Machine.execI3cSetdasa staticAddress address s
  | .i3cRstdaa => Sys2Proof.Machine.execI3cRstdaa s
  | .i3cGetpid => Sys2Proof.Machine.execI3cGetpid s
  | .i3cGetbcr => Sys2Proof.Machine.execI3cGetbcr s
  | .i3cGetdcr => Sys2Proof.Machine.execI3cGetdcr s
  | .i3cGetstatus => Sys2Proof.Machine.execI3cGetstatus s
  | .i3cEnecDisec enable => Sys2Proof.Machine.execI3cEnecDisec enable s
  | .coldResetAssert widthNs => Sys2Proof.Machine.execColdResetAssert widthNs s
  | .linkDown => Sys2Proof.Machine.execLinkDown s
  | .nandEraseComplete fold superblock => Sys2Proof.Machine.execNandEraseComplete fold superblock s
  | .coreTargetChange millivolts => Sys2Proof.Machine.execCoreTargetChange millivolts s
  | .tapInstruction op => Sys2Proof.Machine.execTapInstruction op s

end Sys2Proof.Machine
end

