-- ==== Sys2Proof/Machine/Step.lean ====
section
/-! DEFINITION. One step: the command at the front of the queue, or a tick of the local timer. -/
namespace Sys2Proof.Machine

/-- A microsecond of the local timer (00 R4), which is what passes while no command waits (log entry 1). It runs from the cold
reset on. -/
def State.tick (s : State) : State := if s.boot.status = 0 then s else { s with timer := s.timer + 1 }

/-- The command at the front of the queue taken and performed on the state with the queue's rest; with an empty queue, a tick. -/
def step (s : State) : Host.Outcome State Fault Refusal :=
  match s.pending with
  | [] => .next s.tick
  | c :: rest => exec c { s with pending := rest }

/-- `s` with the command that word `w` spells put at the front of the queue; `s` where it spells none. -/
def State.withFetchWord (s : State) (nbits w : Nat) : State :=
  match decodeTableWord nbits w with
  | some c => { s with pending := c :: s.pending }
  | none => s

end Sys2Proof.Machine
end

