-- ==== Sys2Proof/Laws/State.lean ====
section
/-! SUPPORT. What each update of the state leaves as it was: one lemma per field and update, all true by computation, so that no later proof
unfolds a record update. -/
namespace Sys2Proof.Machine

/-! ### setFold -/
@[simp] theorem State.setFold_pending (s : State) (f : Nat) (x : Fold) : (s.setFold f x).pending = s.pending := rfl
@[simp] theorem State.setFold_freeCount (s : State) (f : Nat) (x : Fold) : (s.setFold f x).freeCount = s.freeCount := rfl
@[simp] theorem State.setFold_timer (s : State) (f : Nat) (x : Fold) : (s.setFold f x).timer = s.timer := rfl
@[simp] theorem State.setFold_regs (s : State) (f : Nat) (x : Fold) : (s.setFold f x).regs = s.regs := rfl
@[simp] theorem State.setFold_mem (s : State) (f : Nat) (x : Fold) : (s.setFold f x).mem = s.mem := rfl
@[simp] theorem State.setFold_hostMem (s : State) (f : Nat) (x : Fold) : (s.setFold f x).hostMem = s.hostMem := rfl
@[simp] theorem State.setFold_poison (s : State) (f : Nat) (x : Fold) : (s.setFold f x).poison = s.poison := rfl
@[simp] theorem State.setFold_link (s : State) (f : Nat) (x : Fold) : (s.setFold f x).link = s.link := rfl
@[simp] theorem State.setFold_rings (s : State) (f : Nat) (x : Fold) : (s.setFold f x).rings = s.rings := rfl
@[simp] theorem State.setFold_eqs (s : State) (f : Nat) (x : Fold) : (s.setFold f x).eqs = s.eqs := rfl
@[simp] theorem State.setFold_undelivered (s : State) (f : Nat) (x : Fold) : (s.setFold f x).undelivered = s.undelivered := rfl
@[simp] theorem State.setFold_readData (s : State) (f : Nat) (x : Fold) : (s.setFold f x).readData = s.readData := rfl
@[simp] theorem State.setFold_sessions (s : State) (f : Nat) (x : Fold) : (s.setFold f x).sessions = s.sessions := rfl
@[simp] theorem State.setFold_pens (s : State) (f : Nat) (x : Fold) : (s.setFold f x).pens = s.pens := rfl
@[simp] theorem State.setFold_tally (s : State) (f : Nat) (x : Fold) : (s.setFold f x).tally = s.tally := rfl
@[simp] theorem State.setFold_fab (s : State) (f : Nat) (x : Fold) : (s.setFold f x).fab = s.fab := rfl
@[simp] theorem State.setFold_sec (s : State) (f : Nat) (x : Fold) : (s.setFold f x).sec = s.sec := rfl
@[simp] theorem State.setFold_boot (s : State) (f : Nat) (x : Fold) : (s.setFold f x).boot = s.boot := rfl
@[simp] theorem State.setFold_power (s : State) (f : Nat) (x : Fold) : (s.setFold f x).power = s.power := rfl
@[simp] theorem State.setFold_errors (s : State) (f : Nat) (x : Fold) : (s.setFold f x).errors = s.errors := rfl
@[simp] theorem State.setFold_dropped (s : State) (f : Nat) (x : Fold) : (s.setFold f x).dropped = s.dropped := rfl
@[simp] theorem State.setFold_i3c (s : State) (f : Nat) (x : Fold) : (s.setFold f x).i3c = s.i3c := rfl
@[simp] theorem State.setFold_tap (s : State) (f : Nat) (x : Fold) : (s.setFold f x).tap = s.tap := rfl

/-! ### modFold -/
@[simp] theorem State.modFold_pending (s : State) (f : Nat) (g : Fold → Fold) : (s.modFold f g).pending = s.pending := rfl
@[simp] theorem State.modFold_freeCount (s : State) (f : Nat) (g : Fold → Fold) : (s.modFold f g).freeCount = s.freeCount := rfl
@[simp] theorem State.modFold_timer (s : State) (f : Nat) (g : Fold → Fold) : (s.modFold f g).timer = s.timer := rfl
@[simp] theorem State.modFold_regs (s : State) (f : Nat) (g : Fold → Fold) : (s.modFold f g).regs = s.regs := rfl
@[simp] theorem State.modFold_mem (s : State) (f : Nat) (g : Fold → Fold) : (s.modFold f g).mem = s.mem := rfl
@[simp] theorem State.modFold_hostMem (s : State) (f : Nat) (g : Fold → Fold) : (s.modFold f g).hostMem = s.hostMem := rfl
@[simp] theorem State.modFold_poison (s : State) (f : Nat) (g : Fold → Fold) : (s.modFold f g).poison = s.poison := rfl
@[simp] theorem State.modFold_link (s : State) (f : Nat) (g : Fold → Fold) : (s.modFold f g).link = s.link := rfl
@[simp] theorem State.modFold_rings (s : State) (f : Nat) (g : Fold → Fold) : (s.modFold f g).rings = s.rings := rfl
@[simp] theorem State.modFold_eqs (s : State) (f : Nat) (g : Fold → Fold) : (s.modFold f g).eqs = s.eqs := rfl
@[simp] theorem State.modFold_undelivered (s : State) (f : Nat) (g : Fold → Fold) : (s.modFold f g).undelivered = s.undelivered := rfl
@[simp] theorem State.modFold_readData (s : State) (f : Nat) (g : Fold → Fold) : (s.modFold f g).readData = s.readData := rfl
@[simp] theorem State.modFold_sessions (s : State) (f : Nat) (g : Fold → Fold) : (s.modFold f g).sessions = s.sessions := rfl
@[simp] theorem State.modFold_pens (s : State) (f : Nat) (g : Fold → Fold) : (s.modFold f g).pens = s.pens := rfl
@[simp] theorem State.modFold_tally (s : State) (f : Nat) (g : Fold → Fold) : (s.modFold f g).tally = s.tally := rfl
@[simp] theorem State.modFold_fab (s : State) (f : Nat) (g : Fold → Fold) : (s.modFold f g).fab = s.fab := rfl
@[simp] theorem State.modFold_sec (s : State) (f : Nat) (g : Fold → Fold) : (s.modFold f g).sec = s.sec := rfl
@[simp] theorem State.modFold_boot (s : State) (f : Nat) (g : Fold → Fold) : (s.modFold f g).boot = s.boot := rfl
@[simp] theorem State.modFold_power (s : State) (f : Nat) (g : Fold → Fold) : (s.modFold f g).power = s.power := rfl
@[simp] theorem State.modFold_errors (s : State) (f : Nat) (g : Fold → Fold) : (s.modFold f g).errors = s.errors := rfl
@[simp] theorem State.modFold_dropped (s : State) (f : Nat) (g : Fold → Fold) : (s.modFold f g).dropped = s.dropped := rfl
@[simp] theorem State.modFold_i3c (s : State) (f : Nat) (g : Fold → Fold) : (s.modFold f g).i3c = s.i3c := rfl
@[simp] theorem State.modFold_tap (s : State) (f : Nat) (g : Fold → Fold) : (s.modFold f g).tap = s.tap := rfl

/-! ### modNs -/
@[simp] theorem State.modNs_pending (s : State) (f : Nat) (g : Namespace → Namespace) : (s.modNs f g).pending = s.pending := rfl
@[simp] theorem State.modNs_freeCount (s : State) (f : Nat) (g : Namespace → Namespace) : (s.modNs f g).freeCount = s.freeCount := rfl
@[simp] theorem State.modNs_timer (s : State) (f : Nat) (g : Namespace → Namespace) : (s.modNs f g).timer = s.timer := rfl
@[simp] theorem State.modNs_regs (s : State) (f : Nat) (g : Namespace → Namespace) : (s.modNs f g).regs = s.regs := rfl
@[simp] theorem State.modNs_mem (s : State) (f : Nat) (g : Namespace → Namespace) : (s.modNs f g).mem = s.mem := rfl
@[simp] theorem State.modNs_hostMem (s : State) (f : Nat) (g : Namespace → Namespace) : (s.modNs f g).hostMem = s.hostMem := rfl
@[simp] theorem State.modNs_poison (s : State) (f : Nat) (g : Namespace → Namespace) : (s.modNs f g).poison = s.poison := rfl
@[simp] theorem State.modNs_link (s : State) (f : Nat) (g : Namespace → Namespace) : (s.modNs f g).link = s.link := rfl
@[simp] theorem State.modNs_rings (s : State) (f : Nat) (g : Namespace → Namespace) : (s.modNs f g).rings = s.rings := rfl
@[simp] theorem State.modNs_eqs (s : State) (f : Nat) (g : Namespace → Namespace) : (s.modNs f g).eqs = s.eqs := rfl
@[simp] theorem State.modNs_undelivered (s : State) (f : Nat) (g : Namespace → Namespace) : (s.modNs f g).undelivered = s.undelivered := rfl
@[simp] theorem State.modNs_readData (s : State) (f : Nat) (g : Namespace → Namespace) : (s.modNs f g).readData = s.readData := rfl
@[simp] theorem State.modNs_sessions (s : State) (f : Nat) (g : Namespace → Namespace) : (s.modNs f g).sessions = s.sessions := rfl
@[simp] theorem State.modNs_pens (s : State) (f : Nat) (g : Namespace → Namespace) : (s.modNs f g).pens = s.pens := rfl
@[simp] theorem State.modNs_tally (s : State) (f : Nat) (g : Namespace → Namespace) : (s.modNs f g).tally = s.tally := rfl
@[simp] theorem State.modNs_fab (s : State) (f : Nat) (g : Namespace → Namespace) : (s.modNs f g).fab = s.fab := rfl
@[simp] theorem State.modNs_sec (s : State) (f : Nat) (g : Namespace → Namespace) : (s.modNs f g).sec = s.sec := rfl
@[simp] theorem State.modNs_boot (s : State) (f : Nat) (g : Namespace → Namespace) : (s.modNs f g).boot = s.boot := rfl
@[simp] theorem State.modNs_power (s : State) (f : Nat) (g : Namespace → Namespace) : (s.modNs f g).power = s.power := rfl
@[simp] theorem State.modNs_errors (s : State) (f : Nat) (g : Namespace → Namespace) : (s.modNs f g).errors = s.errors := rfl
@[simp] theorem State.modNs_dropped (s : State) (f : Nat) (g : Namespace → Namespace) : (s.modNs f g).dropped = s.dropped := rfl
@[simp] theorem State.modNs_i3c (s : State) (f : Nat) (g : Namespace → Namespace) : (s.modNs f g).i3c = s.i3c := rfl
@[simp] theorem State.modNs_tap (s : State) (f : Nat) (g : Namespace → Namespace) : (s.modNs f g).tap = s.tap := rfl

/-! ### modSnap -/
@[simp] theorem State.modSnap_pending (s : State) (f : Nat) (g : Snap → Snap) : (s.modSnap f g).pending = s.pending := rfl
@[simp] theorem State.modSnap_freeCount (s : State) (f : Nat) (g : Snap → Snap) : (s.modSnap f g).freeCount = s.freeCount := rfl
@[simp] theorem State.modSnap_timer (s : State) (f : Nat) (g : Snap → Snap) : (s.modSnap f g).timer = s.timer := rfl
@[simp] theorem State.modSnap_regs (s : State) (f : Nat) (g : Snap → Snap) : (s.modSnap f g).regs = s.regs := rfl
@[simp] theorem State.modSnap_mem (s : State) (f : Nat) (g : Snap → Snap) : (s.modSnap f g).mem = s.mem := rfl
@[simp] theorem State.modSnap_hostMem (s : State) (f : Nat) (g : Snap → Snap) : (s.modSnap f g).hostMem = s.hostMem := rfl
@[simp] theorem State.modSnap_poison (s : State) (f : Nat) (g : Snap → Snap) : (s.modSnap f g).poison = s.poison := rfl
@[simp] theorem State.modSnap_link (s : State) (f : Nat) (g : Snap → Snap) : (s.modSnap f g).link = s.link := rfl
@[simp] theorem State.modSnap_rings (s : State) (f : Nat) (g : Snap → Snap) : (s.modSnap f g).rings = s.rings := rfl
@[simp] theorem State.modSnap_eqs (s : State) (f : Nat) (g : Snap → Snap) : (s.modSnap f g).eqs = s.eqs := rfl
@[simp] theorem State.modSnap_undelivered (s : State) (f : Nat) (g : Snap → Snap) : (s.modSnap f g).undelivered = s.undelivered := rfl
@[simp] theorem State.modSnap_readData (s : State) (f : Nat) (g : Snap → Snap) : (s.modSnap f g).readData = s.readData := rfl
@[simp] theorem State.modSnap_sessions (s : State) (f : Nat) (g : Snap → Snap) : (s.modSnap f g).sessions = s.sessions := rfl
@[simp] theorem State.modSnap_pens (s : State) (f : Nat) (g : Snap → Snap) : (s.modSnap f g).pens = s.pens := rfl
@[simp] theorem State.modSnap_tally (s : State) (f : Nat) (g : Snap → Snap) : (s.modSnap f g).tally = s.tally := rfl
@[simp] theorem State.modSnap_fab (s : State) (f : Nat) (g : Snap → Snap) : (s.modSnap f g).fab = s.fab := rfl
@[simp] theorem State.modSnap_sec (s : State) (f : Nat) (g : Snap → Snap) : (s.modSnap f g).sec = s.sec := rfl
@[simp] theorem State.modSnap_boot (s : State) (f : Nat) (g : Snap → Snap) : (s.modSnap f g).boot = s.boot := rfl
@[simp] theorem State.modSnap_power (s : State) (f : Nat) (g : Snap → Snap) : (s.modSnap f g).power = s.power := rfl
@[simp] theorem State.modSnap_errors (s : State) (f : Nat) (g : Snap → Snap) : (s.modSnap f g).errors = s.errors := rfl
@[simp] theorem State.modSnap_dropped (s : State) (f : Nat) (g : Snap → Snap) : (s.modSnap f g).dropped = s.dropped := rfl
@[simp] theorem State.modSnap_i3c (s : State) (f : Nat) (g : Snap → Snap) : (s.modSnap f g).i3c = s.i3c := rfl
@[simp] theorem State.modSnap_tap (s : State) (f : Nat) (g : Snap → Snap) : (s.modSnap f g).tap = s.tap := rfl

/-! ### modKey -/
@[simp] theorem State.modKey_pending (s : State) (f : Nat) (g : FoldKey → FoldKey) : (s.modKey f g).pending = s.pending := rfl
@[simp] theorem State.modKey_freeCount (s : State) (f : Nat) (g : FoldKey → FoldKey) : (s.modKey f g).freeCount = s.freeCount := rfl
@[simp] theorem State.modKey_timer (s : State) (f : Nat) (g : FoldKey → FoldKey) : (s.modKey f g).timer = s.timer := rfl
@[simp] theorem State.modKey_regs (s : State) (f : Nat) (g : FoldKey → FoldKey) : (s.modKey f g).regs = s.regs := rfl
@[simp] theorem State.modKey_mem (s : State) (f : Nat) (g : FoldKey → FoldKey) : (s.modKey f g).mem = s.mem := rfl
@[simp] theorem State.modKey_hostMem (s : State) (f : Nat) (g : FoldKey → FoldKey) : (s.modKey f g).hostMem = s.hostMem := rfl
@[simp] theorem State.modKey_poison (s : State) (f : Nat) (g : FoldKey → FoldKey) : (s.modKey f g).poison = s.poison := rfl
@[simp] theorem State.modKey_link (s : State) (f : Nat) (g : FoldKey → FoldKey) : (s.modKey f g).link = s.link := rfl
@[simp] theorem State.modKey_rings (s : State) (f : Nat) (g : FoldKey → FoldKey) : (s.modKey f g).rings = s.rings := rfl
@[simp] theorem State.modKey_eqs (s : State) (f : Nat) (g : FoldKey → FoldKey) : (s.modKey f g).eqs = s.eqs := rfl
@[simp] theorem State.modKey_undelivered (s : State) (f : Nat) (g : FoldKey → FoldKey) : (s.modKey f g).undelivered = s.undelivered := rfl
@[simp] theorem State.modKey_readData (s : State) (f : Nat) (g : FoldKey → FoldKey) : (s.modKey f g).readData = s.readData := rfl
@[simp] theorem State.modKey_sessions (s : State) (f : Nat) (g : FoldKey → FoldKey) : (s.modKey f g).sessions = s.sessions := rfl
@[simp] theorem State.modKey_pens (s : State) (f : Nat) (g : FoldKey → FoldKey) : (s.modKey f g).pens = s.pens := rfl
@[simp] theorem State.modKey_tally (s : State) (f : Nat) (g : FoldKey → FoldKey) : (s.modKey f g).tally = s.tally := rfl
@[simp] theorem State.modKey_fab (s : State) (f : Nat) (g : FoldKey → FoldKey) : (s.modKey f g).fab = s.fab := rfl
@[simp] theorem State.modKey_sec (s : State) (f : Nat) (g : FoldKey → FoldKey) : (s.modKey f g).sec = s.sec := rfl
@[simp] theorem State.modKey_boot (s : State) (f : Nat) (g : FoldKey → FoldKey) : (s.modKey f g).boot = s.boot := rfl
@[simp] theorem State.modKey_power (s : State) (f : Nat) (g : FoldKey → FoldKey) : (s.modKey f g).power = s.power := rfl
@[simp] theorem State.modKey_errors (s : State) (f : Nat) (g : FoldKey → FoldKey) : (s.modKey f g).errors = s.errors := rfl
@[simp] theorem State.modKey_dropped (s : State) (f : Nat) (g : FoldKey → FoldKey) : (s.modKey f g).dropped = s.dropped := rfl
@[simp] theorem State.modKey_i3c (s : State) (f : Nat) (g : FoldKey → FoldKey) : (s.modKey f g).i3c = s.i3c := rfl
@[simp] theorem State.modKey_tap (s : State) (f : Nat) (g : FoldKey → FoldKey) : (s.modKey f g).tap = s.tap := rfl

/-! ### modPen -/
@[simp] theorem State.modPen_pending (s : State) (n : Nat) (g : Pen → Pen) : (s.modPen n g).pending = s.pending := rfl
@[simp] theorem State.modPen_freeCount (s : State) (n : Nat) (g : Pen → Pen) : (s.modPen n g).freeCount = s.freeCount := rfl
@[simp] theorem State.modPen_timer (s : State) (n : Nat) (g : Pen → Pen) : (s.modPen n g).timer = s.timer := rfl
@[simp] theorem State.modPen_regs (s : State) (n : Nat) (g : Pen → Pen) : (s.modPen n g).regs = s.regs := rfl
@[simp] theorem State.modPen_mem (s : State) (n : Nat) (g : Pen → Pen) : (s.modPen n g).mem = s.mem := rfl
@[simp] theorem State.modPen_hostMem (s : State) (n : Nat) (g : Pen → Pen) : (s.modPen n g).hostMem = s.hostMem := rfl
@[simp] theorem State.modPen_poison (s : State) (n : Nat) (g : Pen → Pen) : (s.modPen n g).poison = s.poison := rfl
@[simp] theorem State.modPen_link (s : State) (n : Nat) (g : Pen → Pen) : (s.modPen n g).link = s.link := rfl
@[simp] theorem State.modPen_rings (s : State) (n : Nat) (g : Pen → Pen) : (s.modPen n g).rings = s.rings := rfl
@[simp] theorem State.modPen_eqs (s : State) (n : Nat) (g : Pen → Pen) : (s.modPen n g).eqs = s.eqs := rfl
@[simp] theorem State.modPen_undelivered (s : State) (n : Nat) (g : Pen → Pen) : (s.modPen n g).undelivered = s.undelivered := rfl
@[simp] theorem State.modPen_readData (s : State) (n : Nat) (g : Pen → Pen) : (s.modPen n g).readData = s.readData := rfl
@[simp] theorem State.modPen_sessions (s : State) (n : Nat) (g : Pen → Pen) : (s.modPen n g).sessions = s.sessions := rfl
@[simp] theorem State.modPen_folds (s : State) (n : Nat) (g : Pen → Pen) : (s.modPen n g).folds = s.folds := rfl
@[simp] theorem State.modPen_tally (s : State) (n : Nat) (g : Pen → Pen) : (s.modPen n g).tally = s.tally := rfl
@[simp] theorem State.modPen_fab (s : State) (n : Nat) (g : Pen → Pen) : (s.modPen n g).fab = s.fab := rfl
@[simp] theorem State.modPen_sec (s : State) (n : Nat) (g : Pen → Pen) : (s.modPen n g).sec = s.sec := rfl
@[simp] theorem State.modPen_boot (s : State) (n : Nat) (g : Pen → Pen) : (s.modPen n g).boot = s.boot := rfl
@[simp] theorem State.modPen_power (s : State) (n : Nat) (g : Pen → Pen) : (s.modPen n g).power = s.power := rfl
@[simp] theorem State.modPen_errors (s : State) (n : Nat) (g : Pen → Pen) : (s.modPen n g).errors = s.errors := rfl
@[simp] theorem State.modPen_dropped (s : State) (n : Nat) (g : Pen → Pen) : (s.modPen n g).dropped = s.dropped := rfl
@[simp] theorem State.modPen_i3c (s : State) (n : Nat) (g : Pen → Pen) : (s.modPen n g).i3c = s.i3c := rfl
@[simp] theorem State.modPen_tap (s : State) (n : Nat) (g : Pen → Pen) : (s.modPen n g).tap = s.tap := rfl

/-! ### modRing -/
@[simp] theorem State.modRing_pending (s : State) (r : Nat) (g : Ring → Ring) : (s.modRing r g).pending = s.pending := rfl
@[simp] theorem State.modRing_freeCount (s : State) (r : Nat) (g : Ring → Ring) : (s.modRing r g).freeCount = s.freeCount := rfl
@[simp] theorem State.modRing_timer (s : State) (r : Nat) (g : Ring → Ring) : (s.modRing r g).timer = s.timer := rfl
@[simp] theorem State.modRing_regs (s : State) (r : Nat) (g : Ring → Ring) : (s.modRing r g).regs = s.regs := rfl
@[simp] theorem State.modRing_mem (s : State) (r : Nat) (g : Ring → Ring) : (s.modRing r g).mem = s.mem := rfl
@[simp] theorem State.modRing_hostMem (s : State) (r : Nat) (g : Ring → Ring) : (s.modRing r g).hostMem = s.hostMem := rfl
@[simp] theorem State.modRing_poison (s : State) (r : Nat) (g : Ring → Ring) : (s.modRing r g).poison = s.poison := rfl
@[simp] theorem State.modRing_link (s : State) (r : Nat) (g : Ring → Ring) : (s.modRing r g).link = s.link := rfl
@[simp] theorem State.modRing_eqs (s : State) (r : Nat) (g : Ring → Ring) : (s.modRing r g).eqs = s.eqs := rfl
@[simp] theorem State.modRing_undelivered (s : State) (r : Nat) (g : Ring → Ring) : (s.modRing r g).undelivered = s.undelivered := rfl
@[simp] theorem State.modRing_readData (s : State) (r : Nat) (g : Ring → Ring) : (s.modRing r g).readData = s.readData := rfl
@[simp] theorem State.modRing_sessions (s : State) (r : Nat) (g : Ring → Ring) : (s.modRing r g).sessions = s.sessions := rfl
@[simp] theorem State.modRing_folds (s : State) (r : Nat) (g : Ring → Ring) : (s.modRing r g).folds = s.folds := rfl
@[simp] theorem State.modRing_pens (s : State) (r : Nat) (g : Ring → Ring) : (s.modRing r g).pens = s.pens := rfl
@[simp] theorem State.modRing_tally (s : State) (r : Nat) (g : Ring → Ring) : (s.modRing r g).tally = s.tally := rfl
@[simp] theorem State.modRing_fab (s : State) (r : Nat) (g : Ring → Ring) : (s.modRing r g).fab = s.fab := rfl
@[simp] theorem State.modRing_sec (s : State) (r : Nat) (g : Ring → Ring) : (s.modRing r g).sec = s.sec := rfl
@[simp] theorem State.modRing_boot (s : State) (r : Nat) (g : Ring → Ring) : (s.modRing r g).boot = s.boot := rfl
@[simp] theorem State.modRing_power (s : State) (r : Nat) (g : Ring → Ring) : (s.modRing r g).power = s.power := rfl
@[simp] theorem State.modRing_errors (s : State) (r : Nat) (g : Ring → Ring) : (s.modRing r g).errors = s.errors := rfl
@[simp] theorem State.modRing_dropped (s : State) (r : Nat) (g : Ring → Ring) : (s.modRing r g).dropped = s.dropped := rfl
@[simp] theorem State.modRing_i3c (s : State) (r : Nat) (g : Ring → Ring) : (s.modRing r g).i3c = s.i3c := rfl
@[simp] theorem State.modRing_tap (s : State) (r : Nat) (g : Ring → Ring) : (s.modRing r g).tap = s.tap := rfl

/-! ### setEq -/
@[simp] theorem State.setEq_pending (s : State) (q : Nat) (x : EventQueue) : (s.setEq q x).pending = s.pending := rfl
@[simp] theorem State.setEq_freeCount (s : State) (q : Nat) (x : EventQueue) : (s.setEq q x).freeCount = s.freeCount := rfl
@[simp] theorem State.setEq_timer (s : State) (q : Nat) (x : EventQueue) : (s.setEq q x).timer = s.timer := rfl
@[simp] theorem State.setEq_regs (s : State) (q : Nat) (x : EventQueue) : (s.setEq q x).regs = s.regs := rfl
@[simp] theorem State.setEq_mem (s : State) (q : Nat) (x : EventQueue) : (s.setEq q x).mem = s.mem := rfl
@[simp] theorem State.setEq_hostMem (s : State) (q : Nat) (x : EventQueue) : (s.setEq q x).hostMem = s.hostMem := rfl
@[simp] theorem State.setEq_poison (s : State) (q : Nat) (x : EventQueue) : (s.setEq q x).poison = s.poison := rfl
@[simp] theorem State.setEq_link (s : State) (q : Nat) (x : EventQueue) : (s.setEq q x).link = s.link := rfl
@[simp] theorem State.setEq_rings (s : State) (q : Nat) (x : EventQueue) : (s.setEq q x).rings = s.rings := rfl
@[simp] theorem State.setEq_undelivered (s : State) (q : Nat) (x : EventQueue) : (s.setEq q x).undelivered = s.undelivered := rfl
@[simp] theorem State.setEq_readData (s : State) (q : Nat) (x : EventQueue) : (s.setEq q x).readData = s.readData := rfl
@[simp] theorem State.setEq_sessions (s : State) (q : Nat) (x : EventQueue) : (s.setEq q x).sessions = s.sessions := rfl
@[simp] theorem State.setEq_folds (s : State) (q : Nat) (x : EventQueue) : (s.setEq q x).folds = s.folds := rfl
@[simp] theorem State.setEq_pens (s : State) (q : Nat) (x : EventQueue) : (s.setEq q x).pens = s.pens := rfl
@[simp] theorem State.setEq_tally (s : State) (q : Nat) (x : EventQueue) : (s.setEq q x).tally = s.tally := rfl
@[simp] theorem State.setEq_fab (s : State) (q : Nat) (x : EventQueue) : (s.setEq q x).fab = s.fab := rfl
@[simp] theorem State.setEq_sec (s : State) (q : Nat) (x : EventQueue) : (s.setEq q x).sec = s.sec := rfl
@[simp] theorem State.setEq_boot (s : State) (q : Nat) (x : EventQueue) : (s.setEq q x).boot = s.boot := rfl
@[simp] theorem State.setEq_power (s : State) (q : Nat) (x : EventQueue) : (s.setEq q x).power = s.power := rfl
@[simp] theorem State.setEq_errors (s : State) (q : Nat) (x : EventQueue) : (s.setEq q x).errors = s.errors := rfl
@[simp] theorem State.setEq_dropped (s : State) (q : Nat) (x : EventQueue) : (s.setEq q x).dropped = s.dropped := rfl
@[simp] theorem State.setEq_i3c (s : State) (q : Nat) (x : EventQueue) : (s.setEq q x).i3c = s.i3c := rfl
@[simp] theorem State.setEq_tap (s : State) (q : Nat) (x : EventQueue) : (s.setEq q x).tap = s.tap := rfl

/-! ### setSess -/
@[simp] theorem State.setSess_pending (s : State) (x : W64) (y : Sess) : (s.setSess x y).pending = s.pending := rfl
@[simp] theorem State.setSess_freeCount (s : State) (x : W64) (y : Sess) : (s.setSess x y).freeCount = s.freeCount := rfl
@[simp] theorem State.setSess_timer (s : State) (x : W64) (y : Sess) : (s.setSess x y).timer = s.timer := rfl
@[simp] theorem State.setSess_regs (s : State) (x : W64) (y : Sess) : (s.setSess x y).regs = s.regs := rfl
@[simp] theorem State.setSess_mem (s : State) (x : W64) (y : Sess) : (s.setSess x y).mem = s.mem := rfl
@[simp] theorem State.setSess_hostMem (s : State) (x : W64) (y : Sess) : (s.setSess x y).hostMem = s.hostMem := rfl
@[simp] theorem State.setSess_poison (s : State) (x : W64) (y : Sess) : (s.setSess x y).poison = s.poison := rfl
@[simp] theorem State.setSess_link (s : State) (x : W64) (y : Sess) : (s.setSess x y).link = s.link := rfl
@[simp] theorem State.setSess_rings (s : State) (x : W64) (y : Sess) : (s.setSess x y).rings = s.rings := rfl
@[simp] theorem State.setSess_eqs (s : State) (x : W64) (y : Sess) : (s.setSess x y).eqs = s.eqs := rfl
@[simp] theorem State.setSess_undelivered (s : State) (x : W64) (y : Sess) : (s.setSess x y).undelivered = s.undelivered := rfl
@[simp] theorem State.setSess_readData (s : State) (x : W64) (y : Sess) : (s.setSess x y).readData = s.readData := rfl
@[simp] theorem State.setSess_folds (s : State) (x : W64) (y : Sess) : (s.setSess x y).folds = s.folds := rfl
@[simp] theorem State.setSess_pens (s : State) (x : W64) (y : Sess) : (s.setSess x y).pens = s.pens := rfl
@[simp] theorem State.setSess_tally (s : State) (x : W64) (y : Sess) : (s.setSess x y).tally = s.tally := rfl
@[simp] theorem State.setSess_fab (s : State) (x : W64) (y : Sess) : (s.setSess x y).fab = s.fab := rfl
@[simp] theorem State.setSess_sec (s : State) (x : W64) (y : Sess) : (s.setSess x y).sec = s.sec := rfl
@[simp] theorem State.setSess_boot (s : State) (x : W64) (y : Sess) : (s.setSess x y).boot = s.boot := rfl
@[simp] theorem State.setSess_power (s : State) (x : W64) (y : Sess) : (s.setSess x y).power = s.power := rfl
@[simp] theorem State.setSess_errors (s : State) (x : W64) (y : Sess) : (s.setSess x y).errors = s.errors := rfl
@[simp] theorem State.setSess_dropped (s : State) (x : W64) (y : Sess) : (s.setSess x y).dropped = s.dropped := rfl
@[simp] theorem State.setSess_i3c (s : State) (x : W64) (y : Sess) : (s.setSess x y).i3c = s.i3c := rfl
@[simp] theorem State.setSess_tap (s : State) (x : W64) (y : Sess) : (s.setSess x y).tap = s.tap := rfl

/-! ### modSess -/
@[simp] theorem State.modSess_pending (s : State) (x : W64) (g : Sess → Sess) : (s.modSess x g).pending = s.pending := rfl
@[simp] theorem State.modSess_freeCount (s : State) (x : W64) (g : Sess → Sess) : (s.modSess x g).freeCount = s.freeCount := rfl
@[simp] theorem State.modSess_timer (s : State) (x : W64) (g : Sess → Sess) : (s.modSess x g).timer = s.timer := rfl
@[simp] theorem State.modSess_regs (s : State) (x : W64) (g : Sess → Sess) : (s.modSess x g).regs = s.regs := rfl
@[simp] theorem State.modSess_mem (s : State) (x : W64) (g : Sess → Sess) : (s.modSess x g).mem = s.mem := rfl
@[simp] theorem State.modSess_hostMem (s : State) (x : W64) (g : Sess → Sess) : (s.modSess x g).hostMem = s.hostMem := rfl
@[simp] theorem State.modSess_poison (s : State) (x : W64) (g : Sess → Sess) : (s.modSess x g).poison = s.poison := rfl
@[simp] theorem State.modSess_link (s : State) (x : W64) (g : Sess → Sess) : (s.modSess x g).link = s.link := rfl
@[simp] theorem State.modSess_rings (s : State) (x : W64) (g : Sess → Sess) : (s.modSess x g).rings = s.rings := rfl
@[simp] theorem State.modSess_eqs (s : State) (x : W64) (g : Sess → Sess) : (s.modSess x g).eqs = s.eqs := rfl
@[simp] theorem State.modSess_undelivered (s : State) (x : W64) (g : Sess → Sess) : (s.modSess x g).undelivered = s.undelivered := rfl
@[simp] theorem State.modSess_readData (s : State) (x : W64) (g : Sess → Sess) : (s.modSess x g).readData = s.readData := rfl
@[simp] theorem State.modSess_folds (s : State) (x : W64) (g : Sess → Sess) : (s.modSess x g).folds = s.folds := rfl
@[simp] theorem State.modSess_pens (s : State) (x : W64) (g : Sess → Sess) : (s.modSess x g).pens = s.pens := rfl
@[simp] theorem State.modSess_tally (s : State) (x : W64) (g : Sess → Sess) : (s.modSess x g).tally = s.tally := rfl
@[simp] theorem State.modSess_fab (s : State) (x : W64) (g : Sess → Sess) : (s.modSess x g).fab = s.fab := rfl
@[simp] theorem State.modSess_sec (s : State) (x : W64) (g : Sess → Sess) : (s.modSess x g).sec = s.sec := rfl
@[simp] theorem State.modSess_boot (s : State) (x : W64) (g : Sess → Sess) : (s.modSess x g).boot = s.boot := rfl
@[simp] theorem State.modSess_power (s : State) (x : W64) (g : Sess → Sess) : (s.modSess x g).power = s.power := rfl
@[simp] theorem State.modSess_errors (s : State) (x : W64) (g : Sess → Sess) : (s.modSess x g).errors = s.errors := rfl
@[simp] theorem State.modSess_dropped (s : State) (x : W64) (g : Sess → Sess) : (s.modSess x g).dropped = s.dropped := rfl
@[simp] theorem State.modSess_i3c (s : State) (x : W64) (g : Sess → Sess) : (s.modSess x g).i3c = s.i3c := rfl
@[simp] theorem State.modSess_tap (s : State) (x : W64) (g : Sess → Sess) : (s.modSess x g).tap = s.tap := rfl

/-! ### modRec -/
@[simp] theorem State.modRec_pending (s : State) (x : W64) (g : Record → Record) : (s.modRec x g).pending = s.pending := rfl
@[simp] theorem State.modRec_freeCount (s : State) (x : W64) (g : Record → Record) : (s.modRec x g).freeCount = s.freeCount := rfl
@[simp] theorem State.modRec_timer (s : State) (x : W64) (g : Record → Record) : (s.modRec x g).timer = s.timer := rfl
@[simp] theorem State.modRec_regs (s : State) (x : W64) (g : Record → Record) : (s.modRec x g).regs = s.regs := rfl
@[simp] theorem State.modRec_mem (s : State) (x : W64) (g : Record → Record) : (s.modRec x g).mem = s.mem := rfl
@[simp] theorem State.modRec_hostMem (s : State) (x : W64) (g : Record → Record) : (s.modRec x g).hostMem = s.hostMem := rfl
@[simp] theorem State.modRec_poison (s : State) (x : W64) (g : Record → Record) : (s.modRec x g).poison = s.poison := rfl
@[simp] theorem State.modRec_link (s : State) (x : W64) (g : Record → Record) : (s.modRec x g).link = s.link := rfl
@[simp] theorem State.modRec_rings (s : State) (x : W64) (g : Record → Record) : (s.modRec x g).rings = s.rings := rfl
@[simp] theorem State.modRec_eqs (s : State) (x : W64) (g : Record → Record) : (s.modRec x g).eqs = s.eqs := rfl
@[simp] theorem State.modRec_undelivered (s : State) (x : W64) (g : Record → Record) : (s.modRec x g).undelivered = s.undelivered := rfl
@[simp] theorem State.modRec_readData (s : State) (x : W64) (g : Record → Record) : (s.modRec x g).readData = s.readData := rfl
@[simp] theorem State.modRec_folds (s : State) (x : W64) (g : Record → Record) : (s.modRec x g).folds = s.folds := rfl
@[simp] theorem State.modRec_pens (s : State) (x : W64) (g : Record → Record) : (s.modRec x g).pens = s.pens := rfl
@[simp] theorem State.modRec_tally (s : State) (x : W64) (g : Record → Record) : (s.modRec x g).tally = s.tally := rfl
@[simp] theorem State.modRec_fab (s : State) (x : W64) (g : Record → Record) : (s.modRec x g).fab = s.fab := rfl
@[simp] theorem State.modRec_sec (s : State) (x : W64) (g : Record → Record) : (s.modRec x g).sec = s.sec := rfl
@[simp] theorem State.modRec_boot (s : State) (x : W64) (g : Record → Record) : (s.modRec x g).boot = s.boot := rfl
@[simp] theorem State.modRec_power (s : State) (x : W64) (g : Record → Record) : (s.modRec x g).power = s.power := rfl
@[simp] theorem State.modRec_errors (s : State) (x : W64) (g : Record → Record) : (s.modRec x g).errors = s.errors := rfl
@[simp] theorem State.modRec_dropped (s : State) (x : W64) (g : Record → Record) : (s.modRec x g).dropped = s.dropped := rfl
@[simp] theorem State.modRec_i3c (s : State) (x : W64) (g : Record → Record) : (s.modRec x g).i3c = s.i3c := rfl
@[simp] theorem State.modRec_tap (s : State) (x : W64) (g : Record → Record) : (s.modRec x g).tap = s.tap := rfl

/-! ### modPort -/
@[simp] theorem State.modPort_pending (s : State) (p : Nat) (g : Port → Port) : (s.modPort p g).pending = s.pending := rfl
@[simp] theorem State.modPort_freeCount (s : State) (p : Nat) (g : Port → Port) : (s.modPort p g).freeCount = s.freeCount := rfl
@[simp] theorem State.modPort_timer (s : State) (p : Nat) (g : Port → Port) : (s.modPort p g).timer = s.timer := rfl
@[simp] theorem State.modPort_regs (s : State) (p : Nat) (g : Port → Port) : (s.modPort p g).regs = s.regs := rfl
@[simp] theorem State.modPort_mem (s : State) (p : Nat) (g : Port → Port) : (s.modPort p g).mem = s.mem := rfl
@[simp] theorem State.modPort_hostMem (s : State) (p : Nat) (g : Port → Port) : (s.modPort p g).hostMem = s.hostMem := rfl
@[simp] theorem State.modPort_poison (s : State) (p : Nat) (g : Port → Port) : (s.modPort p g).poison = s.poison := rfl
@[simp] theorem State.modPort_link (s : State) (p : Nat) (g : Port → Port) : (s.modPort p g).link = s.link := rfl
@[simp] theorem State.modPort_rings (s : State) (p : Nat) (g : Port → Port) : (s.modPort p g).rings = s.rings := rfl
@[simp] theorem State.modPort_eqs (s : State) (p : Nat) (g : Port → Port) : (s.modPort p g).eqs = s.eqs := rfl
@[simp] theorem State.modPort_undelivered (s : State) (p : Nat) (g : Port → Port) : (s.modPort p g).undelivered = s.undelivered := rfl
@[simp] theorem State.modPort_readData (s : State) (p : Nat) (g : Port → Port) : (s.modPort p g).readData = s.readData := rfl
@[simp] theorem State.modPort_sessions (s : State) (p : Nat) (g : Port → Port) : (s.modPort p g).sessions = s.sessions := rfl
@[simp] theorem State.modPort_folds (s : State) (p : Nat) (g : Port → Port) : (s.modPort p g).folds = s.folds := rfl
@[simp] theorem State.modPort_pens (s : State) (p : Nat) (g : Port → Port) : (s.modPort p g).pens = s.pens := rfl
@[simp] theorem State.modPort_tally (s : State) (p : Nat) (g : Port → Port) : (s.modPort p g).tally = s.tally := rfl
@[simp] theorem State.modPort_sec (s : State) (p : Nat) (g : Port → Port) : (s.modPort p g).sec = s.sec := rfl
@[simp] theorem State.modPort_boot (s : State) (p : Nat) (g : Port → Port) : (s.modPort p g).boot = s.boot := rfl
@[simp] theorem State.modPort_power (s : State) (p : Nat) (g : Port → Port) : (s.modPort p g).power = s.power := rfl
@[simp] theorem State.modPort_errors (s : State) (p : Nat) (g : Port → Port) : (s.modPort p g).errors = s.errors := rfl
@[simp] theorem State.modPort_dropped (s : State) (p : Nat) (g : Port → Port) : (s.modPort p g).dropped = s.dropped := rfl
@[simp] theorem State.modPort_i3c (s : State) (p : Nat) (g : Port → Port) : (s.modPort p g).i3c = s.i3c := rfl
@[simp] theorem State.modPort_tap (s : State) (p : Nat) (g : Port → Port) : (s.modPort p g).tap = s.tap := rfl

/-! ### setAct -/
@[simp] theorem State.setAct_pending (s : State) (k v : Nat) : (s.setAct k v).pending = s.pending := rfl
@[simp] theorem State.setAct_freeCount (s : State) (k v : Nat) : (s.setAct k v).freeCount = s.freeCount := rfl
@[simp] theorem State.setAct_timer (s : State) (k v : Nat) : (s.setAct k v).timer = s.timer := rfl
@[simp] theorem State.setAct_mem (s : State) (k v : Nat) : (s.setAct k v).mem = s.mem := rfl
@[simp] theorem State.setAct_hostMem (s : State) (k v : Nat) : (s.setAct k v).hostMem = s.hostMem := rfl
@[simp] theorem State.setAct_poison (s : State) (k v : Nat) : (s.setAct k v).poison = s.poison := rfl
@[simp] theorem State.setAct_link (s : State) (k v : Nat) : (s.setAct k v).link = s.link := rfl
@[simp] theorem State.setAct_rings (s : State) (k v : Nat) : (s.setAct k v).rings = s.rings := rfl
@[simp] theorem State.setAct_eqs (s : State) (k v : Nat) : (s.setAct k v).eqs = s.eqs := rfl
@[simp] theorem State.setAct_undelivered (s : State) (k v : Nat) : (s.setAct k v).undelivered = s.undelivered := rfl
@[simp] theorem State.setAct_readData (s : State) (k v : Nat) : (s.setAct k v).readData = s.readData := rfl
@[simp] theorem State.setAct_sessions (s : State) (k v : Nat) : (s.setAct k v).sessions = s.sessions := rfl
@[simp] theorem State.setAct_folds (s : State) (k v : Nat) : (s.setAct k v).folds = s.folds := rfl
@[simp] theorem State.setAct_pens (s : State) (k v : Nat) : (s.setAct k v).pens = s.pens := rfl
@[simp] theorem State.setAct_tally (s : State) (k v : Nat) : (s.setAct k v).tally = s.tally := rfl
@[simp] theorem State.setAct_fab (s : State) (k v : Nat) : (s.setAct k v).fab = s.fab := rfl
@[simp] theorem State.setAct_sec (s : State) (k v : Nat) : (s.setAct k v).sec = s.sec := rfl
@[simp] theorem State.setAct_boot (s : State) (k v : Nat) : (s.setAct k v).boot = s.boot := rfl
@[simp] theorem State.setAct_power (s : State) (k v : Nat) : (s.setAct k v).power = s.power := rfl
@[simp] theorem State.setAct_errors (s : State) (k v : Nat) : (s.setAct k v).errors = s.errors := rfl
@[simp] theorem State.setAct_dropped (s : State) (k v : Nat) : (s.setAct k v).dropped = s.dropped := rfl
@[simp] theorem State.setAct_i3c (s : State) (k v : Nat) : (s.setAct k v).i3c = s.i3c := rfl
@[simp] theorem State.setAct_tap (s : State) (k v : Nat) : (s.setAct k v).tap = s.tap := rfl

/-! ### write -/
@[simp] theorem State.write_pending (s : State) (a : Nat) (l : List Byte) : (s.write a l).pending = s.pending := rfl
@[simp] theorem State.write_freeCount (s : State) (a : Nat) (l : List Byte) : (s.write a l).freeCount = s.freeCount := rfl
@[simp] theorem State.write_timer (s : State) (a : Nat) (l : List Byte) : (s.write a l).timer = s.timer := rfl
@[simp] theorem State.write_regs (s : State) (a : Nat) (l : List Byte) : (s.write a l).regs = s.regs := rfl
@[simp] theorem State.write_hostMem (s : State) (a : Nat) (l : List Byte) : (s.write a l).hostMem = s.hostMem := rfl
@[simp] theorem State.write_link (s : State) (a : Nat) (l : List Byte) : (s.write a l).link = s.link := rfl
@[simp] theorem State.write_rings (s : State) (a : Nat) (l : List Byte) : (s.write a l).rings = s.rings := rfl
@[simp] theorem State.write_eqs (s : State) (a : Nat) (l : List Byte) : (s.write a l).eqs = s.eqs := rfl
@[simp] theorem State.write_undelivered (s : State) (a : Nat) (l : List Byte) : (s.write a l).undelivered = s.undelivered := rfl
@[simp] theorem State.write_readData (s : State) (a : Nat) (l : List Byte) : (s.write a l).readData = s.readData := rfl
@[simp] theorem State.write_sessions (s : State) (a : Nat) (l : List Byte) : (s.write a l).sessions = s.sessions := rfl
@[simp] theorem State.write_folds (s : State) (a : Nat) (l : List Byte) : (s.write a l).folds = s.folds := rfl
@[simp] theorem State.write_pens (s : State) (a : Nat) (l : List Byte) : (s.write a l).pens = s.pens := rfl
@[simp] theorem State.write_tally (s : State) (a : Nat) (l : List Byte) : (s.write a l).tally = s.tally := rfl
@[simp] theorem State.write_fab (s : State) (a : Nat) (l : List Byte) : (s.write a l).fab = s.fab := rfl
@[simp] theorem State.write_sec (s : State) (a : Nat) (l : List Byte) : (s.write a l).sec = s.sec := rfl
@[simp] theorem State.write_boot (s : State) (a : Nat) (l : List Byte) : (s.write a l).boot = s.boot := rfl
@[simp] theorem State.write_power (s : State) (a : Nat) (l : List Byte) : (s.write a l).power = s.power := rfl
@[simp] theorem State.write_errors (s : State) (a : Nat) (l : List Byte) : (s.write a l).errors = s.errors := rfl
@[simp] theorem State.write_dropped (s : State) (a : Nat) (l : List Byte) : (s.write a l).dropped = s.dropped := rfl
@[simp] theorem State.write_i3c (s : State) (a : Nat) (l : List Byte) : (s.write a l).i3c = s.i3c := rfl
@[simp] theorem State.write_tap (s : State) (a : Nat) (l : List Byte) : (s.write a l).tap = s.tap := rfl

/-! ### clearPoison -/
@[simp] theorem State.clearPoison_pending (s : State) (a n : Nat) : (s.clearPoison a n).pending = s.pending := rfl
@[simp] theorem State.clearPoison_freeCount (s : State) (a n : Nat) : (s.clearPoison a n).freeCount = s.freeCount := rfl
@[simp] theorem State.clearPoison_timer (s : State) (a n : Nat) : (s.clearPoison a n).timer = s.timer := rfl
@[simp] theorem State.clearPoison_regs (s : State) (a n : Nat) : (s.clearPoison a n).regs = s.regs := rfl
@[simp] theorem State.clearPoison_mem (s : State) (a n : Nat) : (s.clearPoison a n).mem = s.mem := rfl
@[simp] theorem State.clearPoison_hostMem (s : State) (a n : Nat) : (s.clearPoison a n).hostMem = s.hostMem := rfl
@[simp] theorem State.clearPoison_link (s : State) (a n : Nat) : (s.clearPoison a n).link = s.link := rfl
@[simp] theorem State.clearPoison_rings (s : State) (a n : Nat) : (s.clearPoison a n).rings = s.rings := rfl
@[simp] theorem State.clearPoison_eqs (s : State) (a n : Nat) : (s.clearPoison a n).eqs = s.eqs := rfl
@[simp] theorem State.clearPoison_undelivered (s : State) (a n : Nat) : (s.clearPoison a n).undelivered = s.undelivered := rfl
@[simp] theorem State.clearPoison_readData (s : State) (a n : Nat) : (s.clearPoison a n).readData = s.readData := rfl
@[simp] theorem State.clearPoison_sessions (s : State) (a n : Nat) : (s.clearPoison a n).sessions = s.sessions := rfl
@[simp] theorem State.clearPoison_folds (s : State) (a n : Nat) : (s.clearPoison a n).folds = s.folds := rfl
@[simp] theorem State.clearPoison_pens (s : State) (a n : Nat) : (s.clearPoison a n).pens = s.pens := rfl
@[simp] theorem State.clearPoison_tally (s : State) (a n : Nat) : (s.clearPoison a n).tally = s.tally := rfl
@[simp] theorem State.clearPoison_fab (s : State) (a n : Nat) : (s.clearPoison a n).fab = s.fab := rfl
@[simp] theorem State.clearPoison_sec (s : State) (a n : Nat) : (s.clearPoison a n).sec = s.sec := rfl
@[simp] theorem State.clearPoison_boot (s : State) (a n : Nat) : (s.clearPoison a n).boot = s.boot := rfl
@[simp] theorem State.clearPoison_power (s : State) (a n : Nat) : (s.clearPoison a n).power = s.power := rfl
@[simp] theorem State.clearPoison_errors (s : State) (a n : Nat) : (s.clearPoison a n).errors = s.errors := rfl
@[simp] theorem State.clearPoison_dropped (s : State) (a n : Nat) : (s.clearPoison a n).dropped = s.dropped := rfl
@[simp] theorem State.clearPoison_i3c (s : State) (a n : Nat) : (s.clearPoison a n).i3c = s.i3c := rfl
@[simp] theorem State.clearPoison_tap (s : State) (a n : Nat) : (s.clearPoison a n).tap = s.tap := rfl

/-! ### addPoison -/
@[simp] theorem State.addPoison_pending (s : State) (us : List Nat) : (s.addPoison us).pending = s.pending := rfl
@[simp] theorem State.addPoison_freeCount (s : State) (us : List Nat) : (s.addPoison us).freeCount = s.freeCount := rfl
@[simp] theorem State.addPoison_timer (s : State) (us : List Nat) : (s.addPoison us).timer = s.timer := rfl
@[simp] theorem State.addPoison_regs (s : State) (us : List Nat) : (s.addPoison us).regs = s.regs := rfl
@[simp] theorem State.addPoison_mem (s : State) (us : List Nat) : (s.addPoison us).mem = s.mem := rfl
@[simp] theorem State.addPoison_hostMem (s : State) (us : List Nat) : (s.addPoison us).hostMem = s.hostMem := rfl
@[simp] theorem State.addPoison_link (s : State) (us : List Nat) : (s.addPoison us).link = s.link := rfl
@[simp] theorem State.addPoison_rings (s : State) (us : List Nat) : (s.addPoison us).rings = s.rings := rfl
@[simp] theorem State.addPoison_eqs (s : State) (us : List Nat) : (s.addPoison us).eqs = s.eqs := rfl
@[simp] theorem State.addPoison_undelivered (s : State) (us : List Nat) : (s.addPoison us).undelivered = s.undelivered := rfl
@[simp] theorem State.addPoison_readData (s : State) (us : List Nat) : (s.addPoison us).readData = s.readData := rfl
@[simp] theorem State.addPoison_sessions (s : State) (us : List Nat) : (s.addPoison us).sessions = s.sessions := rfl
@[simp] theorem State.addPoison_folds (s : State) (us : List Nat) : (s.addPoison us).folds = s.folds := rfl
@[simp] theorem State.addPoison_pens (s : State) (us : List Nat) : (s.addPoison us).pens = s.pens := rfl
@[simp] theorem State.addPoison_tally (s : State) (us : List Nat) : (s.addPoison us).tally = s.tally := rfl
@[simp] theorem State.addPoison_fab (s : State) (us : List Nat) : (s.addPoison us).fab = s.fab := rfl
@[simp] theorem State.addPoison_sec (s : State) (us : List Nat) : (s.addPoison us).sec = s.sec := rfl
@[simp] theorem State.addPoison_boot (s : State) (us : List Nat) : (s.addPoison us).boot = s.boot := rfl
@[simp] theorem State.addPoison_power (s : State) (us : List Nat) : (s.addPoison us).power = s.power := rfl
@[simp] theorem State.addPoison_errors (s : State) (us : List Nat) : (s.addPoison us).errors = s.errors := rfl
@[simp] theorem State.addPoison_dropped (s : State) (us : List Nat) : (s.addPoison us).dropped = s.dropped := rfl
@[simp] theorem State.addPoison_i3c (s : State) (us : List Nat) : (s.addPoison us).i3c = s.i3c := rfl
@[simp] theorem State.addPoison_tap (s : State) (us : List Nat) : (s.addPoison us).tap = s.tap := rfl

/-! ### count: by cases on the register's row -/
@[simp] theorem State.count_pending (s : State) (k n : Nat) : (s.count k n).pending = s.pending := by unfold State.count; split <;> rfl
@[simp] theorem State.count_freeCount (s : State) (k n : Nat) : (s.count k n).freeCount = s.freeCount := by unfold State.count; split <;> rfl
@[simp] theorem State.count_timer (s : State) (k n : Nat) : (s.count k n).timer = s.timer := by unfold State.count; split <;> rfl
@[simp] theorem State.count_mem (s : State) (k n : Nat) : (s.count k n).mem = s.mem := by unfold State.count; split <;> rfl
@[simp] theorem State.count_hostMem (s : State) (k n : Nat) : (s.count k n).hostMem = s.hostMem := by unfold State.count; split <;> rfl
@[simp] theorem State.count_poison (s : State) (k n : Nat) : (s.count k n).poison = s.poison := by unfold State.count; split <;> rfl
@[simp] theorem State.count_link (s : State) (k n : Nat) : (s.count k n).link = s.link := by unfold State.count; split <;> rfl
@[simp] theorem State.count_rings (s : State) (k n : Nat) : (s.count k n).rings = s.rings := by unfold State.count; split <;> rfl
@[simp] theorem State.count_eqs (s : State) (k n : Nat) : (s.count k n).eqs = s.eqs := by unfold State.count; split <;> rfl
@[simp] theorem State.count_undelivered (s : State) (k n : Nat) : (s.count k n).undelivered = s.undelivered := by unfold State.count; split <;> rfl
@[simp] theorem State.count_readData (s : State) (k n : Nat) : (s.count k n).readData = s.readData := by unfold State.count; split <;> rfl
@[simp] theorem State.count_sessions (s : State) (k n : Nat) : (s.count k n).sessions = s.sessions := by unfold State.count; split <;> rfl
@[simp] theorem State.count_folds (s : State) (k n : Nat) : (s.count k n).folds = s.folds := by unfold State.count; split <;> rfl
@[simp] theorem State.count_pens (s : State) (k n : Nat) : (s.count k n).pens = s.pens := by unfold State.count; split <;> rfl
@[simp] theorem State.count_tally (s : State) (k n : Nat) : (s.count k n).tally = s.tally := by unfold State.count; split <;> rfl
@[simp] theorem State.count_fab (s : State) (k n : Nat) : (s.count k n).fab = s.fab := by unfold State.count; split <;> rfl
@[simp] theorem State.count_sec (s : State) (k n : Nat) : (s.count k n).sec = s.sec := by unfold State.count; split <;> rfl
@[simp] theorem State.count_boot (s : State) (k n : Nat) : (s.count k n).boot = s.boot := by unfold State.count; split <;> rfl
@[simp] theorem State.count_power (s : State) (k n : Nat) : (s.count k n).power = s.power := by unfold State.count; split <;> rfl
@[simp] theorem State.count_errors (s : State) (k n : Nat) : (s.count k n).errors = s.errors := by unfold State.count; split <;> rfl
@[simp] theorem State.count_dropped (s : State) (k n : Nat) : (s.count k n).dropped = s.dropped := by unfold State.count; split <;> rfl
@[simp] theorem State.count_i3c (s : State) (k n : Nat) : (s.count k n).i3c = s.i3c := by unfold State.count; split <;> rfl
@[simp] theorem State.count_tap (s : State) (k n : Nat) : (s.count k n).tap = s.tap := by unfold State.count; split <;> rfl

end Sys2Proof.Machine
end

