-- ==== Sys2Proof/Laws/Maps.lean ====
section
/-! SUPPORT. Laws of the sparse maps, and what each table of the state reads after an update of one entry. -/
namespace Sys2Proof.Machine

/-! ### Maps -/

/-- The canonical form of a map: keys strictly rising. -/
def NMap.wf {α : Type} (m : NMap α) : Prop := m.Pairwise (fun p q => p.1 < q.1)

@[simp] theorem getN_setN_self {α : Type} (m : NMap α) (k : Nat) (v : α) : getN (setN m k v) k = some v := by
  induction m with
  | nil => simp [setN, getN]
  | cons p t ih =>
    obtain ⟨i, w⟩ := p
    simp only [setN]
    split
    · simp [getN]
    · split
      · simp [getN]
      · rename_i h; simp only [getN]; rw [if_neg (fun e => h e.symm)]; exact ih

theorem getN_setN_ne {α : Type} (m : NMap α) {j k : Nat} (v : α) (h : j ≠ k) : getN (setN m k v) j = getN m j := by
  induction m with
  | nil => simp [setN, getN, Ne.symm h]
  | cons p t ih =>
    obtain ⟨i, w⟩ := p
    simp only [setN]
    split
    · simp [getN, Ne.symm h]
    · split
      · rename_i e; subst e; simp [getN, Ne.symm h]
      · simp [getN, ih]

@[simp] theorem getND_setN_self {α : Type} (m : NMap α) (k : Nat) (v d : α) : getND (setN m k v) k d = v := by simp [getND]

theorem getND_setN_ne {α : Type} (m : NMap α) {j k : Nat} (v d : α) (h : j ≠ k) : getND (setN m k v) j d = getND m j d := by
  simp [getND, getN_setN_ne m v h]

@[simp] theorem hasN_setN_self {α : Type} (m : NMap α) (k : Nat) (v : α) : hasN (setN m k v) k = true := by simp [hasN]

theorem getN_modN {α : Type} (m : NMap α) (j k : Nat) (g : α → α) :
    getN (modN m k g) j = if j = k then (getN m j).map g else getN m j := by
  induction m with
  | nil => simp [modN, getN]
  | cons p t ih =>
    obtain ⟨i, w⟩ := p
    have ih' : getN (List.map (fun p => if p.1 = k then (p.1, g p.2) else p) t) j = if j = k then (getN t j).map g else getN t j := ih
    by_cases hij : i = j
    · subst hij
      by_cases hik : i = k <;> simp [modN, getN, hik]
    · by_cases hik : i = k
      · simp [modN, getN, hik, ih', show ¬ k = j from hik ▸ hij]
      · simp [modN, getN, hik, hij, ih']

@[simp] theorem getN_modN_self {α : Type} (m : NMap α) (k : Nat) (g : α → α) : getN (modN m k g) k = (getN m k).map g := by simp [getN_modN]

@[simp] theorem getN_delN_self {α : Type} (m : NMap α) (k : Nat) : getN (delN m k) k = none := by
  induction m with
  | nil => rfl
  | cons p t ih =>
    obtain ⟨i, w⟩ := p
    by_cases h : i = k
    · subst h; simpa [delN] using ih
    · simpa [delN, h, getN] using ih

/-- A key set in a canonical map leaves it canonical. -/
theorem setN_wf {α : Type} (m : NMap α) (k : Nat) (v : α) (h : NMap.wf m) : NMap.wf (setN m k v) := by
  have lower : ∀ (m : NMap α) (b : Nat), b < k → (∀ p ∈ m, b < p.1) → ∀ p ∈ setN m k v, b < p.1 := by
    intro m b hb
    induction m with
    | nil => intro _ p hp; simp [setN] at hp; subst hp; exact hb
    | cons q t ih =>
      obtain ⟨i, w⟩ := q
      intro hm p hp
      simp only [setN] at hp
      split at hp
      · rcases List.mem_cons.1 hp with rfl | hp
        · exact hb
        · exact hm p hp
      · split at hp
        · rcases List.mem_cons.1 hp with rfl | hp
          · exact hb
          · exact hm p (List.mem_cons_of_mem _ hp)
        · rcases List.mem_cons.1 hp with rfl | hp
          · exact hm _ (List.mem_cons_self ..)
          · exact ih (fun p hp => hm p (List.mem_cons_of_mem _ hp)) p hp
  induction m with
  | nil => simp [setN, NMap.wf]
  | cons q t ih =>
    obtain ⟨i, w⟩ := q
    have ht := List.pairwise_cons.1 h
    simp only [setN]
    split
    · rename_i hk
      refine List.pairwise_cons.2 ⟨fun p hp => ?_, h⟩
      rcases List.mem_cons.1 hp with rfl | hp
      · exact hk
      · exact Nat.lt_trans hk (ht.1 p hp)
    · split
      · rename_i e; subst e; exact List.pairwise_cons.2 ht
      · rename_i h1 h2
        exact List.pairwise_cons.2 ⟨lower t i (by omega) ht.1, ih ht.2⟩

/-! ### Tables of the state -/

@[simp] theorem State.fold_setFold (s : State) (f : Nat) (x : Fold) : (s.setFold f x).fold f = x := by simp [State.setFold, State.fold]
theorem State.fold_setFold_ne (s : State) {f h : Nat} (x : Fold) (e : h ≠ f) : (s.setFold f x).fold h = s.fold h := by
  simp [State.setFold, State.fold, getND_setN_ne _ _ _ e]
@[simp] theorem State.fold_modFold (s : State) (f : Nat) (g : Fold → Fold) : (s.modFold f g).fold f = g (s.fold f) := by simp [State.modFold]
theorem State.fold_modFold_ne (s : State) {f h : Nat} (g : Fold → Fold) (e : h ≠ f) : (s.modFold f g).fold h = s.fold h := by
  simp [State.modFold, State.fold_setFold_ne s _ e]
@[simp] theorem State.pen_modPen (s : State) (n : Nat) (g : Pen → Pen) : (s.modPen n g).pen n = g (s.pen n) := by simp [State.modPen, State.pen]
theorem State.pen_modPen_ne (s : State) {n m : Nat} (g : Pen → Pen) (e : m ≠ n) : (s.modPen n g).pen m = s.pen m := by
  simp [State.modPen, State.pen, getND_setN_ne _ _ _ e]
@[simp] theorem State.ring_modRing (s : State) (r : Nat) (g : Ring → Ring) : (s.modRing r g).ring r = g (s.ring r) := by simp [State.modRing, State.ring]
theorem State.ring_modRing_ne (s : State) {r q : Nat} (g : Ring → Ring) (e : q ≠ r) : (s.modRing r g).ring q = s.ring q := by
  simp [State.modRing, State.ring, getND_setN_ne _ _ _ e]
@[simp] theorem State.eq_setEq (s : State) (q : Nat) (x : EventQueue) : (s.setEq q x).eq q = x := by simp [State.setEq, State.eq]
theorem State.eq_setEq_ne (s : State) {q r : Nat} (x : EventQueue) (e : r ≠ q) : (s.setEq q x).eq r = s.eq r := by
  simp [State.setEq, State.eq, getND_setN_ne _ _ _ e]
@[simp] theorem State.port_modPort (s : State) (p : Nat) (g : Port → Port) : (s.modPort p g).port p = g (s.port p) := by simp [State.modPort, State.port]
theorem State.port_modPort_ne (s : State) {p q : Nat} (g : Port → Port) (e : q ≠ p) : (s.modPort p g).port q = s.port q := by
  simp [State.modPort, State.port, getND_setN_ne _ _ _ e]
@[simp] theorem State.sess_setSess (s : State) (x : W64) (y : Sess) : (s.setSess x y).sess x = some y := by simp [State.setSess, State.sess]
theorem State.sess_setSess_ne (s : State) {x z : W64} (y : Sess) (e : z ≠ x) : (s.setSess x y).sess z = s.sess z := by
  simp [State.setSess, State.sess, getN_setN_ne _ _ (fun h => e (BitVec.eq_of_toNat_eq h))]
@[simp] theorem State.sess_modSess (s : State) (x : W64) (g : Sess → Sess) : (s.modSess x g).sess x = (s.sess x).map g := by simp [State.modSess, State.sess]
theorem State.sess_modSess_ne (s : State) {x z : W64} (g : Sess → Sess) (e : z ≠ x) : (s.modSess x g).sess z = s.sess z := by
  have h : ¬ z.toNat = x.toNat := fun h => e (BitVec.eq_of_toNat_eq h)
  simp only [State.modSess, State.sess, getN_modN, if_neg h]

/-- A register reads what was put into it; every other one reads as before (19 R471). -/
theorem State.act_setAct (s : State) (k v : Nat) (h : v < 2 ^ 64) : (s.setAct k v).act k = v := by
  have e : (BitVec.ofNat 64 v).toNat = v := (BitVec.toNat_ofNat v 64).trans (Nat.mod_eq_of_lt h)
  simp only [State.setAct, State.act, getN_setN_self, e]
theorem State.act_setAct_ne (s : State) {j k : Nat} (v : Nat) (h : j ≠ k) : (s.setAct k v).act j = s.act j := by
  simp [State.setAct, State.act, getN_setN_ne _ _ h]
/-- Registers depend on the register file alone. -/
theorem State.act_congr (s t : State) (k : Nat) (h : t.regs = s.regs) : t.act k = s.act k := by unfold State.act; rw [h]

/-! ### Time and service after an update -/

@[simp] theorem State.ready_modFold (s : State) (f : Nat) (g : Fold → Fold) : (s.modFold f g).ready = s.ready := rfl
@[simp] theorem State.ready_modSess (s : State) (x : W64) (g : Sess → Sess) : (s.modSess x g).ready = s.ready := rfl
@[simp] theorem State.ready_modPen (s : State) (n : Nat) (g : Pen → Pen) : (s.modPen n g).ready = s.ready := rfl
@[simp] theorem State.now_modFold (s : State) (f : Nat) (g : Fold → Fold) : (s.modFold f g).now = s.now := rfl
@[simp] theorem State.now_modSess (s : State) (x : W64) (g : Sess → Sess) : (s.modSess x g).now = s.now := rfl
@[simp] theorem State.now_modPen (s : State) (n : Nat) (g : Pen → Pen) : (s.modPen n g).now = s.now := rfl

end Sys2Proof.Machine
end

