-- ==== Sys2Proof/Laws/Memory.lean ====
section
/-! SUPPORT. Memory: what a byte reads after a write, and that every operation keeps the canonical form. -/
namespace Sys2Proof.Machine

/-! ### Reading one byte -/

theorem memGet_absent (m : List Host.Cell) (x : Nat) (h : ∀ p ∈ m, p.1 ≠ x) : memGet m x = 0 := by
  induction m with
  | nil => rfl
  | cons p t ih =>
    simp only [memGet, h p (List.mem_cons_self ..), if_false]
    exact ih (fun q hq => h q (List.mem_cons_of_mem _ hq))

theorem memGet_append_left (m n : List Host.Cell) (x : Nat) (h : ∀ p ∈ n, p.1 ≠ x) : memGet (m ++ n) x = memGet m x := by
  induction m with
  | nil => exact memGet_absent n x h
  | cons p t ih => simp only [List.cons_append, memGet, ih]

theorem memGet_append_right (m n : List Host.Cell) (x : Nat) (h : ∀ p ∈ m, p.1 ≠ x) : memGet (m ++ n) x = memGet n x := by
  induction m with
  | nil => rfl
  | cons p t ih =>
    simp only [List.cons_append, memGet, h p (List.mem_cons_self ..), if_false]
    exact ih (fun q hq => h q (List.mem_cons_of_mem _ hq))

/-- A filter that keeps the cells of address `x` leaves the byte at `x` as it was. -/
theorem memGet_filter (m : List Host.Cell) (k : Nat → Bool) (x : Nat) (h : k x = true) : memGet (m.filter (fun p => k p.1)) x = memGet m x := by
  induction m with
  | nil => rfl
  | cons p t ih =>
    obtain ⟨c, v⟩ := p
    by_cases e : c = x
    · subst e; simp [h, memGet]
    · by_cases hk : k c = true <;> simp [hk, memGet, e, ih]

theorem memCells_range (l : List Byte) (a : Nat) : ∀ p ∈ memCells a l, a ≤ p.1 ∧ p.1 < a + l.length := by
  induction l generalizing a with
  | nil => simp [memCells]
  | cons b t ih =>
    intro p hp
    simp only [memCells] at hp
    split at hp
    · have := ih (a + 1) p hp; simp; omega
    · rcases List.mem_cons.1 hp with rfl | hp
      · simp
      · have := ih (a + 1) p hp; simp; omega

theorem memGet_memCells (l : List Byte) (a i : Nat) (h : i < l.length) : memGet (memCells a l) (a + i) = l[i] := by
  induction l generalizing a i with
  | nil => simp at h
  | cons b t ih =>
    have far : ∀ p ∈ memCells (a + 1) t, p.1 ≠ a := fun p hp e => by have := (memCells_range t (a + 1) p hp).1; omega
    cases i with
    | zero =>
      simp only [memCells]
      split
      · rename_i e; simp [e, memGet_absent _ _ far]
      · simp [memGet]
    | succ i =>
      have e : a + (i + 1) = a + 1 + i := by omega
      have := ih (a + 1) i (by simpa using h)
      simp only [memCells]
      split
      · rw [e, this]; rfl
      · simp only [memGet, show ¬ a = a + (i + 1) by omega, if_false]
        rw [e, this]; rfl

/-- A byte written reads as written. -/
theorem memGet_memSetN_in (m : List Host.Cell) (a i : Nat) (l : List Byte) (h : i < l.length) : memGet (memSetN m a l) (a + i) = l[i] := by
  have lo : ∀ p ∈ m.filter (fun p => p.1 < a), p.1 ≠ a + i := fun p hp e => by have := (List.mem_filter.1 hp).2; simp at this; omega
  have hi : ∀ p ∈ m.filter (fun p => a + l.length ≤ p.1), p.1 ≠ a + i := fun p hp e => by have := (List.mem_filter.1 hp).2; simp at this; omega
  rw [memSetN, memGet_append_left _ _ _ hi, memGet_append_right _ _ _ lo, memGet_memCells l a i h]

/-- A byte outside a write reads as before. -/
theorem memGet_memSetN_out (m : List Host.Cell) (a x : Nat) (l : List Byte) (h : x < a ∨ a + l.length ≤ x) :
    memGet (memSetN m a l) x = memGet m x := by
  have mid : ∀ p ∈ memCells a l, p.1 ≠ x := fun p hp e => by have := memCells_range l a p hp; omega
  rcases h with h | h
  · have hi : ∀ p ∈ m.filter (fun p => a + l.length ≤ p.1), p.1 ≠ x := fun p hp e => by have := (List.mem_filter.1 hp).2; simp at this; omega
    rw [memSetN, memGet_append_left _ _ _ hi, memGet_append_left _ _ _ mid]
    exact memGet_filter m (fun c => decide (c < a)) x (by simpa using h)
  · have lo : ∀ p ∈ m.filter (fun p => p.1 < a) ++ memCells a l, p.1 ≠ x := by
      intro p hp
      rcases List.mem_append.1 hp with hp | hp
      · have := (List.mem_filter.1 hp).2; simp at this; omega
      · exact mid p hp
    rw [memSetN, memGet_append_right _ _ _ lo]
    exact memGet_filter m (fun c => decide (a + l.length ≤ c)) x (by simpa using h)

/-! ### The canonical form -/

theorem wf_iff (m : List Host.Cell) : Memory.wf m = true ↔ m.Pairwise (fun p q => p.1 < q.1) ∧ ∀ p ∈ m, p.2 ≠ 0 := by
  simp [Memory.wf]

theorem wf_nil : Memory.wf [] = true := by simp [Memory.wf]

theorem wf_filter (m : List Host.Cell) (k : Host.Cell → Bool) (h : Memory.wf m = true) : Memory.wf (m.filter k) = true := by
  rw [wf_iff] at h ⊢
  exact ⟨h.1.filter _, fun p hp => h.2 p (List.mem_filter.1 hp).1⟩

theorem wf_memCells (l : List Byte) (a : Nat) : Memory.wf (memCells a l) = true := by
  rw [wf_iff]
  induction l generalizing a with
  | nil => simp [memCells]
  | cons b t ih =>
    simp only [memCells]
    split
    · exact ih (a + 1)
    · rename_i hb
      refine ⟨List.pairwise_cons.2 ⟨fun p hp => ?_, (ih (a + 1)).1⟩, fun p hp => ?_⟩
      · have := (memCells_range t (a + 1) p hp).1; simp; omega
      · rcases List.mem_cons.1 hp with rfl | hp
        · exact hb
        · exact (ih (a + 1)).2 p hp

/-- A write keeps the canonical form. -/
theorem wf_memSetN (m : List Host.Cell) (a : Nat) (l : List Byte) (h : Memory.wf m = true) : Memory.wf (memSetN m a l) = true := by
  have h1 := (wf_iff _).1 (wf_filter m (fun p => decide (p.1 < a)) h)
  have h2 := (wf_iff _).1 (wf_memCells l a)
  have h3 := (wf_iff _).1 (wf_filter m (fun p => decide (a + l.length ≤ p.1)) h)
  have lo : ∀ p ∈ m.filter (fun p => decide (p.1 < a)), p.1 < a := fun p hp => by simpa using (List.mem_filter.1 hp).2
  have hi : ∀ p ∈ m.filter (fun p => decide (a + l.length ≤ p.1)), a + l.length ≤ p.1 := fun p hp => by simpa using (List.mem_filter.1 hp).2
  rw [wf_iff, memSetN]
  refine ⟨List.pairwise_append.2 ⟨List.pairwise_append.2 ⟨h1.1, h2.1, fun p hp q hq => ?_⟩, h3.1, fun p hp q hq => ?_⟩, fun p hp => ?_⟩
  · have := lo p hp; have := memCells_range l a q hq; omega
  · have := hi q hq
    rcases List.mem_append.1 hp with hp | hp
    · have := lo p hp; omega
    · have := memCells_range l a p hp; omega
  · rcases List.mem_append.1 hp with hp | hp
    · rcases List.mem_append.1 hp with hp | hp
      · exact h1.2 p hp
      · exact h2.2 p hp
    · exact h3.2 p hp

/-- Clearing a range keeps the canonical form; the range reads zero, the rest as before. -/
theorem wf_memClear (m : List Host.Cell) (lo hi : Nat) (h : Memory.wf m = true) : Memory.wf (memClear m lo hi) = true := wf_filter m _ h

theorem memGet_memClear_in (m : List Host.Cell) (lo hi x : Nat) (h : lo ≤ x ∧ x < hi) : memGet (memClear m lo hi) x = 0 :=
  memGet_absent _ _ (fun p hp e => by
    have := (List.mem_filter.1 hp).2
    simp at this
    omega)

theorem memGet_memClear_out (m : List Host.Cell) (lo hi x : Nat) (h : x < lo ∨ hi ≤ x) : memGet (memClear m lo hi) x = memGet m x :=
  memGet_filter m (fun c => decide (c < lo) || decide (hi ≤ c)) x (by simpa using h)

/-! ### Reading several bytes -/

theorem wf_tail (p : Host.Cell) (t : List Host.Cell) (h : Memory.wf (p :: t) = true) : Memory.wf t = true := by
  rw [wf_iff] at h ⊢
  exact ⟨(List.pairwise_cons.1 h.1).2, fun q hq => h.2 q (List.mem_cons_of_mem _ hq)⟩

theorem memGet_dropWhile (m : List Host.Cell) (a x : Nat) (h : a ≤ x) : memGet (m.dropWhile (fun p => p.1 < a)) x = memGet m x := by
  induction m with
  | nil => rfl
  | cons p t ih =>
    simp only [List.dropWhile]
    split
    · rename_i e; simp only [memGet, ih]; rw [if_neg]; intro e'; simp at e; omega
    · rfl

theorem wf_dropWhile (m : List Host.Cell) (a : Nat) (h : Memory.wf m = true) : Memory.wf (m.dropWhile (fun p => p.1 < a)) = true := by
  induction m with
  | nil => exact h
  | cons p t ih =>
    simp only [List.dropWhile]
    split
    · exact ih (wf_tail p t h)
    · exact h

/-- The pass over a canonical memory reads byte by byte. -/
theorem memGetN_eq (m : List Host.Cell) (a n : Nat) (h : Memory.wf m = true) : memGetN m a n = (List.range n).map (fun i => memGet m (a + i)) := by
  induction n generalizing m a with
  | zero => rfl
  | succ n ih =>
    rw [List.range_succ_eq_map, List.map_cons, List.map_map]
    have rest : ∀ m', Memory.wf m' = true → (∀ x, a + 1 ≤ x → memGet m' x = memGet m x) →
        memGetN m' (a + 1) n = (List.range n).map ((fun i => memGet m (a + i)) ∘ Nat.succ) := by
      intro m' h' e
      rw [ih m' (a + 1) h']
      refine List.map_congr_left (fun i _ => ?_)
      simp only [Function.comp]
      rw [e (a + 1 + i) (by omega)]
      congr 1; omega
    have dw : ∀ x, a ≤ x → memGet (m.dropWhile (fun p => decide (p.1 < a))) x = memGet m x := fun x hx => memGet_dropWhile m a x hx
    have wd : Memory.wf (m.dropWhile (fun p => decide (p.1 < a))) = true := wf_dropWhile m a h
    have hd : ∀ p t, m.dropWhile (fun p => decide (p.1 < a)) = p :: t → a ≤ p.1 := by
      intro p t e
      have := List.head_dropWhile_not (fun p : Host.Cell => decide (p.1 < a)) (l := m) (by rw [e]; simp)
      simp [e] at this; exact this
    simp only [memGetN]
    split
    · rename_i e
      have z : ∀ x, a ≤ x → memGet m x = 0 := fun x hx => by rw [← dw x hx, e]; rfl
      rw [List.replicate_succ]
      congr 1
      · exact (z a (Nat.le_refl _)).symm
      · refine (List.eq_replicate_iff.2 ⟨by simp, fun b hb => ?_⟩).symm
        obtain ⟨i, _, rfl⟩ := List.mem_map.1 hb
        exact z _ (by omega)
    · rename_i c v t e
      rw [e] at dw wd
      have hc := hd _ _ e
      have below : ∀ p ∈ t, c < p.1 := ((List.pairwise_cons.1 ((wf_iff _).1 wd).1).1)
      split
      · rename_i eq
        subst eq
        congr 1
        · have := dw c (Nat.le_refl _); simp [memGet] at this; simpa using this
        · exact rest t (wf_tail _ _ wd) (fun x hx => by rw [← dw x (by omega)]; simp only [memGet]; rw [if_neg (by omega)])
      · rename_i ne
        congr 1
        · rw [show a + 0 = a from rfl, ← dw a (Nat.le_refl _)]
          refine (memGet_absent _ _ (fun p hp => ?_)).symm
          rcases List.mem_cons.1 hp with rfl | hp
          · exact ne
          · have := below p hp; simp at hc; omega
        · exact rest _ wd (fun x hx => dw x (by omega))

/-! ### Both memories of the state -/

theorem State.write_mem (s : State) (a : Nat) (l : List Byte) : (s.write a l).mem = memSetN s.mem a l := rfl

/-- A write into the device's memory keeps both memories canonical. -/
theorem State.write_wf (s : State) (a : Nat) (l : List Byte) (h : Memory.wf s.mem = true) : Memory.wf (s.write a l).mem = true :=
  wf_memSetN s.mem a l h

/-! ### The link's transfers: writes and reads cut into requests come to one write, one read -/

theorem memCells_append (l r : List Byte) (a : Nat) : memCells a (l ++ r) = memCells a l ++ memCells (a + l.length) r := by
  induction l generalizing a with
  | nil => simp [memCells]
  | cons b t ih =>
    simp only [List.cons_append, memCells, List.length_cons, ih (a + 1), show a + 1 + t.length = a + (t.length + 1) by omega]
    split <;> simp

/-- A write followed by the write of the bytes after it is one write. -/
theorem memSetN_append (m : List Host.Cell) (a : Nat) (l r : List Byte) : memSetN (memSetN m a l) (a + l.length) r = memSetN m a (l ++ r) := by
  have none : ∀ (k : List Host.Cell) (q : Host.Cell → Bool), (∀ p ∈ k, q p = false) → k.filter q = [] :=
    fun k q h => List.filter_eq_nil_iff.2 (fun p hp => by simp [h p hp])
  have cells := memCells_range l a
  have lo : (memSetN m a l).filter (fun p => decide (p.1 < a + l.length)) = m.filter (fun p => decide (p.1 < a)) ++ memCells a l := by
    have all : (memCells a l).filter (fun p => decide (p.1 < a + l.length)) = memCells a l :=
      List.filter_eq_self.2 (fun p hp => by simpa using (cells p hp).2)
    simp only [memSetN, List.filter_append, List.filter_filter]
    rw [all, none m (fun p => decide (p.1 < a + l.length) && decide (a + l.length ≤ p.1)) (fun p _ => by simp), List.append_nil]
    congr 1
    exact List.filter_congr (fun p _ => by by_cases h : p.1 < a <;> simp [h]; omega)
  have hi : (memSetN m a l).filter (fun p => decide (a + l.length + r.length ≤ p.1)) = m.filter (fun p => decide (a + (l ++ r).length ≤ p.1)) := by
    simp only [memSetN, List.filter_append, List.filter_filter]
    rw [none (memCells a l) _ (fun p hp => by have := cells p hp; simp; omega), none m _ (fun p _ => by simp; omega)]
    simp only [List.nil_append, List.length_append]
    exact List.filter_congr (fun p _ => by by_cases h : a + (l.length + r.length) ≤ p.1 <;> simp [h, Nat.add_assoc]; omega)
  rw [memSetN, lo, hi, memSetN, memCells_append]
  simp only [List.append_assoc]

/-- The posted writes of one write come to that write. -/
theorem postWrites_eq (k : Nat) (m : List Host.Cell) (p : Nat) (l : List Byte) : postWrites m (writeRequests k p l) = memSetN m p l := by
  induction k generalizing m p l with
  | zero => rfl
  | succ k ih =>
    simp only [writeRequests]
    split
    · rfl
    · rename_i h
      simp only [postWrites, List.foldl_cons] at ih ⊢
      have e : (l.take (4096 - p % 4096)).length = 4096 - p % 4096 := by simp; omega
      have := memSetN_append m p (l.take (4096 - p % 4096)) (l.drop (4096 - p % 4096))
      rw [List.take_append_drop, e] at this
      rw [ih, this]

/-- A write over the link: the bytes at their host address, nothing after a fail-stop. -/
theorem State.linkWrite_eq (p : Nat) (l : List Byte) (s : State) :
    s.linkWrite p l = if s.boot.status = 15 then s else { s with hostMem := memSetN s.hostMem p l } := by
  simp only [State.linkWrite, postWrites_eq]

theorem memGetN_append (m : List Host.Cell) (a n k : Nat) (h : Memory.wf m = true) : memGetN m a (n + k) = memGetN m a n ++ memGetN m (a + n) k := by
  simp only [memGetN_eq _ _ _ h, List.range_add, List.map_append, List.map_map]
  congr 1
  exact List.map_congr_left (fun i _ => by simp [Nat.add_assoc])

/-- Reads one after the other on a link with nothing outstanding bring every byte. -/
theorem issueReads_eq (k : Nat) (m : List Host.Cell) (p n : Nat) (h : Memory.wf m = true) (hk : n < 4096 * (k + 1) ∨ n ≤ 4096) :
    (issueReads m (readRequests k p n) ⟨0, 0⟩).1 = memGetN m p n := by
  have one : ∀ p n, n ≤ 4096 → (issueReads m [(p, n)] ⟨0, 0⟩).1 = memGetN m p n := by
    intro p n hn; simp [issueReads, LinkReads.reserve, hn]
  induction k generalizing p n with
  | zero => exact one p n (by omega)
  | succ k ih =>
    simp only [readRequests]
    split
    · rename_i hn; exact one p n hn
    · rename_i hn
      have a : LinkReads.reserve 4096 ⟨0, 0⟩ = some ⟨1, 4096⟩ := by decide
      have b : LinkReads.arrive 4096 ⟨1, 4096⟩ = ⟨0, 0⟩ := by decide
      rw [issueReads, a]
      dsimp only
      rw [b, ih (p + 4096) (n - 4096) (by omega), ← memGetN_append m p 4096 (n - 4096) h, show 4096 + (n - 4096) = n by omega]

/-- A read over a link with nothing outstanding brings the bytes at the host address. -/
theorem State.linkRead_eq (s : State) (p n : Nat) (h : Memory.wf s.hostMem = true) (hc : s.link.credit = ⟨0, 0⟩) :
    s.linkRead p n = memGetN s.hostMem p n := by
  rw [State.linkRead, hc, issueReads_eq _ _ _ _ h (.inl (by omega))]

/-- A host write keeps host memory canonical. -/
theorem State.hostWrite_wf (s : State) (o a : Nat) (l : List Byte) (h : Memory.wf s.hostMem = true) : Memory.wf (s.hostWrite o a l).hostMem = true := by
  unfold State.hostWrite
  split
  · rw [State.linkWrite_eq]
    split
    · exact h
    · exact wf_memSetN _ _ _ h
  · exact h

/-- Bytes written to the device's memory read back. -/
theorem State.read_write (s : State) (a : Nat) (l : List Byte) (h : Memory.wf s.mem = true) : (s.write a l).read a l.length = l := by
  rw [State.read, memGetN_eq _ _ _ (s.write_wf a l h)]
  refine List.ext_getElem (by simp) (fun i h1 h2 => ?_)
  simp [State.write_mem, memGet_memSetN_in _ _ _ _ h2]

/-- A host write changes host memory alone. -/
theorem State.hostWrite_frame (s : State) (o a : Nat) (l : List Byte) : s.hostWrite o a l = { s with hostMem := (s.hostWrite o a l).hostMem } := by
  unfold State.hostWrite
  split
  · rw [State.linkWrite_eq]; split <;> rfl
  · rfl

theorem reset_mem_wf : Memory.wf State.reset.mem = true ∧ Memory.wf State.reset.hostMem = true := ⟨wf_nil, wf_nil⟩

end Sys2Proof.Machine
end

