-- ==== Sys2Proof/Safety.lean ====
section
/-! DEFINITION. What counts as a safe run of the block and the conditions under which a command has its own effect, in the terms the claims use. -/
namespace Sys2Proof.Safety
open Sys2Proof.Machine

/-- What a command answers. -/
abbrev Answer := Host.Outcome State Fault Refusal

/-- A step that completes: it answers a next state, not a fault and not a refusal. -/
def Completes (s : State) : Prop := ∃ t, step s = .next t

/-- The device has not entered fail-stop (18 R457): STATUS is not 0xF. -/
def NotFailed (s : State) : Prop := s.boot.status ≠ 15

/-- Both memories are in their canonical form. -/
def MemOk (s : State) : Prop := Memory.wf s.mem = true ∧ Memory.wf s.hostMem = true

/-- `t` is `s` but for what posting event records changes: event queues, host memory, records dropped or undelivered (03 R72 to R79). -/
def RecordsOnly (s t : State) : Prop :=
  t = { s with hostMem := t.hostMem, eqs := t.eqs, dropped := t.dropped, undelivered := t.undelivered }

/-- `t` is `s` but for what an error does: its counts, and what posting its record changes (18 R455). -/
def ErrorsOnly (s t : State) : Prop :=
  t = { s with regs := t.regs, errors := t.errors, hostMem := t.hostMem, eqs := t.eqs, dropped := t.dropped, undelivered := t.undelivered }

/-- `t` is `s` but for what completing descriptors changes: rings, and what posting records changes (03 R70). -/
def CompletionsOnly (s t : State) : Prop :=
  t = { s with rings := t.rings, hostMem := t.hostMem, eqs := t.eqs, dropped := t.dropped, undelivered := t.undelivered }

/-- A device that shows a final code (16 R422): STATUS 0x8 to 0xF, FAULT_N low, the link and every fabric port down. -/
def FinalCode (s : State) : Prop :=
  8 ≤ s.boot.status ∧ s.boot.status ≤ 15 ∧ s.boot.faultN = false ∧ s.link.up = false ∧ ∀ p, (s.port p).state = 0

/-- COLD_RST_N, the one way out of a final code. -/
def ColdReset : Instr → Prop
  | .coldReset _ => True
  | .coldResetAssert _ => True
  | _ => False

/-- A descriptor that passes the checks common to all opcodes (03 R70) on a device in service, its body's reserved bytes apart: FLAGS,
the header's EPOCH and SESSION of an opcode that names no session, and the kind of ring; and that no earlier descriptor of its ring and session
waits (03 R91). -/
def Admitted (op : Nat) (session : Bool) (d : Desc) (s : State) : Prop :=
  s.ready = true ∧ s.inOrder op d = true ∧ flagsReserved d = true ∧ (session = true ∨ noSession d = true) ∧
  (op ≠ opFence → (isManagementOp op = true ↔ s.ringOwner d.ring = mgmtPath))

/-- A session descriptor that passes the lease and epoch checks (04 R111): this device holds session `y`'s lease for the ring's fold by the
record at hand, no acceptance of it is open, it is not VOID, and the descriptor's EPOCH is the lease's, or the one before it while the own offer stands. -/
def Leased (d : Desc) (y : Sess) (s : State) : Prop :=
  s.sess d.session = some y ∧ y.isOwner = true ∧ y.fold = s.ringOwner d.ring ∧
  ∃ r, y.leaseRecord s.selfNo d.epoch.toNat = some r ∧ r.lease.holder = s.selfNo ∧ r.lease.lstate < 2 ∧
    (r.lease.epoch = d.epoch.toNat ∨ (r.lease.lstate = 1 ∧ r.lease.epoch = d.epoch.toNat + 1))

/-- A session with nothing under way (04 R102): not ACTIVE, not MOVING, no park, revive, turn, close or move. -/
def Resting (y : Sess) : Prop := y.busy = false ∧ isRest y.record.state = true

/-- The sheets of fold `f` at rest: those backed lie in T0 to T2, none marked for a cut, no migration under way, nothing poisoned. -/
def Calm (f : Nat) (s : State) : Prop := (∀ p ∈ (s.fold f).sheets, p.2.tier < 3 ∧ p.2.snap = false) ∧ (s.fold f).migs = [] ∧ s.poison = []

/-- Every sheet of a recall index's area is backed (11 R284). -/
def AreaBacked (x : Index) (s : State) : Prop :=
  ∀ a, x.base ≤ a → a < x.base + 65536 * rclSheets x.dim x.cap → (s.fold x.fold).backed (s.mapIndex x.fold a) = true

/-- Operation `op` is the next of fold `f`'s layer program on pen `n`, is encoded as its row asks, and is not left to another member (06
R161 to R168). -/
def Runs (n : Nat) (op : OpWord) (opcode : Nat) (sub : Option Nat) (f : Nat) (s : State) : Prop :=
  s.ready = true ∧ s.nextOp n = some (f, op) ∧ opValid op = true ∧ opBits op 7 0 = opcode ∧ (∀ k, sub = some k → opSub op = k) ∧
  (bitOf op.toNat 8 = true → s.isRoot f = true)

/-- A fabric request of operation `op` at the device it is for, whose turn it is (13 R350). -/
def Delivered (op : Nat) (p : Packet) (s : State) : Prop := s.ready = true ∧ p.ptype = 0 ∧ p.op = op ∧ s.inTurn p = true

/-- The packet off the inbox. -/
def taken (p : Packet) (s : State) : State := { s with fab := { s.fab with inbox := dropFirst p s.fab.inbox } }

/-- The row of an operation whose result row is f(A, B) element by element, converted to FD (06 R171): where it runs, and its three operands
resolve, it puts those rows and is done. -/
def BinaryRow (row : Nat → OpWord → Instr) (opcode sub : Nat) (g : W32 → W32 → W32) : Prop :=
  ∀ (n : Nat) (op : OpWord) (f : Nat) (s : State) (a b d : Nat) (c : Ctx), c = ⟨f, n, false⟩ → Runs n op opcode (some sub) f s → 1 ≤ opLen op →
    c.operand s op 32 (opLen op) (opFa op) = .ok a → c.operand s op 54 (opLen op) (opFb op) = .ok b →
    c.operand s op 76 (opLen op) (opFd op) = .ok d →
    exec (row n op) s = .next (advance n (c.putVals op d (opFd op) (opLen op) (fun r =>
      (((vecAt s a (opFa op) (opLen op) r).1.zip (vecAt s b (opFb op) (opLen op) r).1).map (fun e => g e.1 e.2),
       (vecAt s a (opFa op) (opLen op) r).2 || (vecAt s b (opFb op) (opLen op) r).2)) s))

/-- The row of an operation whose result row is f(A) element by element, f given the operation's constant (06 R171). -/
def UnaryRow (row : Nat → OpWord → Instr) (opcode sub : Nat) (g : W32 → W32 → W32) : Prop :=
  ∀ (n : Nat) (op : OpWord) (f : Nat) (s : State) (a d : Nat) (c : Ctx), c = ⟨f, n, false⟩ → Runs n op opcode (some sub) f s → 1 ≤ opLen op →
    c.operand s op 32 (opLen op) (opFa op) = .ok a → c.operand s op 76 (opLen op) (opFd op) = .ok d →
    exec (row n op) s = .next (advance n (c.putVals op d (opFd op) (opLen op) (fun r =>
      ((vecAt s a (opFa op) (opLen op) r).1.map (fun v => g v (c.const s op)), (vecAt s a (opFa op) (opLen op) r).2)) s))

/-- The row of a reduction: one 32-bit value a row, in a 64-byte row of D (06 R171). -/
def ScalarRow (row : Nat → OpWord → Instr) (sub : Nat) (g : List W32 → W32) : Prop :=
  ∀ (n : Nat) (op : OpWord) (f : Nat) (s : State) (a d : Nat) (c : Ctx), c = ⟨f, n, false⟩ → Runs n op 0x21 (some sub) f s → 1 ≤ opLen op →
    c.operand s op 32 (opLen op) (opFa op) = .ok a → c.operand s op 76 1 0 = .ok d →
    exec (row n op) s = .next (advance n (c.putRows d 64 (fun r =>
      (leBytes 4 (g (vecAt s a (opFa op) (opLen op) r).1).toNat, (vecAt s a (opFa op) (opLen op) r).2)) s))

/-- The rows of ROPE (06 R172): every head of every row rotated at the row's position. -/
def RopeRow (row : Nat → OpWord → Instr) (sub : Nat) (adjacent : Bool) : Prop :=
  ∀ (n : Nat) (op : OpWord) (f : Nat) (s : State) (a d heads hd rot : Nat) (c : Ctx), c = ⟨f, n, false⟩ → Runs n op 0x24 (some sub) f s →
    heads = opBits op 63 54 → hd = opBits op 72 64 → rot = opBits op 106 98 → 1 ≤ heads → heads ≤ 256 → hd ∈ [64, 96, 128, 192, 256] →
    rot % 2 = 0 → 2 ≤ rot → rot ≤ hd → c.operand s op 32 (heads * hd) (opFa op) = .ok a → c.operand s op 76 (heads * hd) (opFd op) = .ok d →
    exec (row n op) s = .next (advance n (c.putVals op d (opFd op) (heads * hd) (fun r =>
      ((chunksOf hd (vecAt s a (opFa op) (heads * hd) r).1).flatMap
         (ropeHead adjacent rot (((c.rows s)[r]?).elim 0 (·.position)) (c.const s op)), (vecAt s a (opFa op) (heads * hd) r).2)) s))

/-- The rows of ROUTE (06 R173): K slots of expert and weight a row, and the routing kept for the MMA and the combine that follow. -/
def RouteRow (row : Nat → OpWord → Instr) (sub : Nat) : Prop :=
  ∀ (n : Nat) (op : OpWord) (f : Nat) (s : State) (a d k e : Nat) (c : Ctx), c = ⟨f, n, false⟩ → Runs n op 0x38 (some sub) f s →
    k = opBits op 57 54 → e = opLen op → 1 ≤ k → k ≤ 8 → k ≤ e → e ≤ 256 → c.operand s op 32 e 0 = .ok a →
    c.oa s (opBits op 97 76) ((c.rows s).length * 64) = .ok d →
    exec (row n op) s = .next (advance n ((c.putRows d 64 (fun r =>
      ((routeRow sub k (vecAt s a 0 e r).1).flatMap (fun w => leBytes 1 w.1 ++ zerosB 3 ++ leBytes 4 w.2.toNat), (vecAt s a 0 e r).2))
      s).modPen n (fun p => { p with route := some (d, k) })))

/-- A row that runs what `body` gives, where that is no program fault. -/
def BodyRow (row : Nat → OpWord → Instr) (opcode : Nat) (sub : Option Nat) (body : OpWord → Ctx → State → Except Nat State) : Prop :=
  ∀ (n : Nat) (op : OpWord) (f : Nat) (s t : State), Runs n op opcode sub f s → body op ⟨f, n, false⟩ s = .ok t →
    exec (row n op) s = .next (advance n t)

end Sys2Proof.Safety
end

