-- ==== Sys2Proof/Laws/Service.lean ====
section
/-! SUPPORT. What the shared operations do: service, the common checks of a descriptor, the lease checks, event records, completions, issue
of an operation. Each is stated once; the claims cite these lemmas and unfold nothing. -/
namespace Sys2Proof.Safety
open Sys2Proof.Machine

theorem RecordsOnly.refl (s : State) : RecordsOnly s s := rfl
theorem CompletionsOnly.refl (s : State) : CompletionsOnly s s := rfl
theorem RecordsOnly.trans {s t u : State} (h : RecordsOnly s t) (k : RecordsOnly t u) : RecordsOnly s u := by
  cases s; cases t; cases u; simp_all [RecordsOnly]
theorem CompletionsOnly.trans {s t u : State} (h : CompletionsOnly s t) (k : CompletionsOnly t u) : CompletionsOnly s u := by
  cases s; cases t; cases u; simp_all [CompletionsOnly]
theorem RecordsOnly.weaken {s t : State} (h : RecordsOnly s t) : CompletionsOnly s t := by
  cases s; cases t; simp_all [RecordsOnly, CompletionsOnly]

theorem ErrorsOnly.trans {s t u : State} (h : ErrorsOnly s t) (k : ErrorsOnly t u) : ErrorsOnly s u := by
  cases s; cases t; cases u; simp_all [ErrorsOnly]
theorem RecordsOnly.errors {s t : State} (h : RecordsOnly s t) : ErrorsOnly s t := by
  cases s; cases t; simp_all [RecordsOnly, ErrorsOnly]

/-- The lease checks see nothing of the ring. -/
theorem Leased.begin {d : Desc} {y : Sess} {s : State} (h : Leased d y s) (op : Nat) : Leased d y (beginDesc op d s) := h

end Sys2Proof.Safety

namespace Sys2Proof.Machine
open Sys2Proof.Safety

/-! ### Service -/

theorem serve_ready {s : State} (f : State → State) (h : s.ready = true) : serve s f = f s := by simp [serve, h]
theorem serve_not_ready {s : State} (f : State → State) (h : s.ready = false) : serve s f = s := by simp [serve, h]
theorem not_ready_of_final {s : State} (h : 8 ≤ s.boot.status) : s.ready = false := by simp [State.ready]; omega
@[simp] theorem onlyIf_true (s t : State) : onlyIf true s t = t := rfl
@[simp] theorem onlyIf_false (s t : State) : onlyIf false s t = s := rfl
@[simp] theorem andThen_ok {α β : Type} (a : α) (f : α → Tried β) : andThen (.ok a) f = f a := rfl
@[simp] theorem andThen_error {α β : Type} (e : W16 × State) (f : α → Tried β) : andThen (.error e) f = .error e := rfl

/-! ### Event records (03 R72 to R79): only queues, host memory, the record counts and the undelivered records change -/

theorem hostWrite_records (s : State) (o a : Nat) (l : List Byte) : RecordsOnly s (s.hostWrite o a l) := by
  unfold State.hostWrite; split
  · rw [State.linkWrite_eq]; split <;> rfl
  · rfl

theorem writeRecord_records (q : Nat) (e : EventRec) (s : State) : RecordsOnly s (writeRecord q e s) :=
  (hostWrite_records s _ _ _).trans rfl

theorem keepRecord_records (q : Nat) (e : EventRec) (s : State) : RecordsOnly s (keepRecord q e s) := by
  unfold keepRecord; dsimp only; split
  · rfl
  · split <;> rfl

/-- A record posted to a queue changes nothing else. -/
theorem postTo_records (q : Nat) (e : EventRec) (s : State) : RecordsOnly s (postTo q e s) := by
  unfold postTo; split
  · rfl
  · split
    · exact writeRecord_records q e s
    · exact keepRecord_records q e s

theorem postOwner_records (o : Nat) (e : EventRec) (s : State) : RecordsOnly s (postOwner o e s) := by
  unfold postOwner; split
  · exact postTo_records _ e s
  · rfl

theorem postFold_records (t f : Nat) (st fl : W16) (sp : List Byte) (s : State) : RecordsOnly s (postFold t f st fl sp s) := postOwner_records _ _ _
theorem postDevice_records (t : Nat) (st fl : W16) (sp : List Byte) (s : State) : RecordsOnly s (postDevice t st fl sp s) := postOwner_records _ _ _
theorem postCompletion_records (op : Nat) (d : Desc) (st fl : W16) (sp : List Byte) (s : State) : RecordsOnly s (postCompletion op d st fl sp s) :=
  postTo_records _ _ _

/-! ### Errors (18 R455): counts and the record -/

theorem count_errors (s : State) (k n : Nat) : ErrorsOnly s (s.count k n) := by unfold State.count; split <;> rfl
theorem errorCorrected_errors (f : Option Nat) (source unit detail n : Nat) (s : State) : ErrorsOnly s (errorCorrected f source unit detail n s) := by
  have kept (e : NMap CeUnit) : ErrorsOnly s { s.count rSysErrCeTotal n with errors := e } :=
    ErrorsOnly.trans (count_errors s rSysErrCeTotal n) (show ErrorsOnly (s.count rSysErrCeTotal n) _ from rfl)
  unfold errorCorrected
  by_cases h : n = 0
  · rw [if_pos h]; rfl
  · rw [if_neg h]; extract_lets key u s₁ due spec
    by_cases hd : due = true
    · rw [if_pos hd]
      cases f with
      | none => exact (kept _).trans (postDevice_records _ _ _ _ _).errors
      | some f => exact (kept _).trans (postFold_records _ _ _ _ _ _).errors
    · rw [if_neg hd]; exact kept _
theorem errorUncorrected_errors (f : Option Nat) (source unit detail sheet extra : Nat) (s : State) :
    ErrorsOnly s (errorUncorrected f source unit detail sheet extra s) := by
  unfold errorUncorrected; dsimp only; split
  · exact ErrorsOnly.trans (count_errors s _ _) (postFold_records _ _ _ _ _ _).errors
  · exact ErrorsOnly.trans (count_errors s _ _) (postDevice_records _ _ _ _ _).errors

theorem settleRing_completions (r : Nat) (s : State) : CompletionsOnly s (settleRing r s) := by
  unfold settleRing; dsimp only; split <;> rfl

theorem settleFence_completions (r : Nat) (s : State) : CompletionsOnly s (settleFence r s) := by
  unfold settleFence; dsimp only; split
  · split
    · refine CompletionsOnly.trans ?_ (settleRing_completions r _)
      have h : CompletionsOnly s (s.modRing r (fun y => { y with fence := none })) := rfl
      split
      · exact h
      · exact h.trans (postCompletion_records _ _ _ _ _ _).weaken
    · rfl
  · rfl

/-- A descriptor that completes changes its ring, its queue, host memory and the record counts, nothing else (03 R70). -/
theorem completeAs_completions (op : Nat) (d : Desc) (x : W64) (st fl : W16) (sp : List Byte) (s : State) :
    CompletionsOnly s (completeAs op d x st fl sp s) := by
  unfold completeAs; dsimp only
  refine CompletionsOnly.trans ?_ (settleFence_completions _ _)
  refine CompletionsOnly.trans ?_ (settleRing_completions _ _)
  have h : CompletionsOnly s (s.modRing d.ring (fun y => { y with inflight := dropFirst (op, d) y.inflight })) := rfl
  split
  · exact h
  · exact h.trans (postCompletion_records _ _ _ _ _ _).weaken

theorem complete_completions (op : Nat) (d : Desc) (st fl : W16) (sp : List Byte) (s : State) : CompletionsOnly s (complete op d st fl sp s) :=
  completeAs_completions op d d.session st fl sp s

@[simp] theorem completeAs_pending (op : Nat) (d : Desc) (x : W64) (st fl : W16) (sp : List Byte) (s : State) : (completeAs op d x st fl sp s).pending = s.pending := by rw [completeAs_completions op d x st fl sp s]
@[simp] theorem completeAs_freeCount (op : Nat) (d : Desc) (x : W64) (st fl : W16) (sp : List Byte) (s : State) : (completeAs op d x st fl sp s).freeCount = s.freeCount := by rw [completeAs_completions op d x st fl sp s]
@[simp] theorem completeAs_timer (op : Nat) (d : Desc) (x : W64) (st fl : W16) (sp : List Byte) (s : State) : (completeAs op d x st fl sp s).timer = s.timer := by rw [completeAs_completions op d x st fl sp s]
@[simp] theorem completeAs_regs (op : Nat) (d : Desc) (x : W64) (st fl : W16) (sp : List Byte) (s : State) : (completeAs op d x st fl sp s).regs = s.regs := by rw [completeAs_completions op d x st fl sp s]
@[simp] theorem completeAs_mem (op : Nat) (d : Desc) (x : W64) (st fl : W16) (sp : List Byte) (s : State) : (completeAs op d x st fl sp s).mem = s.mem := by rw [completeAs_completions op d x st fl sp s]
@[simp] theorem completeAs_poison (op : Nat) (d : Desc) (x : W64) (st fl : W16) (sp : List Byte) (s : State) : (completeAs op d x st fl sp s).poison = s.poison := by rw [completeAs_completions op d x st fl sp s]
@[simp] theorem completeAs_link (op : Nat) (d : Desc) (x : W64) (st fl : W16) (sp : List Byte) (s : State) : (completeAs op d x st fl sp s).link = s.link := by rw [completeAs_completions op d x st fl sp s]
@[simp] theorem completeAs_readData (op : Nat) (d : Desc) (x : W64) (st fl : W16) (sp : List Byte) (s : State) : (completeAs op d x st fl sp s).readData = s.readData := by rw [completeAs_completions op d x st fl sp s]
@[simp] theorem completeAs_sessions (op : Nat) (d : Desc) (x : W64) (st fl : W16) (sp : List Byte) (s : State) : (completeAs op d x st fl sp s).sessions = s.sessions := by rw [completeAs_completions op d x st fl sp s]
@[simp] theorem completeAs_folds (op : Nat) (d : Desc) (x : W64) (st fl : W16) (sp : List Byte) (s : State) : (completeAs op d x st fl sp s).folds = s.folds := by rw [completeAs_completions op d x st fl sp s]
@[simp] theorem completeAs_pens (op : Nat) (d : Desc) (x : W64) (st fl : W16) (sp : List Byte) (s : State) : (completeAs op d x st fl sp s).pens = s.pens := by rw [completeAs_completions op d x st fl sp s]
@[simp] theorem completeAs_tally (op : Nat) (d : Desc) (x : W64) (st fl : W16) (sp : List Byte) (s : State) : (completeAs op d x st fl sp s).tally = s.tally := by rw [completeAs_completions op d x st fl sp s]
@[simp] theorem completeAs_fab (op : Nat) (d : Desc) (x : W64) (st fl : W16) (sp : List Byte) (s : State) : (completeAs op d x st fl sp s).fab = s.fab := by rw [completeAs_completions op d x st fl sp s]
@[simp] theorem completeAs_sec (op : Nat) (d : Desc) (x : W64) (st fl : W16) (sp : List Byte) (s : State) : (completeAs op d x st fl sp s).sec = s.sec := by rw [completeAs_completions op d x st fl sp s]
@[simp] theorem completeAs_boot (op : Nat) (d : Desc) (x : W64) (st fl : W16) (sp : List Byte) (s : State) : (completeAs op d x st fl sp s).boot = s.boot := by rw [completeAs_completions op d x st fl sp s]
@[simp] theorem completeAs_power (op : Nat) (d : Desc) (x : W64) (st fl : W16) (sp : List Byte) (s : State) : (completeAs op d x st fl sp s).power = s.power := by rw [completeAs_completions op d x st fl sp s]
@[simp] theorem completeAs_errors (op : Nat) (d : Desc) (x : W64) (st fl : W16) (sp : List Byte) (s : State) : (completeAs op d x st fl sp s).errors = s.errors := by rw [completeAs_completions op d x st fl sp s]
@[simp] theorem completeAs_i3c (op : Nat) (d : Desc) (x : W64) (st fl : W16) (sp : List Byte) (s : State) : (completeAs op d x st fl sp s).i3c = s.i3c := by rw [completeAs_completions op d x st fl sp s]
@[simp] theorem completeAs_tap (op : Nat) (d : Desc) (x : W64) (st fl : W16) (sp : List Byte) (s : State) : (completeAs op d x st fl sp s).tap = s.tap := by rw [completeAs_completions op d x st fl sp s]
@[simp] theorem complete_pending (op : Nat) (d : Desc) (st fl : W16) (sp : List Byte) (s : State) : (complete op d st fl sp s).pending = s.pending := by rw [complete_completions op d st fl sp s]
@[simp] theorem complete_freeCount (op : Nat) (d : Desc) (st fl : W16) (sp : List Byte) (s : State) : (complete op d st fl sp s).freeCount = s.freeCount := by rw [complete_completions op d st fl sp s]
@[simp] theorem complete_timer (op : Nat) (d : Desc) (st fl : W16) (sp : List Byte) (s : State) : (complete op d st fl sp s).timer = s.timer := by rw [complete_completions op d st fl sp s]
@[simp] theorem complete_regs (op : Nat) (d : Desc) (st fl : W16) (sp : List Byte) (s : State) : (complete op d st fl sp s).regs = s.regs := by rw [complete_completions op d st fl sp s]
@[simp] theorem complete_mem (op : Nat) (d : Desc) (st fl : W16) (sp : List Byte) (s : State) : (complete op d st fl sp s).mem = s.mem := by rw [complete_completions op d st fl sp s]
@[simp] theorem complete_poison (op : Nat) (d : Desc) (st fl : W16) (sp : List Byte) (s : State) : (complete op d st fl sp s).poison = s.poison := by rw [complete_completions op d st fl sp s]
@[simp] theorem complete_link (op : Nat) (d : Desc) (st fl : W16) (sp : List Byte) (s : State) : (complete op d st fl sp s).link = s.link := by rw [complete_completions op d st fl sp s]
@[simp] theorem complete_readData (op : Nat) (d : Desc) (st fl : W16) (sp : List Byte) (s : State) : (complete op d st fl sp s).readData = s.readData := by rw [complete_completions op d st fl sp s]
@[simp] theorem complete_sessions (op : Nat) (d : Desc) (st fl : W16) (sp : List Byte) (s : State) : (complete op d st fl sp s).sessions = s.sessions := by rw [complete_completions op d st fl sp s]
@[simp] theorem complete_folds (op : Nat) (d : Desc) (st fl : W16) (sp : List Byte) (s : State) : (complete op d st fl sp s).folds = s.folds := by rw [complete_completions op d st fl sp s]
@[simp] theorem complete_pens (op : Nat) (d : Desc) (st fl : W16) (sp : List Byte) (s : State) : (complete op d st fl sp s).pens = s.pens := by rw [complete_completions op d st fl sp s]
@[simp] theorem complete_tally (op : Nat) (d : Desc) (st fl : W16) (sp : List Byte) (s : State) : (complete op d st fl sp s).tally = s.tally := by rw [complete_completions op d st fl sp s]
@[simp] theorem complete_fab (op : Nat) (d : Desc) (st fl : W16) (sp : List Byte) (s : State) : (complete op d st fl sp s).fab = s.fab := by rw [complete_completions op d st fl sp s]
@[simp] theorem complete_sec (op : Nat) (d : Desc) (st fl : W16) (sp : List Byte) (s : State) : (complete op d st fl sp s).sec = s.sec := by rw [complete_completions op d st fl sp s]
@[simp] theorem complete_boot (op : Nat) (d : Desc) (st fl : W16) (sp : List Byte) (s : State) : (complete op d st fl sp s).boot = s.boot := by rw [complete_completions op d st fl sp s]
@[simp] theorem complete_power (op : Nat) (d : Desc) (st fl : W16) (sp : List Byte) (s : State) : (complete op d st fl sp s).power = s.power := by rw [complete_completions op d st fl sp s]
@[simp] theorem complete_errors (op : Nat) (d : Desc) (st fl : W16) (sp : List Byte) (s : State) : (complete op d st fl sp s).errors = s.errors := by rw [complete_completions op d st fl sp s]
@[simp] theorem complete_i3c (op : Nat) (d : Desc) (st fl : W16) (sp : List Byte) (s : State) : (complete op d st fl sp s).i3c = s.i3c := by rw [complete_completions op d st fl sp s]
@[simp] theorem complete_tap (op : Nat) (d : Desc) (st fl : W16) (sp : List Byte) (s : State) : (complete op d st fl sp s).tap = s.tap := by rw [complete_completions op d st fl sp s]
@[simp] theorem postFold_pending (t f : Nat) (st fl : W16) (sp : List Byte) (s : State) : (postFold t f st fl sp s).pending = s.pending := by rw [postFold_records t f st fl sp s]
@[simp] theorem postFold_freeCount (t f : Nat) (st fl : W16) (sp : List Byte) (s : State) : (postFold t f st fl sp s).freeCount = s.freeCount := by rw [postFold_records t f st fl sp s]
@[simp] theorem postFold_timer (t f : Nat) (st fl : W16) (sp : List Byte) (s : State) : (postFold t f st fl sp s).timer = s.timer := by rw [postFold_records t f st fl sp s]
@[simp] theorem postFold_regs (t f : Nat) (st fl : W16) (sp : List Byte) (s : State) : (postFold t f st fl sp s).regs = s.regs := by rw [postFold_records t f st fl sp s]
@[simp] theorem postFold_mem (t f : Nat) (st fl : W16) (sp : List Byte) (s : State) : (postFold t f st fl sp s).mem = s.mem := by rw [postFold_records t f st fl sp s]
@[simp] theorem postFold_poison (t f : Nat) (st fl : W16) (sp : List Byte) (s : State) : (postFold t f st fl sp s).poison = s.poison := by rw [postFold_records t f st fl sp s]
@[simp] theorem postFold_link (t f : Nat) (st fl : W16) (sp : List Byte) (s : State) : (postFold t f st fl sp s).link = s.link := by rw [postFold_records t f st fl sp s]
@[simp] theorem postFold_readData (t f : Nat) (st fl : W16) (sp : List Byte) (s : State) : (postFold t f st fl sp s).readData = s.readData := by rw [postFold_records t f st fl sp s]
@[simp] theorem postFold_sessions (t f : Nat) (st fl : W16) (sp : List Byte) (s : State) : (postFold t f st fl sp s).sessions = s.sessions := by rw [postFold_records t f st fl sp s]
@[simp] theorem postFold_folds (t f : Nat) (st fl : W16) (sp : List Byte) (s : State) : (postFold t f st fl sp s).folds = s.folds := by rw [postFold_records t f st fl sp s]
@[simp] theorem postFold_pens (t f : Nat) (st fl : W16) (sp : List Byte) (s : State) : (postFold t f st fl sp s).pens = s.pens := by rw [postFold_records t f st fl sp s]
@[simp] theorem postFold_tally (t f : Nat) (st fl : W16) (sp : List Byte) (s : State) : (postFold t f st fl sp s).tally = s.tally := by rw [postFold_records t f st fl sp s]
@[simp] theorem postFold_fab (t f : Nat) (st fl : W16) (sp : List Byte) (s : State) : (postFold t f st fl sp s).fab = s.fab := by rw [postFold_records t f st fl sp s]
@[simp] theorem postFold_sec (t f : Nat) (st fl : W16) (sp : List Byte) (s : State) : (postFold t f st fl sp s).sec = s.sec := by rw [postFold_records t f st fl sp s]
@[simp] theorem postFold_boot (t f : Nat) (st fl : W16) (sp : List Byte) (s : State) : (postFold t f st fl sp s).boot = s.boot := by rw [postFold_records t f st fl sp s]
@[simp] theorem postFold_power (t f : Nat) (st fl : W16) (sp : List Byte) (s : State) : (postFold t f st fl sp s).power = s.power := by rw [postFold_records t f st fl sp s]
@[simp] theorem postFold_errors (t f : Nat) (st fl : W16) (sp : List Byte) (s : State) : (postFold t f st fl sp s).errors = s.errors := by rw [postFold_records t f st fl sp s]
@[simp] theorem postFold_i3c (t f : Nat) (st fl : W16) (sp : List Byte) (s : State) : (postFold t f st fl sp s).i3c = s.i3c := by rw [postFold_records t f st fl sp s]
@[simp] theorem postFold_tap (t f : Nat) (st fl : W16) (sp : List Byte) (s : State) : (postFold t f st fl sp s).tap = s.tap := by rw [postFold_records t f st fl sp s]
@[simp] theorem postFold_rings (t f : Nat) (st fl : W16) (sp : List Byte) (s : State) : (postFold t f st fl sp s).rings = s.rings := by rw [postFold_records t f st fl sp s]
@[simp] theorem postDevice_pending (t : Nat) (st fl : W16) (sp : List Byte) (s : State) : (postDevice t st fl sp s).pending = s.pending := by rw [postDevice_records t st fl sp s]
@[simp] theorem postDevice_freeCount (t : Nat) (st fl : W16) (sp : List Byte) (s : State) : (postDevice t st fl sp s).freeCount = s.freeCount := by rw [postDevice_records t st fl sp s]
@[simp] theorem postDevice_timer (t : Nat) (st fl : W16) (sp : List Byte) (s : State) : (postDevice t st fl sp s).timer = s.timer := by rw [postDevice_records t st fl sp s]
@[simp] theorem postDevice_regs (t : Nat) (st fl : W16) (sp : List Byte) (s : State) : (postDevice t st fl sp s).regs = s.regs := by rw [postDevice_records t st fl sp s]
@[simp] theorem postDevice_mem (t : Nat) (st fl : W16) (sp : List Byte) (s : State) : (postDevice t st fl sp s).mem = s.mem := by rw [postDevice_records t st fl sp s]
@[simp] theorem postDevice_poison (t : Nat) (st fl : W16) (sp : List Byte) (s : State) : (postDevice t st fl sp s).poison = s.poison := by rw [postDevice_records t st fl sp s]
@[simp] theorem postDevice_link (t : Nat) (st fl : W16) (sp : List Byte) (s : State) : (postDevice t st fl sp s).link = s.link := by rw [postDevice_records t st fl sp s]
@[simp] theorem postDevice_readData (t : Nat) (st fl : W16) (sp : List Byte) (s : State) : (postDevice t st fl sp s).readData = s.readData := by rw [postDevice_records t st fl sp s]
@[simp] theorem postDevice_sessions (t : Nat) (st fl : W16) (sp : List Byte) (s : State) : (postDevice t st fl sp s).sessions = s.sessions := by rw [postDevice_records t st fl sp s]
@[simp] theorem postDevice_folds (t : Nat) (st fl : W16) (sp : List Byte) (s : State) : (postDevice t st fl sp s).folds = s.folds := by rw [postDevice_records t st fl sp s]
@[simp] theorem postDevice_pens (t : Nat) (st fl : W16) (sp : List Byte) (s : State) : (postDevice t st fl sp s).pens = s.pens := by rw [postDevice_records t st fl sp s]
@[simp] theorem postDevice_tally (t : Nat) (st fl : W16) (sp : List Byte) (s : State) : (postDevice t st fl sp s).tally = s.tally := by rw [postDevice_records t st fl sp s]
@[simp] theorem postDevice_fab (t : Nat) (st fl : W16) (sp : List Byte) (s : State) : (postDevice t st fl sp s).fab = s.fab := by rw [postDevice_records t st fl sp s]
@[simp] theorem postDevice_sec (t : Nat) (st fl : W16) (sp : List Byte) (s : State) : (postDevice t st fl sp s).sec = s.sec := by rw [postDevice_records t st fl sp s]
@[simp] theorem postDevice_boot (t : Nat) (st fl : W16) (sp : List Byte) (s : State) : (postDevice t st fl sp s).boot = s.boot := by rw [postDevice_records t st fl sp s]
@[simp] theorem postDevice_power (t : Nat) (st fl : W16) (sp : List Byte) (s : State) : (postDevice t st fl sp s).power = s.power := by rw [postDevice_records t st fl sp s]
@[simp] theorem postDevice_errors (t : Nat) (st fl : W16) (sp : List Byte) (s : State) : (postDevice t st fl sp s).errors = s.errors := by rw [postDevice_records t st fl sp s]
@[simp] theorem postDevice_i3c (t : Nat) (st fl : W16) (sp : List Byte) (s : State) : (postDevice t st fl sp s).i3c = s.i3c := by rw [postDevice_records t st fl sp s]
@[simp] theorem postDevice_tap (t : Nat) (st fl : W16) (sp : List Byte) (s : State) : (postDevice t st fl sp s).tap = s.tap := by rw [postDevice_records t st fl sp s]
@[simp] theorem postDevice_rings (t : Nat) (st fl : W16) (sp : List Byte) (s : State) : (postDevice t st fl sp s).rings = s.rings := by rw [postDevice_records t st fl sp s]

/-! ### The common checks (03 R70) and the lease checks (04 R111, R112) -/

@[simp] theorem beginDesc_ringOwner (op : Nat) (d : Desc) (s : State) (r : Nat) : (beginDesc op d s).ringOwner r = s.ringOwner r := rfl
@[simp] theorem beginDesc_sess (op : Nat) (d : Desc) (s : State) (x : W64) : (beginDesc op d s).sess x = s.sess x := rfl
@[simp] theorem beginDesc_fold (op : Nat) (d : Desc) (s : State) (f : Nat) : (beginDesc op d s).fold f = s.fold f := rfl
@[simp] theorem beginDesc_selfNo (op : Nat) (d : Desc) (s : State) : (beginDesc op d s).selfNo = s.selfNo := rfl

theorem descriptorAs_guard {op : Nat} {ses : Bool} {d : Desc} {s : State} (h : Admitted op ses d s) :
    (!flagsReserved d || !true || !(ses || noSession d)) = false ∧
    (op != opFence && (isManagementOp op != decide ((beginDesc op d s).ringOwner d.ring = mgmtPath))) = false := by
  obtain ⟨-, -, h1, h2, h3⟩ := h
  refine ⟨by rcases h2 with h2 | h2 <;> simp [h1, h2], ?_⟩
  by_cases hf : op = opFence
  · simp [hf]
  · have k := h3 hf
    by_cases e : s.ringOwner d.ring = mgmtPath
    · simp [e, k.2 e]
    · have m : isManagementOp op = false := Bool.eq_false_iff.2 (fun h => e (k.1 h))
      simp [e, m]

/-- Past the common checks an opcode's own part decides: performed, -/
theorem descriptorAs_ok {op : Nat} {ses : Bool} {d : Desc} {s t : State} (h : Admitted op ses d s) (early : State → List Byte)
    (body : State → Tried State) (k : body (beginDesc op d s) = .ok t) : descriptorAs op true ses early d body s = t := by
  obtain ⟨h1, h2⟩ := descriptorAs_guard h
  unfold descriptorAs
  simp only [h.2.1, h1, h2, k]
  rfl

/-- The same where the opcode's own part never refuses. -/
theorem descriptorAs_total {op : Nat} {ses : Bool} {d : Desc} {s : State} (h : Admitted op ses d s) (early : State → List Byte)
    (g : State → State) : descriptorAs op true ses early d (fun s => .ok (g s)) s = g (beginDesc op d s) := descriptorAs_ok h early _ rfl

/-- or refused with a status. -/
theorem descriptorAs_error {op : Nat} {ses : Bool} {d : Desc} {s : State} {e : W16 × State} (h : Admitted op ses d s)
    (early : State → List Byte) (body : State → Tried State) (k : body (beginDesc op d s) = .error e) :
    descriptorAs op true ses early d body s = complete op d e.1 0 (early e.2) e.2 := by
  obtain ⟨h1, h2⟩ := descriptorAs_guard h
  unfold descriptorAs
  simp only [h.2.1, h1, h2, k]
  rfl

/-- Past the lease checks the opcode's own part decides. -/
theorem withLease_leased {d : Desc} {y : Sess} {s : State} (h : Leased d y s) (op : Nat) (bad : State → List Byte)
    (go : Sess → State → State) : withLease op d bad go s = go y s := by
  obtain ⟨h1, h2, h3, r, h4, h5, h6, h7⟩ := h
  unfold withLease
  rw [h1, Option.bind_some, h4]
  dsimp only
  unfold judgeLease
  rw [h1]
  dsimp only
  rw [if_neg (by simp [h5, h2, h3, State.descFold]; omega), if_neg (by rcases h7 with h | ⟨h, h'⟩ <;> simp [*]), if_neg (by simp; omega)]

/-! ### Issue of an operation (06 R161 to R168) -/

theorem issue_runs {n : Nat} {op : OpWord} {opcode : Nat} {sub : Option Nat} {f : Nat} {s : State} (h : Runs n op opcode sub f s)
    (go : Ctx → State → State) : issue opcode sub n op go s = go ⟨f, n, false⟩ s := by
  obtain ⟨-, h1, h2, h3, h4, h5⟩ := h
  unfold issue
  rw [h1]
  dsimp only
  rw [if_neg (by simp), if_neg (by simp [h2])]
  have e4 : sub.any (fun k => k != opSub op) = false := by cases sub <;> simp_all
  rw [if_neg (by simp [h3, e4]), if_neg (by simp; exact h5)]

end Sys2Proof.Machine
end

