-- ==== Sys2Proof/WellFormed.lean ====
section
/-! DEFINITION. Which commands can be spelt at all: every operand within the range its field, its unit or its table gives it. A command that is not
well formed names something the device does not have; `exec` gives every command a meaning, well formed or not. -/
namespace Sys2Proof

/-- A descriptor that one of the 4,096 rings carries: 64 bytes, 48 of them after the header (03 R66, R69). -/
def Desc.wellFormed (d : Desc) : Bool := decide (d.ring < 4096) && d.body.length == 48

/-- A packet whose fields fit the header of 13 Table 13-1 and whose payload is at most 4,096 bytes (13 R339). -/
def Packet.wellFormed (p : Packet) : Bool :=
  decide (p.ptype < 16) && decide (p.rev < 16) && decide (p.op < 256) && decide (p.hops < 8) && decide (p.queue < 16) &&
  decide (p.dst < 2 ^ 18) && decide (p.src < 2 ^ 18) && decide (p.issuer < 256) && decide (p.addr < 2 ^ 46) && decide (p.len < 2 ^ 24) &&
  decide (p.frag < 2 ^ 12) && decide (p.payload.length ≤ 4096)

/-- One sequence's part of a commit record: one of the table's 32,768 entries (05 R125), at most 8 proposals of which `a` are accepted (09 R244),
at most one dry token more, a reason of 04 Table 4-10, one of 16 stop strings. -/
def SeqVerdict.wellFormed (v : SeqVerdict) : Bool :=
  decide (v.dseq < 32768) && decide (v.k ≤ 8) && decide (v.a ≤ v.k) && decide (v.dry.length ≤ 9) && v.dry.all (fun t => decide (t.token < 2 ^ 18)) &&
  v.ending.all (fun e => decide (e < 9)) && decide (v.stopIndex < 16)

/-- What a neighbour announces in training (13 R363): a revision and a lowest revision of 4 bits, a device, one of 18 ports. -/
def PortTrain.wellFormed (t : PortTrain) : Bool :=
  decide (t.rev < 16) && decide (t.minRev < 16) && decide (t.device < 2 ^ 18) && decide (t.port < 18) && t.credits.length == 4

/-- Findings on one of the 256 HBM channels (02 R19), in sheet space. -/
def ScrubFinding.wellFormed (x : ScrubFinding) : Bool := decide (x.channel < 256) && x.bad.all (fun u => decide (u < 0x300000000000 / 64))

/-- A decoding outcome that names one of at most 15 retry entries (12 R316, NFC_MEDIA). -/
def CwOutcome.wellFormed : CwOutcome → Bool
  | .retry e => decide (e < 16)
  | .clean => true
  | .hard => true
  | .soft => true
  | .uncorrectable => true

/-- A failed check of 16 Table 16-4 and a unit that its order tests: orders 2 and 4 units 0 to 74, order 5 signatures 0 to 2, order 6 pens, order 7
ports and lane groups, order 8 stacks, order 9 channels. -/
def SelfTestFailure.wellFormed (x : SelfTestFailure) : Bool :=
  if x.order = 1 || x.order = 3 then true
  else if x.order = 2 || x.order = 4 then decide (x.unit < 75)
  else if x.order = 5 then decide (x.unit < 3)
  else if x.order = 6 then decide (x.unit < 64)
  else if x.order = 7 then decide (x.unit < 20)
  else if x.order = 8 then decide (x.unit < 8)
  else x.order == 9 && decide (x.unit < 16)

/-- What a cold start meets: 6 strap pins, failures the self-test can find, the seven boot stages of 15 Table 15-4, 16 flash channels of 8 chip enables. -/
def BootInputs.wellFormed (b : BootInputs) : Bool :=
  decide (b.strap < 64) && b.failures.all SelfTestFailure.wellFormed && decide (b.stages.length ≤ 7) && b.chipEnables.length == 16 &&
  b.chipEnables.all (fun c => decide (c < 256)) && b.chipEnablesFenced.length == 16 && b.chipEnablesFenced.all (fun c => decide (c < 256))

/-- Who accesses a register: a fold's client, or 0x7F for the management path (03 R62). -/
def requesterOk (r : Nat) : Bool := decide (r < 64) || r == 0x7F

/-- A register access of 1 to 8 bytes in the 32 MiB register window; which widths and alignments count, 19 R469 says. -/
def accessOk (offset size : Nat) : Bool := decide (1 ≤ size) && decide (size ≤ 8) && decide (offset < 0x2000000)

/-- A fold of the 64, a pen of the 64, a port of the 18 (00 R2, R6; 13 R331). -/
def foldOk (f : Nat) : Bool := decide (f < 64)
def penOk (n : Nat) : Bool := decide (n < 64)
def portOk (p : Nat) : Bool := decide (p < 18)
/-- One of the 256 event queues and of the 4,096 rings (03 R66, R72). -/
def queueOk (q : Nat) : Bool := decide (q < 256)
def ringOk (r : Nat) : Bool := decide (r < 4096)
/-- One of the register blocks below the pens' pages (19 Table 19-1) and of the 106 ladder blocks (17 Table 17-2). -/
def commitBlockOk (b : Nat) : Bool := decide (b < 21)
def ladderOk (b : Nat) : Bool := decide (b < 106)
/-- A 7-bit I3C address (20 R497). -/
def i3cOk (a : Nat) : Bool := decide (a < 128)

/-- Whether a command can be spelt. -/
def Instr.wellFormed : Instr → Bool
  | .sessionOpen d => d.wellFormed
  | .sessionClose d => d.wellFormed
  | .turnSubmit d => d.wellFormed
  | .toolResult d => d.wellFormed
  | .turnCancel d => d.wellFormed
  | .streamResend d => d.wellFormed
  | .sessionPark d => d.wellFormed
  | .sessionRevive d => d.wellFormed
  | .sessionRecover d => d.wellFormed
  | .sessionMoveOffer d => d.wellFormed
  | .sessionMoveAccept d => d.wellFormed
  | .movePullComplete _ => true
  | .leasePoll _ => true
  | .offerDeadlineExpiry _ => true
  | .parkAfterCheck => true
  | .parkComplete _ => true
  | .reviveComplete _ => true
  | .reviveLayerReport _ layer => decide (layer < 256)
  | .modelRegister d => d.wellFormed
  | .modelActivate d => d.wellFormed
  | .activateLoadComplete fold _ => foldOk fold
  | .modelRetire d => d.wellFormed
  | .recallQuery d => d.wellFormed
  | .queryAdmit fold => foldOk fold
  | .recallInsert d => d.wellFormed
  | .recallDelete d => d.wellFormed
  | .recallMerge d => d.wellFormed
  | .mergeRoundCommit fold => foldOk fold
  | .snapshotCut d => d.wellFormed
  | .snapshotDrainSheet fold => foldOk fold
  | .shardComplete fold => foldOk fold
  | .manifestBuild fold reports => foldOk fold && reports.all (fun r => decide (r.member < 2 ^ 18) && decide (r.device < 2 ^ 18) && r.digest.length == 48)
  | .snapshotRestore d others _ => d.wellFormed && others.all (fun m => decide (m.member < 2 ^ 18))
  | .droveJoin d => d.wellFormed
  | .joinReport fold index _ => foldOk fold && decide (index < 2 ^ 18)
  | .joinCommit fold => foldOk fold
  | .joinLimitExpiry fold => foldOk fold
  | .droveLeave d => d.wellFormed
  | .droveShrink d => d.wellFormed
  | .shrinkComplete fold => foldOk fold
  | .droveRebalance d => d.wellFormed
  | .keyInstallOwner d => d.wellFormed
  | .keyInstallImage d => d.wellFormed
  | .keyRemove d => d.wellFormed
  | .keyRotate d => d.wellFormed
  | .keyRecordDurable fold _ => foldOk fold
  | .keySweepStep fold => foldOk fold
  | .sweepPassRetry fold => foldOk fold
  | .attest d => d.wellFormed
  | .attestEphemeral d => d.wellFormed
  | .attestChain d => d.wellFormed
  | .ephemeralKeyExpiry fold => foldOk fold
  | .quotaSet d => d.wellFormed
  | .gateListLoad d => d.wellFormed
  | .gateListCancel d => d.wellFormed
  | .gateListTakeover port => portOk port
  | .gateEntryAdvance port => portOk port
  | .roleSet d => d.wellFormed
  | .drainLimitExpiry fold => foldOk fold
  | .flashDiscard d => d.wellFormed
  | .healthRead d => d.wellFormed
  | .healthReadGrownBad d => d.wellFormed
  | .fence d => d.wellFormed
  | .sqTailDoorbell ring requester offset size _ => ringOk ring && requesterOk requester && accessOk offset size
  | .descriptorFetch ring => ringOk ring
  | .eqHeadPoll queue => queueOk queue
  | .streamChunkWrite pen => penOk pen
  | .streamHeadReread pen => penOk pen
  | .streamHeadPoll _ => true
  | .streamBankSwap pen => penOk pen
  | .accountingPage fold => foldOk fold
  | .stepStart fold => foldOk fold
  | .emptyStep fold => foldOk fold
  | .verificationJudgement fold => foldOk fold
  | .verificationCommit fold record => foldOk fold && record.all SeqVerdict.wellFormed
  | .transcriptWriteAck _ _ => true
  | .opLayer pen _ => penOk pen
  | .opEnd pen _ => penOk pen
  | .opMma pen _ => penOk pen
  | .vewAdd pen _ => penOk pen
  | .vewSubtract pen _ => penOk pen
  | .vewMultiply pen _ => penOk pen
  | .vewMaximum pen _ => penOk pen
  | .vewMinimum pen _ => penOk pen
  | .vewMultiplyConstant pen _ => penOk pen
  | .vewAddConstant pen _ => penOk pen
  | .vewConvert pen _ => penOk pen
  | .vewExp pen _ => penOk pen
  | .vewReciprocal pen _ => penOk pen
  | .vewReciprocalSquareRoot pen _ => penOk pen
  | .vredSum pen _ => penOk pen
  | .vredMaximum pen _ => penOk pen
  | .vredSumOfSquares pen _ => penOk pen
  | .vredArgmax pen _ => penOk pen
  | .vredCombine pen _ => penOk pen
  | .normRmsnorm pen _ => penOk pen
  | .normLayernorm pen _ => penOk pen
  | .actSilu pen _ => penOk pen
  | .actGeluErf pen _ => penOk pen
  | .actGeluTanh pen _ => penOk pen
  | .actSwiglu pen _ => penOk pen
  | .ropeHalfPairs pen _ => penOk pen
  | .ropeAdjacentPairs pen _ => penOk pen
  | .opAttn pen _ => penOk pen
  | .routeTopkSoftmax pen _ => penOk pen
  | .routeSoftmaxTopk pen _ => penOk pen
  | .routeSoftmaxTopkNorm pen _ => penOk pen
  | .opRacc pen _ => penOk pen
  | .opNotify pen _ => penOk pen
  | .opBar pen _ => penOk pen
  | .barComplete pen => penOk pen
  | .barTimeout pen => penOk pen
  | .opGather pen _ => penOk pen
  | .opCopy pen _ => penOk pen
  | .opLogits pen _ => penOk pen
  | .scrollLayerLoad pen => penOk pen
  | .migrationStart fold index => foldOk fold && decide (index < 2 ^ 30)
  | .migrationCommit fold index _ => foldOk fold && decide (index < 2 ^ 30)
  | .migrationRelease fold index => foldOk fold && decide (index < 2 ^ 30)
  | .fabPacketReceive port p => portOk port && p.wellFormed
  | .fabRead p => p.wellFormed
  | .fabWrite p => p.wellFormed
  | .fabAread p => p.wellFormed
  | .fabFadd p => p.wellFormed
  | .fabCas p => p.wellFormed
  | .fabAcc p => p.wellFormed
  | .fabNotify p => p.wellFormed
  | .fabFence p => p.wellFormed
  | .fabResponse p => p.wellFormed
  | .fabSequenceNack p => p.wellFormed
  | .fabRetryExpiry _ => true
  | .watchProbe device => decide (device < 2 ^ 18)
  | .watchSilence device => decide (device < 2 ^ 18)
  | .egressSelect port => portOk port.port && port.returned.length == 4
  | .portTraining port t => portOk port && t.wellFormed
  | .portTrainingRetry port t => portOk port && t.wellFormed
  | .portFlitNak port _ => portOk port
  | .portDown port => portOk port
  | .linkTraining _ => true
  | .linkTrainingRetry _ => true
  | .linkFlitNak _ => true
  | .linkDownLimitExpiry => true
  | .thermalTrip sensor => decide (sensor < 80)
  | .watchdogExpiry cpu => decide (cpu < 8)
  | .pllLockLoss pll => decide (pll < 21)
  | .hbmStackFailure stack => decide (stack < 8)
  | .secSelfCheckFailure => true
  | .hbmScrubPass findings => findings.all ScrubFinding.wellFormed
  | .coldReset b => b.wellFormed
  | .warmReset _ => true
  | .warmResetResume => true
  | .selftestReport => true
  | .scanUnlock _ => true
  | .scanChallengeRead requester => requesterOk requester
  | .drbgReseed => true
  | .entropyHealthFail => true
  | .commitGo block => commitBlockOk block
  | .commitApply block => commitBlockOk block
  | .commitDiscard block => commitBlockOk block
  | .ringEnable ring => ringOk ring
  | .ringDisable ring => ringOk ring
  | .ringReset ring => ringOk ring
  | .foldForm fold => foldOk fold
  | .foldAddResources fold => foldOk fold
  | .foldRemoveWays fold => foldOk fold
  | .foldRemovePens fold => foldOk fold
  | .foldRelease fold => foldOk fold
  | .foldReleaseDone fold => foldOk fold
  | .namespaceForm fold => foldOk fold
  | .namespaceFormationDone fold => foldOk fold
  | .namespaceRelease fold => foldOk fold
  | .namespaceReleaseDone fold => foldOk fold
  | .namespaceRebuild fold => foldOk fold
  | .flashWrite fold index => foldOk fold && decide (index < 2 ^ 30)
  | .nandProgramComplete fold => foldOk fold
  | .nandProgramFail fold unit => foldOk fold && decide (unit < 2 ^ 16)
  | .nandEraseFail fold superblock unit => foldOk fold && decide (superblock < 2 ^ 16) && decide (unit < 2 ^ 16)
  | .flashRead fold lpn codewords => foldOk fold && decide (lpn < 2 ^ 40) && codewords.all CwOutcome.wellFormed
  | .gcVictimCopy fold => foldOk fold
  | .gcCommit fold => foldOk fold
  | .slcFold fold => foldOk fold
  | .foldIdleTimer fold => foldOk fold
  | .nandTempSample fold _ => foldOk fold
  | .ladderL1Entry block => ladderOk block
  | .ladderIdleExpiry block => ladderOk block
  | .ladderWake block => ladderOk block
  | .throttleEvaluation _ => true
  | .coreUndervoltage _ => true
  | .sensorSample junction stackTemps => decide (junction.length ≤ 80) && decide (stackTemps.length ≤ 8)
  | .tempHistorySample => true
  | .tallyDataRead requester => requesterOk requester
  | .bistWarmWrite requester _ => requesterOk requester
  | .fabLostClear device => decide (device < 2 ^ 18)
  | .fabHwmClear port _ => portOk port
  | .tlmHistClear hists => decide (hists < 2 ^ 7)
  | .tlmHwmClear marks => decide (marks < 2 ^ 19)
  | .registerWrite requester offset size _ => requesterOk requester && accessOk offset size
  | .i3cPrivateWrite frame => decide (frame.length < 256)
  | .i3cPrivateRead frame => decide (frame.length < 256)
  | .i3cEntdaa address => i3cOk address
  | .i3cSetdasa staticAddress address => i3cOk staticAddress && i3cOk address
  | .i3cRstdaa => true
  | .i3cGetpid => true
  | .i3cGetbcr => true
  | .i3cGetdcr => true
  | .i3cGetstatus => true
  | .i3cEnecDisec _ => true
  | .coldResetAssert _ => true
  | .linkDown => true
  | .nandEraseComplete fold superblock => foldOk fold && decide (superblock < 2 ^ 16)
  | .coreTargetChange _ => true
  | .tapInstruction _ => true

end Sys2Proof
end

