-- ==== Sys2Proof/Certificates/Slice0/Obligations.lean ====
section
/-! DEFINITION. The statements for the provers, chapter by chapter. A statement about one command says under which conditions on the state and the
operands alone it has its own effect, and gives the state it then answers; what the answered state does not name is as it was. Shared operations
(complete, setState, writeBack, postFold and the like) are those of the spec's own shared rules; the statements of the first section say what they
do. -/

open Sys2Proof Sys2Proof.Machine Sys2Proof.Safety

/-! ### The machine, reset, completions -/

/-- A step takes the command at the front of the queue and performs it on the state with the queue's rest; with an empty queue a microsecond of
the local timer passes, which runs from the cold reset on (the model's choice, log entry 1). -/
def Obligations.StepPerformsTheFrontCommand : Prop :=
  (∀ (c : Instr) (rest : List Instr) (s : State), step { s with pending := c :: rest } = exec c { s with pending := rest }) ∧
  (∀ s : State, s.pending = [] → step s = .next (if s.boot.status = 0 then s else { s with timer := s.timer + 1 }))

/-- The machine right after reset (16 Table 16-5, 19): STATUS 0, FAULT_N and THERM_TRIP_N high, no command waiting, every register at the reset
value of its table in both copies, rings DISABLED, folds NONE with every namespace ABSENT and key state NONE, ports down, link down, no session,
no commit made. -/
def Obligations.ResetState : Prop :=
  State.reset.boot.status = 0 ∧ State.reset.boot.faultN = true ∧ State.reset.boot.thermTripN = true ∧ State.reset.pending = [] ∧
  State.reset.timer = 0 ∧ State.reset.link.up = false ∧ State.reset.power.duty = 8 ∧
  (∀ k, State.reset.act k = regReset k ∧ State.reset.shadowOf k = regReset k) ∧
  (∀ r, (State.reset.ring r).state = 0 ∧ (State.reset.ring r).head = 0) ∧
  (∀ q, (State.reset.eq q).producer = 0 ∧ (State.reset.eq q).backlog = []) ∧
  (∀ f, (State.reset.fold f).status = 0 ∧ (State.reset.fold f).ns.state = 0 ∧ (State.reset.fold f).key.state = 0 ∧
    (State.reset.fold f).role = 0 ∧ (State.reset.fold f).snap.lastStep = BitVec.allOnes 64) ∧
  (∀ p, (State.reset.port p).state = 0 ∧ (State.reset.port p).gates = none) ∧ (∀ x, State.reset.sess x = none) ∧ MemOk State.reset

/-- 16 R422: a device that shows a final code stays in it, with FAULT_N low and link and ports down, whatever command comes, until
COLD_RST_N: its memory, sessions, folds, pens, rings, queues, SEC and fabric are untouched. -/
def Obligations.FinalCodeHoldsUntilColdReset : Prop :=
  ∀ s t : State, FinalCode s → (∀ c ∈ s.pending.head?, ¬ ColdReset c) → step s = .next t →
    FinalCode t ∧ t.boot.status = s.boot.status ∧ t.mem = s.mem ∧ t.hostMem = s.hostMem ∧ t.poison = s.poison ∧ t.sessions = s.sessions ∧
    t.folds = s.folds ∧ t.pens = s.pens ∧ t.rings = s.rings ∧ t.eqs = s.eqs ∧ t.undelivered = s.undelivered ∧ t.sec = s.sec ∧
    t.fab = s.fab ∧ t.link = s.link

/-- A command is never turned away by a fault or a refusal on a device at a final code: the step answers a next state. -/
def Obligations.FinalCodeStepsComplete : Prop :=
  ∀ s : State, FinalCode s → (∀ c ∈ s.pending.head?, ¬ ColdReset c) → Completes s

/-- A session record whose fields fit their places of 04 Table 4-1 (and of 10 Table 10-6 and 09 Table 9-4) is read back from its 512 bytes as it
was: no bit is dropped and no two fields share a bit. -/
def Obligations.SessionRecordBytesRoundTrip : Prop :=
  ∀ r : Record, r.inRange = true → recordOf (recordBytes r) = r ∧ (recordBytes r).length = 512

/-- 03 R70, R72, R74: a descriptor that completes on an enabled queue with room and no backlog leaves exactly one 32-byte record, a COMPLETION, in
the queue's next slot: the producer rises by one, the slot's bytes are the record's and every other byte of host memory is as it was; with
SUPPRESS_OK an ST_OK leaves none. `p` is the slot's host address. -/
def Obligations.CompletionWritesOneRecord : Prop :=
  ∀ (op : Nat) (d : Desc) (st fl : W16) (sp : List Byte) (s : State) (q p : Nat),
    q = s.ringQueue d.ring → s.boot.status ≠ 15 → s.eqOn q = true → (s.eq q).backlog = [] → s.eqFull q = false →
    (s.ring d.ring).fence = none →
    s.hostPhys (s.eqOwner q) (s.act (rRingEqBase q) + (s.eq q).producer.toNat % s.eqSize q * 32) 32 0 = .ok p →
    CompletionsOnly s (complete op d st fl sp s) ∧
    (if suppressOk d = true ∧ st = stOk then (complete op d st fl sp s).hostMem = s.hostMem ∧ (complete op d st fl sp s).eqs = s.eqs
     else
      ((complete op d st fl sp s).eq q).producer = (s.eq q).producer + 1 ∧
      (∀ r, r ≠ q → (complete op d st fl sp s).eq r = s.eq r) ∧
      (∀ a, a < p ∨ p + 32 ≤ a → memGet (complete op d st fl sp s).hostMem a = memGet s.hostMem a) ∧
      memGet (complete op d st fl sp s).hostMem p = 0x01 ∧
      memGet (complete op d st fl sp s).hostMem (p + 2) = BitVec.ofNat 8 st.toNat ∧
      memGet (complete op d st fl sp s).hostMem (p + 18) = BitVec.ofNat 8 op)

/-! ### Sessions and turns (04, 10 R260) -/

/-- 04 R93 to R95, R101: SESSION_OPEN with every check passed creates the session whose ID is (device, fold, serial), OPEN, at home and owned
here with the lease HELD at epoch 1, with the descriptor's park policy, image slot and stream block; the serial, which is past that of every session
of the fold (log entry 154), rises by one and no other session changes. -/
def Obligations.SessionOpenCreatesASession : Prop :=
  ∀ (d : Desc) (s : State) (f tails serial : Nat) (img : Image) (block : List Byte) (r : (Nat × Nat × Nat × Nat) × State),
    Admitted opSessionOpen false d s → bodyReserved d [(16, 22), (24, 29), (32, 46), (48, 57)] = true → descByte d 46 < 2 →
    f = s.ringOwner d.ring → tails = (if descNum d 56 2 = 0 then 16 else descNum d 56 2) → tails ≤ 256 →
    s.parkTierOk f (descByte d 44) = true → streamBlock d f s = stOk → descByte d 45 < 32 → s.image f (descByte d 45) = some img →
    s.hostRead f (descNum d 32 6) (descNum d 38 2) = .ok block → paramsOk img.vocab block (descNum d 38 2) = true →
    s.dirUse f < s.act (rSessDirRecords f) → serial = s.nextSerial f → serial ≤ 0xFFFFFFFFFF →
    openSheets f tails img block (beginDesc opSessionOpen d s) = .ok r →
    ∃ t y, exec (.sessionOpen d) s = .next t ∧ t.act (rSessSerialNext f) = serial + 1 ∧
      t.sess (BitVec.ofNat 64 (s.selfNo * 2 ^ 46 + f * 2 ^ 40 + serial)) = some y ∧
      (∀ x, x ≠ BitVec.ofNat 64 (s.selfNo * 2 ^ 46 + f * 2 ^ 40 + serial) → t.sess x = r.2.sess x) ∧
      y.isHome = true ∧ y.isOwner = true ∧ y.fold = f ∧ y.turn = none ∧ y.record.state = stateOpen ∧ y.record.sessionRing = d.ring ∧
      y.record.parkAfter = descNum d 40 4 ∧ y.record.parkTier = descByte d 44 ∧ y.record.imageSlot = descByte d 45 ∧
      y.record.streamBase = descNum d 16 6 ∧ y.record.streamLog2 = descByte d 22 ∧ y.record.streamHead = descNum d 24 6 ∧
      y.record.tailSheets = tails ∧ y.record.lease = ⟨s.selfNo, 0, 1⟩

/-- 04 R101, Table 4-4: SESSION_CLOSE of a leased session with no turn, park, move or earlier close: the session ends and is held no more.
TURN_CANCEL: on a session that is WAITING with no turn it leaves it OPEN and completes ST_OK with byte 20 = 2; on one at rest otherwise it
completes ST_OK with byte 20 = 0 and changes nothing; of a turn whose decision has not fallen, the turn is cancelled. -/
def Obligations.SessionCloseAndTurnCancel : Prop :=
  (∀ (d : Desc) (y : Sess) (s : State), Admitted opSessionClose true d s → bodyReserved d [] = true → Leased d y s →
    y.record.state ≠ stateStranded → y.record.state ≠ stateMoving → y.move = none → y.closing = none → y.park = none → y.turn = none →
    y.endings = [] → y.revive = none →
    ∃ t, exec (.sessionClose d) s = .next t ∧ t.sess d.session = none) ∧
  (∀ (d : Desc) (y : Sess) (s : State), Admitted opTurnCancel true d s → bodyReserved d [] = true → Leased d y s →
    y.park = none → y.move = none → y.record.state ≠ stateMoving →
    (y.turn = none → y.record.state = stateWaiting → exec (.turnCancel d) s =
      .next (complete opTurnCancel d stOk 0 (leBytes 1 2 ++ zerosB 10) (setState d.session stateOpen (beginDesc opTurnCancel d s)))) ∧
    (y.turn = none → y.record.state ≠ stateWaiting → isRest y.record.state = true → exec (.turnCancel d) s =
      .next (complete opTurnCancel d stOk 0 (leBytes 1 0 ++ zerosB 10) (beginDesc opTurnCancel d s))) ∧
    (∀ u, y.turn = some u → u.cancel = none → y.closing = none → s.decided y.fold d.session = false → exec (.turnCancel d) s =
      .next (cancelTurn d.session (some d) (beginDesc opTurnCancel d s))))

/-- 10 R260, 04 R98, R102, 05 R126: a TURN_SUBMIT on an OPEN session, a TOOL_RESULT on a WAITING one, with every check passed: at the root, the
input's token entries are appended to the transcript, the turn begun and admission asked for, a parked session's turn-out begun and the session given
to the other members; at another member the same follows the root's answer, for which a request goes out. -/
def Obligations.TurnsAreAccepted : Prop :=
  ∀ (op : Nat) (row : Desc → Instr) (src : Nat), ((op, row, src) = (opTurnSubmit, .turnSubmit, 0) ∨ (op, row, src) = (opToolResult, .toolResult, 1)) →
  ∀ (d : Desc) (y : Sess) (s s₁ : State) (text : List Byte) (e : Encoded),
    Admitted op true d s → turnReserved d = true → Leased d y s → y.park = none → Resting y → y.turn = none → y.record.imagePoisoned = false →
    y.rest = (if op = opToolResult then stateWaiting else stateOpen) → descNum d 24 4 ≤ 16777216 → descByte d 40 < 64 →
    ((s.fold y.fold).role = 1 → bitsOf (descNum d 36 4) 17 0 ≠ 0x3FFFF) → (s.fold y.fold).active = some y.record.imageSlot →
    (s.fold y.fold).faulted = false → s.hostRead y.fold (descNum d 16 6) (descNum d 24 4) = .ok text →
    e = encodeText (beginDesc op d s) y.fold (s.params y.record.paramSheet).escapes (bitOf (descByte d 34) 0) (y.record.carry ++ text) →
    ((s.params y.record.paramSheet).strict = true → e.replaced = 0) →
    s₁ = (cacheUse y.fold (beginDesc op d s)).count (rTokInputReplaced y.fold) e.replaced →
    y.record.context + e.tokens.length ≤ s₁.act (rInkCtxMax y.fold) →
    (y.record.context + e.tokens.length = 0 → bitOf (descByte d 34) 0 = true ∨ bitOf (descByte d 34) 2 = true) →
    (s.isRoot y.fold = true → ∀ s₂, appendTx d.session (.record d.session)
        (e.tokens.map (fun t => txWord t src (op == opToolResult || bitOf (descByte d 34) 1) y.record.textOffset)) s₁ = .ok s₂ →
      ∀ s₃, requestAdmission y.fold d.session y.record.latencyCritical d.tag op (beginTurn op d y e s₂) = .ok s₃ →
      exec (row d) s = .next (sendSeat d.session (if isParked y.record.state then startRevive d.session none true s₃ else s₃))) ∧
    (s.isRoot y.fold = false → ∀ t, askAdmission y.fold d.session y.record.latencyCritical (some (op, d)) (beginDesc op d s) = .ok t →
      exec (row d) s = .next t)

/-- 04 R103, R104: SESSION_PARK of a resting session to a tier that is allowed, not the one it is parked in, with room there, in a drove of one:
PRIOR_STATE noted and written back, every private image sheet above the tier asked to move there; with other members, these are asked for their room
first. PARK_COMPLETE, when all of the sheets are there on every holder: STATE PARKED, the descriptor completes ST_OK; at a holder it tells the owner.
PARK_AFTER_CHECK looks at every session by R103. -/
def Obligations.ParkingASession : Prop :=
  (∀ (d : Desc) (y : Sess) (s : State) (b : State), b = beginDesc opSessionPark d s →
    Admitted opSessionPark true d s → bodyReserved d [(16, 16)] = true → Leased d y s → Resting y → y.record.imagePoisoned = false →
    s.parkTierOk y.fold (descByte d 16) = true → y.record.state ≠ parkedIn (descByte d 16) →
    b.parkRoom y (descByte d 16) (isParked y.record.state) = true →
    (b.others y.fold = [] → exec (.sessionPark d) s = .next
      (let l := b.parkSheets y (descByte d 16) (isParked y.record.state)
       let p : Park := { target := descByte d 16, left := [], desc := some d, stopping := false, fell := false, after := none, asked := [] }
       let prior := if isParked y.record.state then y.record.priorState else match y.turn with
         | some u => if u.opcode = opToolResult then stateWaiting else stateOpen
         | none => y.record.state
       let c := writeBack d.session ((b.modSess d.session (fun y => { y with park := some p })).modRec d.session (fun r => { r with priorState := prior }))
       (l.foldl (fun s i => requestMove y.fold i (descByte d 16) s) c).modSess d.session (fun y => { y with
         park := some { p with left := l, asked := [], holders := [] } }))) ∧
    (b.others y.fold ≠ [] → ∀ t, startPark d.session (descByte d 16) (some d) b = .ok t →
      exec (.sessionPark d) s = .next t ∧ ∃ z p, t.sess d.session = some z ∧ z.park = some p ∧ p.asked = b.others y.fold ∧ p.left = [])) ∧
  (∀ (x : W64) (y : Sess) (p : Park) (s : State), s.ready = true → s.sess x = some y → y.park = some p → p.stopping = false → p.asked = [] →
    p.left.filter (parkLeft s y p) = [] →
    (y.isOwner = true → p.holders = [] → exec (.parkComplete x) s = .next
      (let t := setState x (parkedIn (if p.fell then 4 else p.target)) (s.modSess x (fun y => { y with park := none }))
       match p.desc with
       | some d => complete opSessionPark d stOk 0 (t.sessInfo x) t
       | none => t)) ∧
    (y.isOwner = false → exec (.parkComplete x) s = .next
      (mailTo y.fold (.parked x stOk p.target) y.record.lease.holder (s.modSess x (fun y => { y with park := none }))))) ∧
  (∀ s : State, s.ready = true → exec .parkAfterCheck s = .next (s.sessions.foldl (fun s p => policyPark p s) s)) ∧
  (∀ (p : Nat × Sess) (s : State), p.2.isOwner = true → p.2.busy = false → p.2.record.imagePoisoned = false → p.2.record.lease.lstate = 0 →
    (p.2.record.state = stateOpen ∨ p.2.record.state = stateWaiting) → p.2.record.parkAfter ≠ 0 →
    p.2.record.lastActive + p.2.record.parkAfter < s.now → p.2.parkTried < s.now →
    ∀ t, startPark p.2.record.sessionId p.2.record.parkTier none s = .ok t → policyPark p s = t)

/-- 04 R107, R108: SESSION_REVIVE in MODE 0 of a parked session whose image is not poisoned begins its revive; REVIVE_COMPLETE, when every sheet is
in T2 or above, on every holder for a SESSION_REVIVE, promotes its window pages and returns the session to PRIOR_STATE with ST_OK, or reports the
last layer of a turn-out; REVIVE_LAYER_REPORT reports a turn-out's next layer once that layer's sheets are in. -/
def Obligations.RevivingASession : Prop :=
  (∀ (d : Desc) (y : Sess) (s : State), Admitted opSessionRevive true d s → bodyReserved d [(32, 32)] = true → descByte d 32 = 0 → Leased d y s →
    y.busy = false → isParked y.record.state = true → y.record.imagePoisoned = false →
    exec (.sessionRevive d) s = .next (startRevive d.session (some d) false (beginDesc opSessionRevive d s))) ∧
  (∀ (x : W64) (y : Sess) (r : Revive) (s : State), s.ready = true → s.sess x = some y → y.revive = some r → reviveLeft s y r.groups.flatten = [] →
    (∀ d, r.desc = some d → (∀ e ∈ (s.fold y.fold).layersIn, e.1 = x → 255 ≤ e.2.2.2) → exec (.reviveComplete x) s = .next
      (let t := windowMoves y.fold y true (forgetLayers y.fold x (s.modSess x (fun y => { y with revive := none })))
       complete opSessionRevive d stOk 0 ((setState x y.record.priorState t).sessInfo x) (setState x y.record.priorState t))) ∧
    (r.desc = none → exec (.reviveComplete x) s = .next
      (reportLayers y.fold y 255 stOk (windowMoves y.fold y true (s.modSess x (fun y => { y with revive := none })))))) ∧
  (∀ (x : W64) (y : Sess) (r : Revive) (s : State), s.ready = true → s.sess x = some y → y.revive = some r → r.turnOut = true →
    r.layers + 1 < r.groups.length → reviveLeft s y (r.groups.take (r.layers + 2)).flatten = [] →
    exec (.reviveLayerReport x r.layers) s = .next
      (reportLayers y.fold y (r.layers + 1) stOk (s.modSess x (fun y => { y with revive := some { r with layers := r.layers + 1 } })))) ∧
  (∀ (f : Nat) (y : Sess) (n : Nat) (s : State), s.isRoot f = true → y.record.lease.holder = s.selfNo →
    reportLayers f y n stOk s = setReviving f y.record.sessionId (decide (s.reviveLimit f y.record.sessionId < 255))
      (s.reviveLimit f y.record.sessionId) s)

/-- 04 R113 to R116, R94: the compare-and-swap of the lease at a home that is here; SESSION_MOVE_OFFER of a resting session whose image is not
poisoned, which at such a home leaves the lease OFFERED at the next epoch with the peer named and the session MOVING; SESSION_MOVE_ACCEPT at the home; SESSION_RECOVER of a
session held here; the end of a pull; a LEASE_POLL that is due; an OFFER_DEADLINE_EXPIRY past the deadline. -/
def Obligations.MovesAndRecovery : Prop :=
  (∀ (x : W64) (y : Sess) (old new : Lease) (s : State), s.sess x = some y → y.isHome = true →
    homeCas x old new s = if y.record.lease = old then (true, observeLease x new s) else (false, s)) ∧
  (∀ (d : Desc) (y : Sess) (s : State), Admitted opSessionMove true d s → bodyReserved d [(32, 32), (36, 40)] = true → descByte d 32 = 0 →
    descNum d 36 4 < 2 ^ 18 → descByte d 40 < 64 → Leased d y s → Resting y → y.record.imagePoisoned = false →
    exec (.sessionMoveOffer d) s = .next (startOffer d.session (descNum d 36 4) (descByte d 40) (some d) (beginDesc opSessionMove d s))) ∧
  (∀ (x : W64) (dev fold : Nat) (desc : Option Desc) (y : Sess) (s : State), s.sess x = some y → y.isHome = true →
    y.record.lease = ⟨s.selfNo, 0, y.record.lease.epoch⟩ → y.record.lease.epoch < epochTop → ∃ z, (startOffer x dev fold desc s).sess x = some z ∧
      z.record.lease = ⟨s.selfNo, 1, y.record.lease.epoch + 1⟩ ∧ z.record.peer = ⟨dev, fold, y.record.lease.epoch + 1⟩ ∧
      z.record.state = stateMoving ∧ z.record.offerDeadline = s.now + max 1000 (s.act rSessOfferLimit) ∧ z.move.isSome = true) ∧
  (∀ (d : Desc) (y : Sess) (s : State), Admitted opSessionMove true d s → bodyReserved d [(16, 22), (24, 29), (32, 33)] = true →
    descByte d 32 = 1 → descByte d 33 < 2 → streamBlock d (s.ringOwner d.ring) s = stOk → s.sess d.session = some y → y.isHome = true →
    exec (.sessionMoveAccept d) s = .next (acceptRecord d y.homeRecord (beginDesc opSessionMove d s))) ∧
  (∀ (d : Desc) (y : Sess) (s : State), Admitted opSessionRevive true d s → bodyReserved d [(16, 22), (24, 29), (32, 32)] = true →
    descByte d 32 = 1 → streamBlock d (s.ringOwner d.ring) s = stOk → s.sess d.session = some y →
    (y.isHome = true ∨ y.isOwner = true ∨ y.move.isSome = true) →
    exec (.sessionRecover d) s = .next (recoverRecord opSessionRevive d none y.homeRecord (beginDesc opSessionRevive d s))) ∧
  (∀ (x : W64) (y : Sess) (m : Move) (s : State) (r : List Nat × State), s.ready = true → s.sess x = some y → y.move = some m → m.stage = 3 →
    s.pullWhole x y m = true → rebuildImage y.fold y m s = .ok r → y.isHome = true →
    exec (.movePullComplete x) s = .next
      (let t := r.2.modSess x (fun z => { z with
         move := some { m with stage := 4, pulled := r.1.foldl (fun p i => setN p (2 ^ 40 + i) i) m.pulled }
         record := { z.record with imageRoot := r.2.sheetOffset y.fold (getND m.pulled (z.record.imageRoot / 65536) 0)
                                   paramSheet := r.2.sheetOffset y.fold (getND m.pulled (z.record.paramSheet / 65536) 0)
                                   imageSheets := m.pulled.length + r.1.length } })
       let c := homeCas x ⟨m.device, 1, m.epoch⟩ ⟨t.selfNo, 2, m.epoch⟩ t
       acceptSwapped x stStaleEpoch c.1 c.2)) ∧
  (∀ (x : W64) (y : Sess) (m : Move) (s : State), s.ready = true → s.sess x = some y → y.move = some m → m.stage = 1 →
    m.lastPoll + max 1 (s.act rSessPoll) ≤ s.now → s.asking (.leasePoll x) = false → y.isHome = true →
    exec (.leasePoll x) s = .next (leasePolled x y.record.lease s)) ∧
  (∀ (x : W64) (y : Sess) (s : State), s.ready = true → s.sess x = some y → y.isHome = true →
    (y.record.lease.lstate = 2 ∨ (y.record.lease.lstate = 1 ∧ y.record.lease.holder = s.selfNo)) → y.record.offerDeadline < s.now →
    s.asking (.examine x) = false → exec (.offerDeadlineExpiry x) s = .next (examine x (fun _ => false) s))

/-! ### Streams, rings and event queues (03) -/

/-- 03 R83 to R88, R507: the head of a draining bank goes to the session's stream ring when the cached head shows room, and is kept for one re-read
of the head otherwise; the re-read writes it, or drops it and marks the overflow; STREAM_HEAD_POLL, when 2 µs have passed, reads the head again and goes on with
what waits; STREAM_RESEND within the text still held completes ST_OK and starts; the banks swap when the draining one is empty and the other is full,
closed or old enough. -/
def Obligations.StreamQueues : Prop :=
  (∀ (n : Nat) (p : StreamPkt) (rest : List StreamPkt) (y : Sess) (s : State), s.ready = true → (s.pen n).reread = none →
    (s.pen n).draining.packets = p :: rest → s.sess p.session = some y → y.overflow = none → y.resend = none →
    exec (.streamChunkWrite n) s = .next
      (if hasRoom y p.bytes then writeLive p.session p (readWords n p s).1 (popPacket n (readWords n p s).2)
       else s.modPen n (fun x => { x with reread := some p }))) ∧
  (∀ (n : Nat) (p : StreamPkt) (y : Sess) (s u : State), s.ready = true → (s.pen n).reread = some p →
    u = rereadHead p.session (popPacket n (s.modPen n (fun x => { x with reread := none }))) → u.sess p.session = some y →
    exec (.streamHeadReread n) s = .next
      (if hasRoom y p.bytes then writeLive p.session p (readWords n p u).1 (readWords n p u).2
       else dropLive p.session p (postReady p.session p.turn 2 p.offset false (u.modSess p.session (fun y => { y with overflow := some p.offset }))))) ∧
  (∀ (x : W64) (y : Sess) (s : State), s.ready = true → s.sess x = some y → (y.resend.isSome = true ∨ y.endWait ≠ []) →
    pollDue y.headAt s.now = true → exec (.streamHeadPoll x) s = .next (pumpSession x (rereadHead x s))) ∧
  (∀ (d : Desc) (y : Sess) (s : State), Admitted opStreamResend true d s → bodyReserved d [(16, 23)] = true → Leased d y s →
    descNum d 16 8 ≤ y.record.textOffset → resendFloor (beginDesc opStreamResend d s) y ≤ descNum d 16 8 → y.resend = none → haveEntries y = true →
    exec (.streamResend d) s = .next (pumpSession d.session
      ((complete opStreamResend d stOk 0 [] (beginDesc opStreamResend d s)).modSess d.session (fun y => { y with resend := some (descNum d 16 8) })))) ∧
  (∀ (n : Nat) (s : State), s.ready = true → (s.pen n).draining.packets = [] → (s.pen n).reread = none → (s.pen n).filling.packets ≠ [] →
    (16 ≤ (s.pen n).filling.packets.length ∨ 256 ≤ bankWords (s.pen n).filling ∨ (s.pen n).filling.closed = true ∨
      (∃ p l, (s.pen n).waiting = p :: l ∧ bankTakes (s.pen n).filling p = false) ∨
      ∃ t, (s.pen n).filling.since = some t ∧ t * 1000 + s.act (rPenStreamSwapWait n) ≤ s.now * 1000) →
    exec (.streamBankSwap n) s = .next (refillBank n (s.modPen n (fun x => { x.setDraining StreamBank.reset with fillBank := 1 - x.fillBank }))))

/-- 03 R66 to R68, R62: a doorbell of a running ring's owner takes a valid tail and stops the ring on an invalid one, with one COMPLETION of OPCODE
0x00 and TAG 0xFFFF; any other requester's, and one of a ring that does not run, is counted and changes nothing else. RING_ENABLE, RING_DISABLE and
RING_RESET act when RING_CTRL holds their command, and RING_CTRL then reads 0. -/
def Obligations.DoorbellsAndRingStates : Prop :=
  (∀ (r req : Nat) (v : W32) (s : State), s.ready = true → r < 4096 → req = s.ringOwner r → req < 64 ∨ req = mgmtPath → (s.ring r).state = 1 →
    (s.ring r).closing = false → (v - (s.ring r).lastT).toNat ≤ 2 ^ s.ringLog2 r → (v - (s.ring r).head).toNat ≤ 2 ^ s.ringLog2 r →
    exec (.sqTailDoorbell r req 0 4 v) s = .next (s.modRing r (fun y => { y with lastT := v }))) ∧
  (∀ (r req : Nat) (v : W32) (s : State), s.ready = true → r < 4096 → req = s.ringOwner r → req < 64 ∨ req = mgmtPath → (s.ring r).state = 1 →
    (s.ring r).closing = false → (2 ^ s.ringLog2 r < (v - (s.ring r).lastT).toNat ∨ 2 ^ s.ringLog2 r < (v - (s.ring r).head).toNat) →
    ∃ t, exec (.sqTailDoorbell r req 0 4 v) s = .next t ∧ (t.ring r).state = 2 ∧
      RecordsOnly (s.modRing r (fun y => { y with state := 2 })) t) ∧
  (∀ (r req : Nat) (v : W32) (s : State), s.ready = true → r < 4096 → req < 64 ∨ req = mgmtPath →
    (req ≠ s.ringOwner r ∨ (s.ring r).state ≠ 1 ∨ (s.ring r).closing = true) →
    exec (.sqTailDoorbell r req 0 4 v) s = .next (s.count (rRingDbRejected r) 1)) ∧
  (∀ (r : Nat) (s : State), s.ready = true → s.act (rRingCtrl r) = 1 → (s.ring r).state = 0 →
    ∃ t, exec (.ringEnable r) s = .next t ∧ (t.ring r).state = 1 ∧ (t.ring r).head = BitVec.ofNat 32 (s.act (rRingSqHead r)) ∧
      (t.ring r).lastT = BitVec.ofNat 32 (s.act (rRingSqHead r)) ∧ t.act (rRingCtrl r) = 0 ∧
      t = { s with rings := t.rings, regs := t.regs }) ∧
  (∀ (r : Nat) (s : State), s.ready = true → s.act (rRingCtrl r) = 2 → (s.ring r).state = 1 → (s.ring r).fetched = [] → (s.ring r).inflight = [] →
    (s.ring r).fence = none →
    ∃ t, exec (.ringDisable r) s = .next t ∧ (t.ring r).state = 0 ∧ (t.ring r).head = (s.ring r).head ∧ t.act (rRingCtrl r) = 0 ∧
      t = { s with rings := t.rings, regs := t.regs }) ∧
  (∀ (r : Nat) (s : State), s.ready = true → s.act (rRingCtrl r) = 3 → (s.ring r).state = 2 → (s.ring r).fetched = [] → (s.ring r).inflight = [] →
    (s.ring r).fence = none →
    ∃ t, exec (.ringReset r) s = .next t ∧ (t.ring r).state = 0 ∧ t.act (rRingCtrl r) = 0 ∧ t = { s with rings := t.rings, regs := t.regs })

/-- 03 R67, R70, R91, 05 R144: a fetch reads the descriptors from the ring's head on, at most eight, not past the tail or the ring's end and not past
a FENCE: the head rises and is written back to the host, TURN_SUBMITs are counted by the Tally, an opcode of no table completes
ST_BAD_DESCRIPTOR. A FENCE with nothing before it left completes at once, and otherwise waits. EQ_HEAD_POLL re-reads a full queue's head when 2 µs have passed. -/
def Obligations.FetchFenceAndPoll : Prop :=
  (∀ (r : Nat) (l : List Byte) (s : State), s.ready = true → s.mayFetch r = true → s.fetchCount r ≠ 0 →
    s.hostRead (s.ringOwner r) (s.act (rRingSqBase r) + (s.ring r).head.toNat % 2 ^ s.ringLog2 r * 64) (s.fetchCount r * 64) = .ok l →
    ∃ t es, exec (.descriptorFetch r) s = .next t ∧
      es = uptoFence ((List.range (s.fetchCount r)).map (fun i => parseDesc r (sliceB l (i * 64) 64))) ∧
      (t.ring r).head = (s.ring r).head + BitVec.ofNat 32 es.length ∧
      (t.ring r).fetched = (s.ring r).fetched ++ es.filter (fun e => isOpcode e.1) ∧
      t = { s with rings := t.rings, tally := t.tally, hostMem := t.hostMem, eqs := t.eqs, dropped := t.dropped, undelivered := t.undelivered }) ∧
  (∀ (d : Desc) (s : State), Admitted opFence false d s → bodyReserved d [] = true → (s.ring d.ring).inflight = [] →
    (s.ring d.ring).fetched = [(opFence, d)] →
    ∃ t, exec (.fence d) s = .next t ∧ (t.ring d.ring).fence = none ∧ (t.ring d.ring).fetched = [] ∧ (t.ring d.ring).inflight = [] ∧
      CompletionsOnly s t) ∧
  (∀ (d e : Desc) (op : Nat) (s : State), Admitted opFence false d s → bodyReserved d [] = true → (s.ring d.ring).inflight = [(op, e)] →
    op ≠ opFence →
    ∃ t, exec (.fence d) s = .next t ∧ (t.ring d.ring).fence = some d ∧ t = { s with rings := t.rings }) ∧
  (∀ (q : Nat) (l : List Byte) (s : State), s.ready = true → s.eqOn q = true → s.eqFull q = true → pollDue (s.eq q).headAt s.now = true →
    s.hostRead (s.eqOwner q) (s.act (rRingEqHeadAddr q)) 4 = .ok l →
    exec (.eqHeadPoll q) s = .next (flushBacklog q (s.eq q).backlog.length 
      (s.setEq q { s.eq q with cachedHead := BitVec.ofNat 32 (ofLe l), headAt := some s.now })))

/-- 05 R143 to R146: the counter a ring's LEGACY_CLIENT selects, the TURN_SUBMITs of a fetch added to it modulo 2^24, no other counter and nothing
else changed, and nothing counted while every pen of the owning fold is at L3 or L4; a ring of the management path always counts. -/
def Obligations.TallyCountersCountAndWrap : Prop :=
  ∀ (r n : Nat) (s : State),
    s.tallyOf r = (if s.ringClient r ≤ 31 then s.ringClient r else 31) ∧ s.ringClient r < 256 ∧
    (s.tallyCounts (s.ringOwner r) = true →
      (getND (tallyAdd r n s).tally (s.tallyOf r) 0).toNat = ((getND s.tally (s.tallyOf r) 0).toNat + n) % 2 ^ 24 ∧
      (∀ c, c ≠ s.tallyOf r → getND (tallyAdd r n s).tally c 0 = getND s.tally c 0) ∧ tallyAdd r n s = { s with tally := (tallyAdd r n s).tally }) ∧
    (s.tallyCounts (s.ringOwner r) = false → tallyAdd r n s = s) ∧
    (s.ringOwner r = mgmtPath → s.tallyCounts (s.ringOwner r) = true) ∧
    (s.ringOwner r ≠ mgmtPath → (s.fold (s.ringOwner r)).penList ≠ [] →
      (s.tallyCounts (s.ringOwner r) = true ↔ ∃ p ∈ (s.fold (s.ringOwner r)).penList, s.level p < 3)) ∧
    (∀ l : List Byte, s.ready = true → s.mayFetch r = true → s.fetchCount r ≠ 0 →
      s.hostRead (s.ringOwner r) (s.act (rRingSqBase r) + (s.ring r).head.toNat % 2 ^ s.ringLog2 r * 64) (s.fetchCount r * 64) = .ok l →
      ∃ t, exec (.descriptorFetch r) s = .next t ∧ t.tally = (tallyAdd r
        ((uptoFence ((List.range (s.fetchCount r)).map (fun i => parseDesc r (sliceB l (i * 64) 64)))).filter (fun e => e.1 == opTurnSubmit)).length
        s).tally)

/-! ### Models and recall (07, 11) -/

/-- 07 R200 to R203: MODEL_REGISTER into a free image slot of T2 registers the image its container describes and answers the sheets it took; with
its share in flash, on a namespace that rebuilds, it waits; MODEL_ACTIVATE of a registered image at the root begins the drain with the window depth
then active, and no request for admission is lost; past the boundary ACTIVATE_LOAD_COMPLETE loads the image and completes ST_OK with the boundary
step, or, where another member failed, leaves the fold with no active image; MODEL_RETIRE of an image that nothing uses gives its sheets back and
empties the slot. -/
def Obligations.RegisteringAndActivatingImages : Prop :=
  (∀ (d : Desc) (s b v : State) (f k : Nat) (c payload : List Byte) (img : Image) (g : Registration) (own under : List Nat × State), f = s.ringOwner d.ring →
    k = descByte d 32 → b = beginDesc opModelRegister d s → Admitted opModelRegister false d s → bodyReserved d [(16, 21), (24, 33)] = true → k ≤ 31 →
    descByte d 33 = 2 → hasN (s.fold f).images k = false → hasN (s.fold f).registering k = false →
    s.hostRead f (descNum d 16 6) (descNum d 24 8) = .ok c → registerChecks f 2 c b = .ok (img, false, b) → img.store = 2 →
    g = { desc := d, container := c, image := img, begun := false, left := [], total := 0 } →
    v = (b.modFold f (fun x => { x with registering := setN x.registering k g })).modFold f
      (fun x => { x with registering := modN x.registering k (fun g => { g with begun := true }) }) →
    registerPayload f c img v = .ok payload →
    weightSheets f ((shareHeads img (ownShare v f img) k 0).zip (shareContents (ownShare v f img) payload)) v = .ok own →
    weightSheets f ((shareHeads img (understudyShare v f img) k 1).zip (shareContents (understudyShare v f img) payload)) own.2 = .ok under →
    ∃ t w, exec (.modelRegister d) s = .next t ∧
      t = complete opModelRegister d stOk 0 (leBytes 4 (shareCount (ownShare v f img) + shareCount (understudyShare v f img))) w ∧
      w.image f k = some { img with ownSheets := own.1, understudySheets := under.1 } ∧ hasN (w.fold f).registering k = false) ∧
  (∀ (d : Desc) (s b : State) (f k : Nat) (c : List Byte) (img : Image), f = s.ringOwner d.ring → k = descByte d 32 → b = beginDesc opModelRegister d s →
    Admitted opModelRegister false d s → bodyReserved d [(16, 21), (24, 33)] = true → k ≤ 31 → descByte d 33 = 3 → (s.fold f).ns.state = nsRebuilding →
    hasN (s.fold f).images k = false → hasN (s.fold f).registering k = false → s.hostRead f (descNum d 16 6) (descNum d 24 8) = .ok c →
    registerChecks f 3 c b = .ok (img, true, b) →
    exec (.modelRegister d) s = .next (b.modFold f (fun x =>
      { x with registering := setN x.registering k { desc := d, container := c, image := img, begun := false, left := [], total := 0 } }))) ∧
  (∀ (d : Desc) (s b : State) (f : Nat) (img : Image), f = s.ringOwner d.ring → b = takeDepth f (beginDesc opModelActivate d s) →
    Admitted opModelActivate false d s → bodyReserved d [(32, 32), (36, 39)] = true → descByte d 32 < 32 → s.image f (descByte d 32) = some img →
    (s.fold f).drain = none → s.isRoot f = true → img.pinnedSlots (b.act (rScrWindowDepth f)) ≤ 96 →
    poolExcess (s.fold f) (img.pinnedSlots (b.act (rScrWindowDepth f))) ≤ b.room f 2 →
    ∃ t, exec (.modelActivate d) s = .next t ∧
      (t.fold f).drain = some { kind := 1, deadline := s.now + descNum d 36 4, desc := d, arg := descByte d 32, loading := false,
                                 boundary := 0, depth := b.act (rScrWindowDepth f) } ∧
      (∀ q ∈ (s.fold f).queue, ∃ r ∈ (t.fold f).queue, r.session = q.session ∧ r.lc = q.lc ∧ r.arrival = q.arrival) ∧
      (t.fold f).seqs = (s.fold f).seqs ∧ t.mem = s.mem ∧ t.sessions = s.sessions) ∧
  (∀ (f : Nat) (q : Drain) (img : Image) (s t : State), s.ready = true → (s.fold f).drain = some q → q.loading = true → q.kind = 1 → q.issuer = none →
    s.image f q.arg = some img → loadImage f q.arg q.depth img (s.modFold f (fun x => { x with drain := none })) = .ok t →
    (t.fold f).active = some q.arg ∧
    exec (.activateLoadComplete f stOk) s = .next (complete opModelActivate q.desc stOk 0 (leBytes 8 q.boundary) t)) ∧
  (∀ (f : Nat) (q : Drain) (img : Image) (st : W16) (s : State), s.ready = true → (s.fold f).drain = some q → q.loading = true → q.kind = 1 →
    s.image f q.arg = some img → st ≠ stOk →
    ∃ t, exec (.activateLoadComplete f st) s = .next t ∧ (t.fold f).active = none ∧ (t.fold f).drain = none ∧ (t.fold f).expanded = []) ∧
  (∀ (d : Desc) (s : State) (f : Nat) (img : Image), f = s.ringOwner d.ring → Admitted opModelRetire false d s → bodyReserved d [(32, 32)] = true →
    descByte d 32 < 32 → s.image f (descByte d 32) = some img → hasN (s.fold f).registering (descByte d 32) = false →
    (s.fold f).active ≠ some (descByte d 32) → (s.fold f).drain = none →
    (∀ p ∈ s.sessions, p.2.fold = f → (p.2.isOwner = true ∨ p.2.record.state = stateStranded) → p.2.record.imageSlot = descByte d 32 →
      p.2.record.state = stateClosed) →
    ∃ t, exec (.modelRetire d) s = .next t ∧ t.image f (descByte d 32) = none ∧ t.sessions = s.sessions ∧ t.mem =
      (discardAll f (img.ownSheets ++ img.understudySheets) (beginDesc opModelRetire d s)).mem)

/-- 11 R291 to R300, on an index whose area is backed, with its fold's sheets in T0 to T2 and nothing poisoned. RECALL_QUERY with its values in range
joins the fold's queue; QUERY_ADMIT, with a query slot and no ACTIVE sequence, takes the first one, which completes ST_OK with at most K results at
its AT_SEQ or the last sequence number. RECALL_INSERT of 1 to 65,536 new items with room for them completes ST_OK, each item in its side entry; SEQ,
LIVE and SIDE_END rise by their number. RECALL_DELETE completes ST_OK and SEQ rises by the number of items it found. RECALL_MERGE fixes M_SEQ and what
it will place; a MERGE_ROUND_COMMIT on an index with no node yet places up to 256 entries and raises GEN; any round that comes to its end is committed. -/
def Obligations.RecallIndexCommands : Prop :=
  (∀ (d : Desc) (s : State) (f : Nat), f = s.ringOwner d.ring → Admitted opRecallQuery false d s → bodyReserved d [(16, 43)] = true →
    (s.index f).isSome = true → queryRanges d = true →
    exec (.recallQuery d) s = .next ((beginDesc opRecallQuery d s).modFold f (fun x => { x with rcl := { x.rcl with waiting := x.rcl.waiting ++ [d] } }))) ∧
  (∀ (d : Desc) (l : List Desc) (f at_ : Nat) (x : Index) (w r : Place) (s : State), s.ready = true → s.formed f = true →
    (∀ p ∈ (s.fold f).seqs, p.2.phase = 0) → (s.fold f).rcl.waiting = d :: l → bitsOf (s.act (rRclQuery f)) 7 0 ≠ 0 → s.index f = some x → Calm f s →
    at_ = (if descNum d 36 6 = 0 then s.ixSeq x else descNum d 36 6) → at_ ≤ s.ixSeq x → (descNum d 36 6 ≠ 0 → s.ixFloor x ≤ at_) →
    s.place f (descNum d 16 6) (rclV x.dim) 0 = .ok w → s.place f (descNum d 24 6) (descNum d 22 2 * 8) 0 = .ok r →
    (∀ a, r = .cell a → a < 0x300000000000 → ∀ i ∈ spanSheets s f a (descNum d 22 2 * 8), (s.fold f).backed i = true) →
    ∃ n cut u, exec (.queryAdmit f) s = .next (complete opRecallQuery d stOk 0 (leBytes 2 n ++ leBytes 1 (b2n cut) ++ [0] ++ leBytes 6 at_ ++ [0]) u) ∧
      n ≤ descNum d 22 2 ∧ (u.fold f).rcl.waiting = l ∧ u.sessions = s.sessions) ∧
  (∀ (d : Desc) (s : State) (f n : Nat) (x : Index) (w : Place) (data : List Byte) (ids : List Nat), f = s.ringOwner d.ring → n = descNum d 24 4 →
    Admitted opRecallInsert false d s → bodyReserved d [(16, 21), (24, 27)] = true → s.index f = some x → 1 ≤ n → n ≤ 65536 → Calm f s → AreaBacked x s →
    s.place f (descNum d 16 6) (n * (8 + rclV x.dim)) 0 = .ok w →
    data = (match w with
      | .cell a => s.read a (n * (8 + rclV x.dim))
      | .host p => s.linkRead p (n * (8 + rclV x.dim))) →
    ids = (List.range n).map (fun k => leAt data (k * (8 + rclV x.dim)) 4) → badRecord s x ids = none →
    sideSpan (s.ixSideStart x) (s.ixSideEnd x) + n ≤ sideRing →
    s.ixUsed x + sideSpan (s.ixSideStart x) (s.ixSideEnd x) + n ≤ min (x.cap + sideRing) 4294967295 → s.ixSeq x + n ≤ 2 ^ 48 - 1 →
    ∃ u, exec (.recallInsert d) s = .next (complete opRecallInsert d stOk 0 (leBytes 4 n ++ leBytes 6 (s.ixSeq x + n) ++ [0]) u) ∧
      u.ixSeq x = s.ixSeq x + n ∧ u.ixLive x = (s.ixLive x + n) % 2 ^ 32 ∧ u.ixSideEnd x = (s.ixSideEnd x + n) % 2 ^ 32 ∧
      (∀ k, k < n → u.recId (x.sideAt (s.ixSideEnd x + k)) = ids.getD k 0 ∧ u.recIns (x.sideAt (s.ixSideEnd x + k)) = s.ixSeq x + k + 1 ∧
        u.recDel (x.sideAt (s.ixSideEnd x + k)) = 0)) ∧
  (∀ (d : Desc) (s : State) (f n : Nat) (x : Index) (w : Place) (data : List Byte), f = s.ringOwner d.ring → n = descNum d 24 4 →
    Admitted opRecallDelete false d s → bodyReserved d [(16, 21), (24, 27)] = true → s.index f = some x → 1 ≤ n → n ≤ 65536 → Calm f s → AreaBacked x s →
    (∀ e, (s.mapEntry x e).2 < x.cap ∨ sideLoc ≤ (s.mapEntry x e).2) →
    s.place f (descNum d 16 6) (n * 4) 0 = .ok w →
    data = (match w with
      | .cell a => s.read a (n * 4)
      | .host p => s.linkRead p (n * 4)) →
    (∀ k, k < n → leAt data (4 * k) 4 ≠ noSlot) → s.ixSeq x + n ≤ 2 ^ 48 - 1 →
    ∃ k u, exec (.recallDelete d) s = .next (complete opRecallDelete d stOk 0 (leBytes 4 k ++ leBytes 6 (s.ixSeq x + k) ++ [0]) u) ∧
      k ≤ n ∧ u.ixSeq x = s.ixSeq x + k) ∧
  (∀ (d : Desc) (s : State) (f : Nat) (x : Index), f = s.ringOwner d.ring → Admitted opRecallMerge false d s →
    bodyReserved d [(16, 19)] = true → s.index f = some x → (s.fold f).rcl.merge = none → Calm f s →
    ∃ u, exec (.recallMerge d) s = .next (goOnMerge f x
      { mSeq := s.ixSeq x
        left := if descNum d 16 4 = 0 then sideSpan (s.ixSideStart x) (s.ixSideEnd x) else min (sideSpan (s.ixSideStart x) (s.ixSideEnd x)) (descNum d 16 4)
        placed := 0, freed := 0, desc := d } u) ∧ u.mem = s.mem) ∧
  (∀ (f : Nat) (x : Index) (m : Merge) (s : State), s.ready = true → (s.fold f).rcl.merge = some m → s.index f = some x → Calm f s → AreaBacked x s →
    1 ≤ m.left → m.left ≤ sideSpan (s.ixSideStart x) (s.ixSideEnd x) → s.ixEntries x = [] → s.ixFree x = noSlot → s.ixHigh x + min 256 m.left ≤ x.cap →
    x.cap < noSlot →
    ∃ r, mergeRound x m s = .ok r ∧ r.1.left = m.left - min 256 m.left ∧ r.1.placed ≤ m.placed + min 256 m.left ∧
      exec (.mergeRoundCommit f) s = .next (goOnMerge f x r.1 (closeRound x r.2)) ∧ (closeRound x r.2).ixGen x = (r.2.ixGen x + 1) % 2 ^ 64) ∧
  (∀ (f : Nat) (x : Index) (m : Merge) (r : Merge × State) (s : State), s.ready = true → (s.fold f).rcl.merge = some m → s.index f = some x →
    mergeRound x m s = .ok r → exec (.mergeRoundCommit f) s = .next (goOnMerge f x r.1 (closeRound x r.2)))

/-! ### Snapshots and droves (14, 18) -/

/-- 14 R366, R370 to R379, R380: SNAPSHOT_CUT fixes a cut step LEAD steps ahead (2 with LEAD 0), tells the root and answers it with its slot; each
SNAPSHOT_DRAIN_SHEET writes the next store sheet of the shard, the header last; SHARD_COMPLETE reports a shard whose sheets are durable and counts
it; MANIFEST_BUILD at a member that is not the root ends the snapshot by the root's word, and a complete one raises LAST_STEP;
SNAPSHOT_RESTORE of a named session whose home is elsewhere passes the checks and runs on the set that is chosen. -/
def Obligations.SnapshotsAndRestores : Prop :=
  (∀ (d : Desc) (s : State) (f c : Nat), f = s.ringOwner d.ring → Admitted opSnapshotCut false d s → bodyReserved d [(16, 19)] = true →
    descNum d 16 4 ≠ 1 → descNum d 16 4 ≤ 1024 → (s.fold f).ns.state ≠ nsAbsent → s.snapSlots f ≠ 0 → (s.fold f).snap.state = 0 →
    (s.fold f).drain = none → c = (s.fold f).stepNo + (if descNum d 16 4 = 0 then 2 else descNum d 16 4) →
    exec (.snapshotCut d) s = .next
      (let b := beginDesc opSnapshotCut d s
       let k := b.cutSlot f
       complete opSnapshotCut d stDeferred 0 (leBytes 8 c ++ leBytes 1 k ++ [0, 0])
         (mailRoot f (.cut c k) (b.modFold f (fun x => { x with cutAt := some (c, k), snap := { x.snap with state := 1, slot := k, step := c } }))))) ∧
  (∀ (f : Nat) (q : Snap) (s t : State) (c : List Byte × State), s.ready = true → q = (s.fold f).snap → q.state = 2 → q.fail = none →
    q.digest = none → q.reported = false → s.act (rSnapDrainRate f) = 0 → q.written < q.sheets → (q.written = 0 →
      q.sheets + (if s.isRoot f then manifestSheets (s.contributors f).length else 0) ≤ s.act (rSnapSlotSheets f)) →
    c = drainContent f q.written s → storeSheet f q.slot q.written c.1 c.1 c.2 = .ok t →
    exec (.snapshotDrainSheet f) s = .next (t.modSnap f (fun p => { p with
      written := p.written + 1, drainedMs := (t.now / 1000, if p.drainedMs.1 = t.now / 1000 then p.drainedMs.2 + 1 else 1) }))) ∧
  (∀ (f i : Nat) (q : Snap) (s u : State), s.ready = true → q = (s.fold f).snap → q.state = 2 → q.fail = none → q.digest = none → q.reported = false →
    s.act (rSnapDrainRate f) = 0 → q.written < q.sheets → (q.written = 0 →
      q.sheets + (if s.isRoot f then manifestSheets (s.contributors f).length else 0) ≤ s.act (rSnapSlotSheets f)) →
    (s.fold f).ns.state ≠ nsReadOnly → i = s.slotBase f q.slot + q.written → u = discardSheet f i (drainContent f q.written s).2 →
    (u.fold f).ns.state ≠ nsReadOnly → (drainContent f q.written s).2.slotBase f q.slot = s.slotBase f q.slot →
    (u.fold f).use 2 < u.quota f 2 → ((u.fold f).usedLocs 2).length < 131072 * (u.fold f).penList.length → u.snapReplicate f = false →
    ∃ t, exec (.snapshotDrainSheet f) s = .next t ∧ (i, 3) ∈ (t.fold f).requests ∧ (t.fold f).backed i = true) ∧
  (∀ (f : Nat) (s : State), s.ready = true → (s.fold f).snap.state = 2 → (s.fold f).snap.reported = false → (s.fold f).snap.fail = none →
    s.shardMoveFail f = none → s.shardDurable f = true →
    exec (.shardComplete f) s = .next
      (let t := (s.count (rSnapShardsDone f) 1).modSnap f (fun q => { q with reported := true, fail := none })
       snapshotDone f 0 (t.memberIndex f) stOk (mailRoot f (.shard (t.fold f).snap.step (t.ownReport f)) t))) ∧
  (∀ (f : Nat) (l : List ShardReport) (s : State), s.ready = true → (s.fold f).snap.state = 2 → (s.fold f).snap.reported = true →
    s.isRoot f = false → (s.fold f).snap.fail = none → (s.fold f).snap.sessions = [] →
    ∃ t, exec (.manifestBuild f l) s = .next t ∧ (t.fold f).snap.state = 0 ∧ (t.fold f).snap.lastStep =
        (if l.all (fun r => r.status == stOk) then BitVec.ofNat 64 (s.fold f).snap.step else (s.fold f).snap.lastStep) ∧
      t = { s with folds := t.folds }) ∧
  (∀ (d : Desc) (o : List MemberStore) (m : List (List Byte)) (s : State) (f p : Nat), f = s.ringOwner d.ring →
    Admitted opSnapshotRestore true d s → bodyReserved d [(16, 24), (32, 37), (40, 45)] = true → descByte d 24 = 0 → d.session ≠ 0 →
    sidDevice d.session ≠ s.selfNo → s.sess d.session = none → hasN (s.fold f).snap.restores d.session.toNat = false →
    s.hostPhys f (descNum d 40 6) 65536 0 = .ok p →
    ∃ t, restoreBody d o none m (beginDesc opSnapshotRestore d s) = .ok t ∧ exec (.snapshotRestore d o m) s = .next t)

/-- 18 R460 to R464, 14 R384 to R388: DROVE_JOIN with a well-formed block that names this device leaves the join pending, or joins a drove of one
at once; reports gather at member 0, the last of which commits the join there and on every member; JOIN_COMMIT sets DROVE and MEMBER and starts the step number at 0; JOIN_LIMIT_EXPIRY gives the join up with
ST_PEER_LOST and the first index that has not reported (log entry 63); DROVE_LEAVE and DROVE_REBALANCE begin their drains at the root, or have
the root begin them; DROVE_SHRINK at a lost
member's predecessor starts the shrink; SHRINK_COMPLETE ends it, here and, by P's word, at another member. -/
def Obligations.DrovesJoinLeaveAndShrink : Prop :=
  (∀ (d : Desc) (s : State) (f a : Nat) (h b : List Byte) (j : Join), f = descByte d 16 → a = descNum d 24 6 → bitOf (descByte d 32) 0 = false →
    Admitted opDroveJoin false d s → joinReserved d = true → s.formed f = true → s.hostRead mgmtPath a 128 = .ok h →
    s.hostRead mgmtPath a (128 + 4 * min 262144 (leAt h 16 4)) = .ok b → joinListOk s f b = true → joinBusy s f = false → joinMismatch s f b = 0 →
    j = { desc := d, drove := BitVec.ofNat 32 (leAt b 12 4), members := joinDevices b, index := (joinDevices b).findIdx (· == s.selfNo),
          deadline := s.now + descNum d 20 4, reports := [((joinDevices b).findIdx (· == s.selfNo), stOk)] } →
    exec (.droveJoin d) s = .next
      (let t := (beginDesc opDroveJoin d s).modFold f (fun x => { x with join := some j, joinOver := none })
       if (joinDevices b).length = 1 then commitJoin f t else sendReport f j.index stOk 0 b t)) ∧
  (∀ (f i : Nat) (j k : Join) (s t : State), s.ready = true → (s.fold f).join = some j → j.index = 0 → i < j.members.length →
    k = { j with reports := setN j.reports i stOk } → t = s.modFold f (fun x => { x with join := some k }) →
    exec (.joinReport f i stOk) s = .next (if k.reports.length = k.members.length then commitJoin f (sendVerdict f 0 stOk k t) else t)) ∧
  (∀ (f : Nat) (j : Join) (s : State), s.ready = true → (s.fold f).join = some j → (j.index ≠ 0 ∨ j.reports.length = j.members.length) →
    j.index < 2 ^ 18 → j.members.length ≤ 2 ^ 18 → j.members.headD 0 < 2 ^ 18 →
    ∃ t, exec (.joinCommit f) s = .next t ∧ t.act (rFabFoldDrove f) = j.drove.toNat + 2 ^ 32 ∧
      t.act (rFabFoldMember f) = j.index + j.members.length * 2 ^ 18 + j.members.headD 0 * 2 ^ 46 ∧
      (t.fold f).join = none ∧ (t.fold f).members = j.members ∧ (t.fold f).stepNo = 0) ∧
  (∀ (f i : Nat) (j : Join) (s : State), s.ready = true → (s.fold f).join = some j → j.index = 0 → j.deadline ≤ s.now →
    j.reports.length ≠ j.members.length → (List.range j.members.length).find? (fun i => !hasN j.reports i) = some i →
    exec (.joinLimitExpiry f) s = .next (dropJoin f i stPeerLost
      ((sendVerdict f i stPeerLost j s).modFold f (fun x => { x with joinOver := some (j.drove, stPeerLost, i) })))) ∧
  (∀ (d : Desc) (s : State) (f : Nat), f = descByte d 16 → bitOf (descByte d 32) 0 = true → Admitted opDroveJoin false d s → joinReserved d = true →
    s.formed f = true → (s.drove f).isSome = true → (s.fold f).drain = none →
    (s.isRoot f = true → exec (.droveLeave d) s = .next (leadDrain f
      { kind := 3, deadline := s.now + descNum d 20 4, desc := d, arg := 0, loading := false, boundary := 0, depth := s.act (rScrWindowDepth f) } (beginDesc opDroveJoin d s))) ∧
    (s.isRoot f = false → ∀ t, startDrain f 3 (descNum d 20 4) d 0 (beginDesc opDroveJoin d s) = .ok t → exec (.droveLeave d) s = .next t)) ∧
  (∀ (d : Desc) (s : State) (f : Nat), f = descByte d 16 → Admitted opDroveShrink false d s → bodyReserved d [(16, 16), (20, 23)] = true →
    descNum d 20 4 < 2 ^ 18 → s.formed f = true → s.shrinkable f (descNum d 20 4) = true →
    s.predecessor f (descNum d 20 4) = s.memberIndex f → (s.fold f).snap.state ≠ 4 →
    exec (.droveShrink d) s = .next ((beginDesc opDroveShrink d s).modSnap f (fun q => { q with state := 4, job := some d, lostMember := some (descNum d 20 4) }))) ∧
  (∀ (f l : Nat) (s : State), s.ready = true → (s.fold f).snap.lostMember = some l → s.predecessor f l ≠ s.memberIndex f →
    exec (.shrinkComplete f) s = .next (finishShrink f l s)) ∧
  (∀ (f l : Nat) (s t u : State), s.ready = true → (s.fold f).snap.lostMember = some l → s.predecessor f l = s.memberIndex f →
    (s.fold f).snap.state = 4 → takeSlice f (s.modSnap f (fun q => { q with job := none, share := [] })) = .ok t → takeShare f l t = .ok u →
    exec (.shrinkComplete f) s = .next
      (let v := (finishShrink f l (tellShrunk f l u)).count (rSnapShrinks f) 1
       match (s.fold f).snap.job with
       | some d => complete opDroveShrink d stOk 0 (leBytes 8 (v.fold f).stepNo) v
       | none => v)) ∧
  (∀ (d : Desc) (s : State) (f : Nat) (img : Image), f = descByte d 16 → Admitted opDroveRebalance false d s →
    bodyReserved d [(16, 17), (20, 23)] = true → s.formed f = true → descByte d 17 < 32 → s.image f (descByte d 17) = some img →
    img.members = s.droveSize f → img.pinnedSlots (s.act (rScrWindowDepth f)) ≤ 96 → (s.fold f).drain = none →
    poolExcess (s.fold f) (img.pinnedSlots (s.act (rScrWindowDepth f))) ≤ (beginDesc opDroveRebalance d s).room f 2 →
    ∀ u, u = (beginDesc opDroveRebalance d s).modSnap f
      (fun q => if q.halted && q.lostMember.isNone then { q with halted := false, state := 0 } else q) →
    (s.isRoot f = true → exec (.droveRebalance d) s = .next (leadDrain f
      { kind := 2, deadline := s.now + descNum d 20 4, desc := d, arg := descByte d 17, loading := false, boundary := 0, depth := s.act (rScrWindowDepth f) } u)) ∧
    (s.isRoot f = false → ∀ t, startDrain f 2 (descNum d 20 4) d (descByte d 17) u = .ok t → exec (.droveRebalance d) s = .next t))

/-! ### Keys and attestation (15) -/

/-- 15 R401: KEY_INSTALL of an owner point, of an image key wrapped under the ephemeral key, and removal, with every check passed: the table of the
fold gains or loses exactly the key named and the descriptor completes ST_OK. -/
def Obligations.InstallingAndRemovingKeys : Prop :=
  (∀ (d : Desc) (s : State) (f : Nat) (pt : List Byte), f = s.ringOwner d.ring → descByte d 16 = 0 → Admitted opKeyInstall false d s →
    bodyReserved d [(16, 16), (24, 29), (32, 47)] = true → s.hostRead f (descNum d 24 6) 97 = .ok pt →
    holdsKey (s.fold f).key.ownerKeys (descBytes d 32 16) = false → (s.fold f).key.ownerKeys.length < 16 → Config.ecPointOk pt = true →
    exec (.keyInstallOwner d) s = .next (complete opKeyInstall d stOk 0 []
      ((beginDesc opKeyInstall d s).modKey f (fun k => { k with ownerKeys := k.ownerKeys ++ [(descBytes d 32 16, pt)] })))) ∧
  (∀ (d : Desc) (s : State) (f : Nat) (b key : List Byte) (e : Ephemeral), f = s.ringOwner d.ring → descByte d 16 = 1 →
    Admitted opKeyInstall false d s → bodyReserved d [(16, 16), (24, 29), (32, 47)] = true → s.hostRead f (descNum d 24 6) 256 = .ok b →
    blobOk b = true → holdsKey (s.fold f).key.imageKeys (descBytes d 32 16) = false → (s.fold f).key.imageKeys.length < 32 →
    (s.fold f).key.ephemeral = some e → unwrapKey e (descBytes d 32 16) b = some key →
    exec (.keyInstallImage d) s = .next (complete opKeyInstall d stOk 0 []
      ((beginDesc opKeyInstall d s).modKey f (fun k => { k with imageKeys := k.imageKeys ++ [(descBytes d 32 16, key)] })))) ∧
  (∀ (d : Desc) (s : State) (f : Nat), f = s.ringOwner d.ring → descByte d 16 = 2 → Admitted opKeyInstall false d s →
    bodyReserved d [(16, 16), (24, 29), (32, 47)] = true →
    (holdsKey (s.fold f).key.imageKeys (descBytes d 32 16) = true ∨ holdsKey (s.fold f).key.ownerKeys (descBytes d 32 16) = true) → s.keyInUse f (descBytes d 32 16) = false →
    exec (.keyRemove d) s = .next (complete opKeyInstall d stOk 0 [] ((beginDesc opKeyInstall d s).modKey f (fun k =>
      { k with imageKeys := k.imageKeys.filter (fun p => p.1 != descBytes d 32 16)
               ownerKeys := k.ownerKeys.filter (fun p => p.1 != descBytes d 32 16) }))))

/-- 15 R405 to R407: KEY_ROTATE of a LIVE key draws the next one; with no namespace the sweep begins at once, else when the sealed record is durable;
KEY_SWEEP_STEP closes a sweep with nothing left, and otherwise takes the next old form at most SEC_SWEEP_RATE a ms; a pass that left forms is retried
after a second. `drbg 64 s` gives the free value that is the new key. -/
def Obligations.RotatingKeys : Prop :=
  (∀ (d : Desc) (s : State) (f : Nat) (r : List Byte × State), f = s.ringOwner d.ring → Admitted opKeyRotate false d s → bodyReserved d [] = true →
    (s.fold f).key.state = 1 → (s.fold f).key.next = none → (s.fold f).key.g ≠ BitVec.allOnes 32 →
    drbg 64 (beginDesc opKeyRotate d s) = some r → (s.fold f).ns.state ≠ nsReadOnly →
    exec (.keyRotate d) s = .next (if (s.fold f).ns.state = nsAbsent then enterSweep f r.1 d r.2
      else r.2.modKey f (fun k => { k with next := some (r.1, d) }))) ∧
  (∀ (f : Nat) (key : List Byte) (d : Desc) (s : State), s.ready = true → (s.fold f).key.next = some (key, d) →
    ∃ t, exec (.keyRecordDurable f stOk) s = .next t ∧ (t.fold f).key.state = 2 ∧ (t.fold f).key.g = (s.fold f).key.g + 1 ∧
      (t.fold f).key.current = key ∧ (t.fold f).key.old = (s.fold f).key.current ∧ (t.fold f).key.next = none ∧ t.mem = s.mem) ∧
  (∀ (f : Nat) (s : State), s.ready = true → (s.fold f).key.state = 2 → (s.fold f).key.old ≠ [] → (s.fold f).key.sweepLeft = 0 →
    (s.fold f).ns.state = nsAbsent →
    ∃ t, exec (.keySweepStep f) s = .next t ∧ (t.fold f).key.state = 1 ∧ (t.fold f).key.old = [] ∧ (t.fold f).key.g = (s.fold f).key.g ∧
      t.mem = s.mem ∧ t.sessions = s.sessions) ∧
  (∀ (f : Nat) (s : State), s.ready = true → (s.fold f).key.state = 2 → (s.fold f).key.old ≠ [] → (s.fold f).key.sweepLeft ≠ 0 →
    (s.fold f).key.passEnd = none → s.act (rSecSweepRate f) = 0 →
    exec (.keySweepStep f) s = .next (sweepNext f (s.modKey f (fun k => { k with
      sweptMs := (s.now / 1000, (if k.sweptMs.1 = s.now / 1000 then k.sweptMs.2 else 0) + 1) })))) ∧
  (∀ (f t : Nat) (s : State), s.ready = true → (s.fold f).key.passEnd = some t → t + 1000000 ≤ s.now →
    exec (.sweepPassRetry f) s = .next (s.modKey f (fun k => { k with passEnd := none, sweepAt := 0 })))

/-- 15 R396 to R399: ATTEST writes evidence with the nonce read from the host and a signature by AK; with EPHEMERAL a key drawn for it is in the
evidence and held for the fold from then on; with CHAIN it writes the factory chain and the alias certificate; all complete ST_OK with the length
written. EPHEMERAL_KEY_EXPIRY drops a key older than SEC_EPH_LIFE (at least a second). -/
def Obligations.AttestationAndEphemeralKeys : Prop :=
  (∀ (d : Desc) (s : State) (f p : Nat) (nonce : List Byte) (sig : List Byte × State) (b : State), f = s.ringOwner d.ring → b = beginDesc opAttest d s →
    Admitted opAttest false d s → attestReserved d = true → descByte d 32 = 0 → s.evidenceLen ≤ descNum d 36 4 → s.sec.tainted = false →
    s.hostRead f (descNum d 16 6) 48 = .ok nonce → s.hostPhys f (descNum d 24 6) s.evidenceLen 0 = .ok p →
    signAk (evidenceBody b f nonce none) b = some sig → (evidenceBody b f nonce none ++ sig.1).length = s.evidenceLen →
    exec (.attest d) s = .next (complete opAttest d stOk 0 (leBytes 4 s.evidenceLen ++ zerosB 7)
      (sig.2.hostWrite f (descNum d 24 6) (evidenceBody b f nonce none ++ sig.1)))) ∧
  (∀ (d : Desc) (s : State) (f p : Nat) (nonce : List Byte) (k sig : List Byte × State) (b : State), f = s.ringOwner d.ring → b = beginDesc opAttest d s →
    Admitted opAttest false d s → attestReserved d = true → descByte d 32 = 1 → s.evidenceLen ≤ descNum d 36 4 → s.sec.tainted = false →
    s.hostRead f (descNum d 16 6) 48 = .ok nonce → s.hostPhys f (descNum d 24 6) s.evidenceLen 0 = .ok p →
    drbg 64 b = some k → signAk (evidenceBody k.2 f nonce (some (Config.ecPublic (scalarOf k.1)))) k.2 = some sig →
    (evidenceBody k.2 f nonce (some (Config.ecPublic (scalarOf k.1))) ++ sig.1).length = s.evidenceLen →
    exec (.attestEphemeral d) s = .next (complete opAttest d stOk 0 (leBytes 4 s.evidenceLen ++ zerosB 7)
      ((sig.2.modKey f (fun x => { x with
          ephemeral := some { secret := scalarOf k.1, pub := Config.ecPublic (scalarOf k.1), nonce := nonce, created := s.now } })).hostWrite
        f (descNum d 24 6) (evidenceBody k.2 f nonce (some (Config.ecPublic (scalarOf k.1))) ++ sig.1)))) ∧
  (∀ (d : Desc) (s : State) (f p : Nat) (l : List Byte), f = s.ringOwner d.ring → Admitted opAttest false d s → attestReserved d = true →
    descByte d 32 = 2 → l = leBytes 4 (s.sec.chain.length + 1) ++ (s.sec.chain ++ [s.sec.aliasCert]).flatMap (fun c => leBytes 4 c.length ++ c) →
    l.length ≤ descNum d 36 4 → s.sec.tainted = false → s.hostPhys f (descNum d 24 6) l.length 0 = .ok p →
    exec (.attestChain d) s = .next (complete opAttest d stOk 0 (leBytes 4 l.length ++ zerosB 7)
      ((beginDesc opAttest d s).hostWrite f (descNum d 24 6) l))) ∧
  (∀ (f : Nat) (e : Ephemeral) (s : State), s.ready = true → (s.fold f).key.ephemeral = some e →
    e.created + max 1000000 (s.act rSecEphLife) ≤ s.now →
    exec (.ephemeralKeyExpiry f) s = .next (s.modKey f (fun k => { k with ephemeral := none })))

/-! ### Management descriptors: quota, role, gates, health (05, 02, 12, 13) -/

/-- 02 R46, 04 R121, 12 R326 to R329: QUOTA_SET of a tier within its bound sets the quota, answers quota and use and asks for the moves that
follow; ROLE_SET to another role begins its drain; an expired drain limit ends the drain with ST_BUSY; FLASH_DISCARD of a range in the window
discards every backed sheet that is not shared, wet, a weight tile or the enabled index, and says how many were skipped; HEALTH_READ writes the log
it names. -/
def Obligations.QuotaRoleDiscardAndHealth : Prop :=
  (∀ (d : Desc) (s : State) (f t : Nat), f = descByte d 16 → t = descByte d 17 → Admitted opQuotaSet false d s →
    bodyReserved d [(16, 17), (20, 23)] = true → s.formed f = true → 2 ≤ t → t ≤ 4 → descNum d 20 4 ≤ s.quotaBound f t →
    exec (.quotaSet d) s = .next
      (let u := (beginDesc opQuotaSet d s).modFold f (fun x => { x with
         quota := setN x.quota t (descNum d 20 4) })
       reduceTier f t (complete opQuotaSet d stOk 0 (leBytes 4 (descNum d 20 4) ++ leBytes 4 ((dropQuotaMoves f t u).fold f |>.use t)) (dropQuotaMoves f t u)))) ∧
  (∀ (d : Desc) (s : State) (f : Nat), f = descByte d 16 → Admitted opRoleSet false d s → bodyReserved d [(16, 17), (20, 23)] = true →
    s.formed f = true → descByte d 17 ≤ 1 → (s.fold f).drain = none → (s.fold f).role ≠ descByte d 17 →
    (s.isRoot f = true → exec (.roleSet d) s = .next (leadDrain f
      { kind := 0, deadline := s.now + descNum d 20 4, desc := d, arg := descByte d 17, loading := false, boundary := 0, depth := s.act (rScrWindowDepth f) } (beginDesc opRoleSet d s))) ∧
    (s.isRoot f = false → ∀ t, startDrain f 0 (descNum d 20 4) d (descByte d 17) (beginDesc opRoleSet d s) = .ok t → exec (.roleSet d) s = .next t)) ∧
  (∀ (f : Nat) (q : Drain) (s : State), s.ready = true → (s.fold f).drain = some q → q.loading = false → q.deadline ≤ s.now →
    exec (.drainLimitExpiry f) s = .next (complete (drainOp q.kind) q.desc stBusy 0 [] (s.modFold f (fun x => { x with drain := none })))) ∧
  (∀ (d : Desc) (s : State) (f a n : Nat) (skip drop : List Nat), f = s.ringOwner d.ring → a = descNum d 16 6 → n = descNum d 24 4 →
    Admitted opFlashDiscard false d s → bodyReserved d [(16, 21), (24, 27)] = true → a % 65536 = 0 → 1 ≤ n → n ≤ 16777216 →
    s.winBase f ≤ a → a + n * 65536 ≤ s.winLimit f →
    skip = ((keysN (s.fold f).sheets).filter (fun i => decide (s.mapIndex f a ≤ i) && decide (i < s.mapIndex f a + n))).filter (discardSkips s f) →
    drop = ((keysN (s.fold f).sheets).filter (fun i => decide (s.mapIndex f a ≤ i) && decide (i < s.mapIndex f a + n))).filter
      (fun i => !discardSkips s f i) →
    (∀ i ∈ drop, ((s.fold f).sheet i).tier ≠ 3) →
    exec (.flashDiscard d) s = .next (complete opFlashDiscard d stOk 0 (leBytes 4 (n - skip.length) ++ leBytes 4 skip.length ++ zerosB 3)
      (discardAll f drop (beginDesc opFlashDiscard d s)))) ∧
  (∀ (d : Desc) (s t : State) (f : Nat), f = s.ringOwner d.ring → Admitted opHealthRead false d s → bodyReserved d [(16, 21), (24, 24)] = true →
    descByte d 24 = 0 → (s.fold f).ns.state ≠ nsAbsent →
    writeLocal f (descNum d 16 6) (healthPage (beginDesc opHealthRead d s) f) (beginDesc opHealthRead d s) = .ok t →
    exec (.healthRead d) s = .next (complete opHealthRead d stOk 0 [] t)) ∧
  (∀ (d : Desc) (s t : State) (f : Nat), f = s.ringOwner d.ring → Admitted opHealthRead false d s → bodyReserved d [(16, 21), (24, 24)] = true →
    descByte d 24 = 1 → (s.fold f).ns.state ≠ nsAbsent →
    writeLocal f (descNum d 16 6) (grownBadLog (s.fold f).ns) (beginDesc opHealthRead d s) = .ok t →
    exec (.healthReadGrownBad d) s = .next (complete opHealthRead d stOk 0 [] t)) ∧
  (∀ (d : Desc) (row : Desc → Instr) (l : List Byte) (s b : State) (f p : Nat), f = s.ringOwner d.ring → b = beginDesc opHealthRead d s →
    Admitted opHealthRead false d s → bodyReserved d [(16, 21), (24, 24)] = true →
    ((row, descByte d 24, l) = (Instr.healthRead, 0, healthPage b f) ∨ (row, descByte d 24, l) = (Instr.healthReadGrownBad, 1, grownBadLog (s.fold f).ns)) →
    (s.fold f).ns.state ≠ nsAbsent → b.place f (descNum d 16 6) l.length 0 = .ok (.host p) →
    exec (row d) s = .next (complete opHealthRead d stOk 0 [] (b.linkWrite p l)))

/-- 13 R360 to R362: GATE_LIST_LOAD of well-formed entries for ports that have none pending holds the list until START, or takes it over at once
where START has passed, and says which; CANCEL drops the pending lists; GATE_LIST_TAKEOVER puts the pending list in force at entry 0; and
GATE_ENTRY_ADVANCE goes to the next entry, from the last to the first. -/
def Obligations.GateLists : Prop :=
  (∀ (d : Desc) (s : State) (b : List Byte) (ports : List Nat) (n start : Nat), ports = bitsSet 18 (descNum d 24 4) → n = descByte d 28 →
    start = descNum d 32 8 → bitOf (descByte d 29) 0 = false → Admitted opGateListLoad false d s → gateReserved d = true → 1 ≤ n → n ≤ 64 →
    ports ≠ [] → s.hostRead mgmtPath (descNum d 16 6) (8 * n) = .ok b → (∀ e ∈ gateEntries b, 20 ≤ e.ns) →
    (∀ i < n, leAt b (8 * i + 2) 2 = 0) → (∀ p ∈ ports, (s.port p).pendingGates = none) →
    ∃ t, exec (.gateListLoad d) s = .next t ∧ (∀ p, t.port p = if p ∈ ports then
        (if start ≤ s.now then Port.takeOver (gateEntries b) (s.port p) else { s.port p with pendingGates := some (gateEntries b, start) }) else s.port p) ∧
      CompletionsOnly { s with fab := t.fab } t) ∧
  (∀ (d : Desc) (s : State) (ports : List Nat), ports = bitsSet 18 (descNum d 24 4) → bitOf (descByte d 29) 0 = true →
    Admitted opGateListLoad false d s → gateReserved d = true → descByte d 28 = 0 → ports ≠ [] →
    ∃ t, exec (.gateListCancel d) s = .next t ∧
      (∀ p, t.port p = if p ∈ ports then { s.port p with pendingGates := none } else s.port p) ∧ CompletionsOnly { s with fab := t.fab } t) ∧
  (∀ (p start : Nat) (l : List GateEntry) (s : State), s.ready = true → p < 18 → (s.port p).pendingGates = some (l, start) → start ≤ s.now →
    ∃ t, exec (.gateListTakeover p) s = .next t ∧ (t.port p).gates = some l ∧ (t.port p).gateIndex = 0 ∧ (t.port p).pendingGates = none ∧
      (∀ r, r ≠ p → t.port r = s.port r) ∧ t = { s with fab := t.fab }) ∧
  (∀ (p : Nat) (l : List GateEntry) (s : State), s.ready = true → p < 18 → (s.port p).gates = some l → l ≠ [] →
    ∃ t, exec (.gateEntryAdvance p) s = .next t ∧ (t.port p).gateIndex = ((s.port p).gateIndex + 1) % l.length ∧ (t.port p).gates = some l ∧
      (∀ r, r ≠ p → t.port r = s.port r) ∧ t = { s with fab := t.fab })

/-! ### Steps and layer programs (05, 06, 07, 09) -/

/-- 05 R134, R142, R509, 09 R241 to R248: STEP_START takes the published list, admits queries, marks the reduction counts, drafts and starts every
pen; EMPTY_STEP at the root of a fold on which something waits for a boundary runs the commit point alone, once the other
members have its list; the root judges every item once its step has run and
every member's slices have come, and broadcasts the record;
VERIFICATION_COMMIT applies the root's judgement, or the record a member has received, in work-list order and then runs the commit point;
ACCOUNTING_PAGE writes page k to its half when its time has come; a home's ST_OK to a transcript write releases the step's tokens. -/
def Obligations.StepsRunAndCommit : Prop :=
  (∀ (f : Nat) (x : Image) (s b t : State), s.ready = true → s.activeImage f = some x → s.formed f = true → (s.fold f).step = none →
    (s.fold f).nextWork ≠ [] → (s.fold f).snap.halted = false → s.ackWaits f = false → s.seated f = true → b = admitQueries f (openStep f s) →
    draftPhase f x ((List.range (bitsOf ((b.fold f).penList.foldl (fun s n => s.modPen n (fun p => { p with raccMark := p.raccCount })) b |>.act
        (rInkPrefetch f)) 3 0)).foldl (fun s j => prefetchLayer f j s)
      ((b.fold f).penList.foldl (fun s n => s.modPen n (fun p => { p with raccMark := p.raccCount })) b)) = .ok t →
    exec (.stepStart f) s = .next (startRows f t)) ∧
  (∀ (f : Nat) (x : Image) (s b u : State), s.ready = true → s.activeImage f = some x → s.formed f = true → (s.fold f).step = none →
    (s.fold f).nextWork ≠ [] → (s.fold f).snap.halted = false → s.ackWaits f = false → s.seated f = true → b = admitQueries f (openStep f s) →
    u = (List.range (bitsOf ((b.fold f).penList.foldl (fun s n => s.modPen n (fun p => { p with raccMark := p.raccCount })) b |>.act
        (rInkPrefetch f)) 3 0)).foldl (fun s j => prefetchLayer f j s)
      ((b.fold f).penList.foldl (fun s n => s.modPen n (fun p => { p with raccMark := p.raccCount })) b) → u.draftSource f ≠ 1 →
    ∃ t, draftPhase f x u = .ok t ∧ exec (.stepStart f) s = .next (startRows f t)) ∧
  (∀ (f : Nat) (s : State), s.ready = true → s.formed f = true → (s.fold f).step = none → (s.fold f).nextWork = [] → s.boundaryWaits f = true →
    (s.fold f).snap.halted = false → s.ackWaits f = false → s.isRoot f = true → (s.fold f).awaiting = false → exec (.emptyStep f) s = .next
      (if s.others f = [] then commitPoint f [] (admitQueries f s) else postList f true (s.modFold f (fun x => { x with awaiting := true })))) ∧
  (∀ (f : Nat) (st : Step) (s : State), s.ready = true → (s.fold f).step = some st → st.verdicts = none → s.isRoot f = true → s.stepRun f = true →
    s.slicesIn f = true → (mergeSlices f s).logitsWhole f = true →
    exec (.verificationJudgement f) s = .next
      (let r := st.items.foldl (fun (t : List SeqVerdict × State) i => let v := judgeItem f i t.2; (t.1 ++ v.1.toList, v.2)) ([], mergeSlices f s)
       mailOthers f (.record st.number st.attempt r.1)
         (r.2.modFold f (fun x => { x with step := x.step.map (fun st => { st with verdicts := some r.1 }) })))) ∧
  (∀ (f : Nat) (st : Step) (img : Image) (record vs : List SeqVerdict) (s : State), s.ready = true → (s.fold f).step = some st →
    s.activeImage f = some img → (s.isRoot f = true ∧ st.verdicts = some vs ∨ s.isRoot f = false ∧ s.stepRun f = true ∧ vs = st.verdicts.getD record) →
    exec (.verificationCommit f record) s = .next (commitPoint f st.items
      (st.items.foldl (fun s i => registerChunk f img i s) (st.items.foldl (fun s i => applyItem f img vs i s) s)))) ∧
  (∀ (f k : Nat) (s : State), s.ready = true → s.formed f = true → s.act (rSchAcctInterval f) ≠ 0 → k = (s.fold f).acctPage + 1 →
    (s.fold f).acctFrom + k * s.act (rSchAcctInterval f) ≤ s.now →
    ∃ t, exec (.accountingPage f) s = .next t ∧ (t.fold f).acctPage = k ∧ (t.fold f).lcCount.waitMax = 0 ∧ (t.fold f).beCount.waitMax = 0 ∧
      RecordsOnly { s with folds := t.folds } t) ∧
  (∀ (x : W64) (y : Sess) (w : TxWait) (s : State), s.ready = true → s.sess x = some y → y.txWait = some w →
    exec (.transcriptWriteAck x stOk) s = .next
      (releaseStep x w.pen w.tokens w.text w.bad w.ending (s.modSess x (fun y => { y with txWait := none }))))

/-- 06 R158, R171, Table 6-7: the element-wise and reducing rows of the vector unit compute, on every row that is not excluded, what their table row
says, in FP32, and put the result in format FD. Exp, reciprocal and the activations are the implementation's, within the ulp the table gives them. -/
def Obligations.VectorRows : Prop :=
  BinaryRow .vewAdd 0x20 0 fpAdd ∧ BinaryRow .vewSubtract 0x20 1 fpSub ∧ BinaryRow .vewMultiply 0x20 2 fpMul ∧
  BinaryRow .vewMaximum 0x20 3 fpMax ∧ BinaryRow .vewMinimum 0x20 4 fpMin ∧
  UnaryRow .vewMultiplyConstant 0x20 5 fpMul ∧ UnaryRow .vewAddConstant 0x20 6 fpAdd ∧ UnaryRow .vewConvert 0x20 7 (fun v _ => v) ∧
  UnaryRow .vewExp 0x20 8 (fun v _ => vuExp v) ∧ UnaryRow .vewReciprocal 0x20 9 (fun v _ => vuRecip v) ∧
  UnaryRow .vewReciprocalSquareRoot 0x20 10 (fun v _ => vuRsqrt v) ∧
  ScalarRow .vredSum 0 rowSum ∧ ScalarRow .vredMaximum 1 rowMax ∧ ScalarRow .vredSumOfSquares 2 rowSquares ∧
  UnaryRow .actSilu 0x23 0 (fun v _ => vuSilu v) ∧ UnaryRow .actGeluErf 0x23 1 (fun v _ => vuGeluErf v) ∧
  UnaryRow .actGeluTanh 0x23 2 (fun v _ => vuGeluTanh v) ∧ BinaryRow .actSwiglu 0x23 3 (fun a b => fpMul (vuSilu a) b)

/-- 06 R168, R171 to R173: argmax of rows without a NaN, combine in slot order, RMSNorm and LayerNorm, ROPE and ROUTE: each where its operands
resolve. -/
def Obligations.NormRopeAndRouteRows : Prop :=
  (∀ (n : Nat) (op : OpWord) (f : Nat) (s : State) (a d : Nat) (c : Ctx), c = ⟨f, n, false⟩ → Runs n op 0x21 (some 3) f s → 1 ≤ opLen op →
    c.operand s op 32 (opLen op) (opFa op) = .ok a → c.operand s op 76 1 0 = .ok d →
    (∀ r, ∀ v ∈ (vecAt s a (opFa op) (opLen op) r).1, fpIsNan v = false) →
    exec (.vredArgmax n op) s = .next (advance n (c.putRows d 64 (fun r =>
      (leBytes 4 (BitVec.ofNat 32 ((vecAt s a (opFa op) (opLen op) r).1.findIdx
        (fun v => !fpLt v (rowMax (vecAt s a (opFa op) (opLen op) r).1)))).toNat, (vecAt s a (opFa op) (opLen op) r).2)) s))) ∧
  BodyRow .vredCombine 0x21 (some 4) vredCombine ∧
  (∀ (n : Nat) (op : OpWord) (f : Nat) (s : State) (a d : Nat) (rt : Nat × Nat) (c : Ctx), c = ⟨f, n, false⟩ → Runs n op 0x21 (some 4) f s →
    (s.pen n).route = some rt → 1 ≤ opLen op → c.operand s op 32 (rt.2 * opLen op) (opFa op) = .ok a → c.operand s op 76 (opLen op) (opFd op) = .ok d →
    exec (.vredCombine n op) s = .next (advance n (c.putVals op d (opFd op) (opLen op) (fun r =>
      (combineRow (opLen op) (routeSlots s rt r) (vecAt s a (opFa op) (rt.2 * opLen op) r).1,
       (vecAt s a (opFa op) (rt.2 * opLen op) r).2 || s.poisoned (rt.1 + r * 64) 64)) s))) ∧
  (∀ (n : Nat) (op : OpWord) (f : Nat) (s : State) (a d : Nat) (g : List W32 × Bool) (c : Ctx), c = ⟨f, n, false⟩ → Runs n op 0x22 (some 0) f s →
    1 ≤ opLen op → c.operand s op 32 (opLen op) (opFa op) = .ok a → gainAt c s op (opLen op) 0 = .ok g →
    c.operand s op 76 (opLen op) (opFd op) = .ok d →
    exec (.normRmsnorm n op) s = .next (advance n (c.putVals op d (opFd op) (opLen op) (fun r =>
      let x := vecAt s a (opFa op) (opLen op) r
      let k := vuRsqrt (fpAdd (fpDiv (rowSquares x.1) (fpNat (opLen op))) (c.const s op))
      ((x.1.zip g.1).map (fun e => fpMul (fpMul e.1 k) e.2), x.2 || g.2)) s))) ∧
  BodyRow .normLayernorm 0x22 (some 1) normLayer ∧
  (∀ (n : Nat) (op : OpWord) (f : Nat) (s : State) (a d : Nat) (g b : List W32 × Bool) (c : Ctx), c = ⟨f, n, false⟩ → Runs n op 0x22 (some 1) f s →
    1 ≤ opLen op → c.operand s op 32 (opLen op) (opFa op) = .ok a → gainAt c s op (opLen op) 0 = .ok g →
    gainAt c s op (opLen op) (rowBytes (opFb op) (opLen op)) = .ok b → c.operand s op 76 (opLen op) (opFd op) = .ok d →
    exec (.normLayernorm n op) s = .next (advance n (c.putVals op d (opFd op) (opLen op) (fun r =>
      (layerNormRow (opLen op) (c.const s op) g.1 b.1 (vecAt s a (opFa op) (opLen op) r).1,
       (vecAt s a (opFa op) (opLen op) r).2 || g.2 || b.2)) s))) ∧
  RopeRow .ropeHalfPairs 0 false ∧ RopeRow .ropeAdjacentPairs 1 true ∧
  RouteRow .routeTopkSoftmax 0 ∧ RouteRow .routeSoftmaxTopk 1 ∧ RouteRow .routeSoftmaxTopkNorm 2

/-- 06 R155, R156, R168, R169, 08 R214: MMA with its weights at W, GATHER, COPY, LOGITS of slices that no other operation covers, and ATTN once every
pen of the fold stands at it: at once where no other member holds positions of its heads (08 R222). -/
def Obligations.MatrixCopyAndAttentionRows : Prop :=
  (∀ (n : Nat) (op : OpWord) (f : Nat) (s : State) (a w d kt nt : Nat) (c : Ctx), c = ⟨f, n, false⟩ → Runs n op 0x10 none f s →
    kt = opBits op 107 98 → nt = opBits op 117 108 → bitOf op.toNat 10 = false → fmtBits (opFa op) ≠ 0 → fmtBits (opFb op) ≠ 0 → opFd op ≤ 1 →
    1 ≤ kt → 1 ≤ nt → opBits op 119 118 ≤ 1 → pairing (opFa op) (opFb op) = true →
    c.operand s op 32 (kt * tileDepth (opFb op)) (opFa op) = .ok a → c.oa s (opBits op 75 54) (kt * nt * 34816) = .ok w →
    c.operand s op 76 (nt * 128) (opFd op) = .ok d →
    exec (.opMma n op) s = .next (advance n (c.putVals op d (opFd op) (nt * 128) (fun r =>
      let old := if opBits op 119 118 = 1 then vecAt s d (opFd op) (nt * 128) r else ([], false)
      let x := mmaRow s (opFa op) (opFb op) kt nt (a + r * rowStride (opFa op) (kt * tileDepth (opFb op))) w old.1
      (x.1, x.2 || old.2)) s))) ∧
  BodyRow .opMma 0x10 none mmaOp ∧ BodyRow .opGather 0x50 none gatherOp ∧
  (∀ (n : Nat) (op : OpWord) (f b d : Nat) (s : State) (c : Ctx), c = ⟨f, n, false⟩ → Runs n op 0x50 none f s → opLen op % 64 = 0 →
    bindAddr s f n (opBits op 61 54) 0 = .ok b → c.oa s (opBits op 97 76) ((c.rows s).length * opLen op) = .ok d → Calm f s →
    (∀ r ∈ c.live s, ∀ k, k = b + ((c.rows s)[r]?).elim 0 (·.token) * opLen op →
      (∃ w, s.place f k (opLen op) 0 = .ok w) ∧ (∀ i ∈ spanSheets s f k (opLen op), (s.fold f).backed i = true)) →
    ∃ t, exec (.opGather n op) s = .next (advance n t) ∧ t.pens = s.pens ∧ t.sessions = s.sessions ∧ t.hostMem = s.hostMem) ∧
  (∀ (n : Nat) (op : OpWord) (f : Nat) (s : State) (a d : Nat) (c : Ctx), c = ⟨f, n, false⟩ → Runs n op 0x51 none f s → opLen op % 64 = 0 →
    c.oa s (opBits op 53 32) ((c.rows s).length * opLen op) = .ok a → c.oa s (opBits op 97 76) ((c.rows s).length * opLen op) = .ok d →
    exec (.opCopy n op) s = .next (advance n (c.putRows d (opLen op)
      (fun r => (s.read (a + r * opLen op) (opLen op), s.poisoned (a + r * opLen op) (opLen op))) s))) ∧
  (∀ (n : Nat) (op : OpWord) (f : Nat) (s : State) (a : Nat) (c : Ctx), c = ⟨f, n, false⟩ → Runs n op 0x60 none f s → 1 ≤ opLen op →
    c.operand s op 32 (opLen op) 0 = .ok a → (∀ o ∈ otherSlices op c s, slicesMeet op o = false) →
    exec (.opLogits n op) s = .next (advance n (sendSlices c (opBits op 71 54) a (opLen op) ((c.live s).foldl (fun u r =>
      let x := vecAt u a 0 (opLen op) r
      c.modRow r (fun w => { w with
        logits := (x.1.mapIdx (fun i v => (opBits op 71 54 + i, v))).foldl (fun m e => if e.1 < s.vocab f then setLogit m e.1 e.2 else m) w.logits
        poisoned := w.poisoned || x.2 }) u) s)))) ∧
  (∀ (n : Nat) (op : OpWord) (f k : Nat) (s t : State), Runs n op 0x30 none f s →
    (∀ m ∈ (s.fold f).penList, (s.pen m).running = true ∧ (s.pen m).bar = none ∧ (s.pen m).pass = (s.pen n).pass ∧
      (s.pen m).opIndex = (s.pen n).opIndex) → attnStart f false op s = .ok (k, t) →
    exec (.opAttn n op) s = .next (if k = 0 then (s.fold f).penList.foldl (fun s m => advance m s) t
      else t.modFold f (fun x => { x with step := x.step.map (fun st => { st with attn := some ⟨op, k, []⟩ }) }))) ∧
  (∀ (n : Nat) (op : OpWord) (f : Nat) (g : AttnArgs) (s : State) (c : Ctx), c = ⟨f, s.lowPen f, false⟩ → Runs n op 0x30 none f s →
    (∀ m ∈ (s.fold f).penList, (s.pen m).running = true ∧ (s.pen m).bar = none ∧ (s.pen m).pass = (s.pen n).pass ∧
      (s.pen m).opIndex = (s.pen n).opIndex) → attnArgs f false op s = .ok g →
    ((attnReady c g (attnWrite c g s)).headGroup f g.kv).length ≤ 1 →
    exec (.opAttn n op) s = .next ((s.fold f).penList.foldl (fun s m => advance m s) (attnFinish c g [] (attnReady c g (attnWrite c g s)))))

/-- 06 R163, R174 to R178, 07 R190, R191: LAYER whose weights are there is issued, one whose window group is not ready stalls the pen and is
counted; END ends the row pass; RACC and NOTIFY; BAR waits for its counter and BAR_COMPLETE takes N off it; a barrier past BAR_LIMIT is a program
fault; SCROLL_LAYER_LOAD brings the next streamed layer into its free group. -/
def Obligations.LayerControlRows : Prop :=
  (∀ (n : Nat) (op : OpWord) (f j : Nat) (s : State), Runs n op 0x01 none f s → j = opBits op 39 32 → j ≤ 159 →
    (s.layerStreamed f j = false ∨ s.groupReady f n j = true) → exec (.opLayer n op) s = .next (advance n (layerIssue ⟨f, n, false⟩ j s))) ∧
  (∀ (n : Nat) (op : OpWord) (f j : Nat) (s : State), Runs n op 0x01 none f s → j = opBits op 39 32 → j ≤ 159 → s.layerStreamed f j = true →
    s.groupReady f n j = false → (s.pen n).stallSince = none →
    exec (.opLayer n op) s = .next ((s.modPen n (fun x => { x with stallSince := some s.now })).count (rScrStalls f) 1)) ∧
  (∀ (n : Nat) (op : OpWord) (f : Nat) (s : State), Runs n op 0x02 none f s →
    ∃ t, exec (.opEnd n op) s = .next t ∧ (t.pen n).pass = (s.pen n).pass + 1 ∧ (t.pen n).opIndex = 0 ∧ (t.pen n).excluded = [] ∧
      (t.pen n).running = decide (((s.pen n).pass + 1) * s.rowCap f < (s.stepRows f).length) ∧ (∀ m, m ≠ n → t.pen m = s.pen m) ∧
      t = { s with pens := t.pens, regs := t.regs }) ∧
  BodyRow .opRacc 0x40 none raccOp ∧
  (∀ (n : Nat) (op : OpWord) (f a addr : Nat) (s : State) (c : Ctx), c = ⟨f, n, false⟩ → Runs n op 0x40 none f s → 1 ≤ opLen op → opFd op ≤ 1 →
    opBits op 68 67 ≠ 3 → c.operand s op 32 (opLen op) (opFa op) = .ok a →
    bindAddr s f n (opBits op 61 54) ((c.rows s).length * opLen op * 4) = .ok addr →
    ∃ t, exec (.opRacc n op) s = .next (advance n t) ∧ (t.pen n).raccCount = (s.pen n).raccCount + 1 ∧ (t.pen n).opIndex = (s.pen n).opIndex ∧
      t.sessions = s.sessions ∧ t.hostMem = s.hostMem) ∧
  BodyRow .opNotify 0x41 none notifyOp ∧
  (∀ (n : Nat) (op : OpWord) (f a off len : Nat) (s : State) (c : Ctx), c = ⟨f, n, false⟩ → Runs n op 0x41 none f s → opBits op 68 67 = 2 → 1 ≤ opLen op →
    c.operand s op 32 (opLen op) (opFa op) = .ok a → len = (c.rows s).length * rowStride (opFa op) (opLen op) → n < 64 →
    (s.pen n).binding.getD (opBits op 61 54) none = some (slateAt n off) → off + len ≤ 0x600000 → s.pinnedOk f (slateAt n off) len = none →
    exec (.opNotify n op) s = .next (advance n (bumpCtr n (opBits op 66 62)
      ((s.write (slateAt n off) (s.read a len)).addPoison ((badUnits s a len).map (fun u => slateAt n off / 64 + u)))))) ∧
  (∀ (n : Nat) (op : OpWord) (f : Nat) (s : State), Runs n op 0x42 none f s → opBits op 66 62 ∉ (s.pen n).saturated →
    exec (.opBar n op) s = .next
      (let b : BarWait := ⟨opBits op 66 62, if opBits op 85 70 = 0 then (s.contributors f).length else opBits op 85 70, s.now⟩
       s.modPen n (fun x => { x with bar := some b }))) ∧
  (∀ (n f : Nat) (b : BarWait) (s : State), s.ready = true → s.penFold n = some f → (s.pen n).bar = some b →
    b.count ≤ (getND (s.pen n).notify b.ctr 0).toNat → (s.pen n).word = none →
    ∃ t, exec (.barComplete n) s = .next t ∧ (t.pen n).bar = none ∧ (t.pen n).opIndex = (s.pen n).opIndex + 1 ∧
      getND (t.pen n).notify b.ctr 0 = BitVec.ofNat 32 ((getND (s.pen n).notify b.ctr 0).toNat - b.count) ∧
      (∀ m, m ≠ n → t.pen m = s.pen m) ∧ t = { s with pens := t.pens }) ∧
  (∀ (n f : Nat) (b : BarWait) (s : State), s.ready = true → s.penFold n = some f → (s.pen n).bar = some b →
    b.since + max 1 (s.act (rPenBarLimit n)) < s.now → exec (.barTimeout n) s = .next (programFault f n 4 s)) ∧
  (∀ (n f g : Nat) (x : Image) (s : State), s.ready = true → s.penFold n = some f → s.activeImage f = some x → (s.fold f).streamed = true →
    s.mainLayers f ≠ 0 → s.groupsOf f n ≠ [] → ((s.pen n).dropped = false ∨ (s.fold f).step.isSome = true ∨ (s.fold f).nextWork ≠ []) →
    g = (s.pen n).nextLayer % (s.groupsOf f n).length →
    ((s.groupsOf f n)[g]?).any (fun g => g.layer.isNone) = true →
    ∃ t, exec (.scrollLayerLoad n) s = .next t ∧ (t.pen n).groups = (s.groupsOf f n).set g ⟨some (s.pen n).nextLayer, true⟩ ∧
      (t.pen n).nextLayer = ((s.pen n).nextLayer + 1) % s.mainLayers f ∧ (∀ m, m ≠ n → t.pen m = s.pen m) ∧
      t = { s with pens := t.pens, mem := t.mem, poison := t.poison })

/-- The rows of a layer program leave alone what is not theirs (06 R158, R166): the rows put by an operation, each no longer than the stride, lie in the
destination's rows byte by byte, and every other byte of memory reads as before; nothing but memory and its poison changes. -/
def Obligations.ResultRowsLandInTheirRows : Prop :=
  ∀ (c : Ctx) (base stride : Nat) (f : Nat → List Byte × Bool) (s t : State), (∀ r, (f r).1.length ≤ stride) → t = c.putRows base stride f s →
    (∀ r ∈ c.live s, ∀ k (h : k < (f r).1.length), memGet t.mem (base + r * stride + k) = (f r).1[k]) ∧
    (∀ a, (∀ r ∈ c.live s, a < base + r * stride ∨ base + r * stride + (f r).1.length ≤ a) → memGet t.mem a = memGet s.mem a) ∧
    t = { s with mem := t.mem, poison := t.poison }

/-- 06 R161, R163: an operation that its header leaves to the root only advances the pen at every other member; an opcode of no row (06 R167) is a
program fault of cause 1 under every row of a layer program. -/
def Obligations.RootOnlyAndReservedOperations : Prop :=
  ∀ (opcode : Nat) (row : Nat → OpWord → Instr), (opcode, row) ∈ [(0x01, Instr.opLayer), (0x02, .opEnd), (0x10, .opMma), (0x20, .vewAdd),
      (0x21, .vredSum), (0x22, .normRmsnorm), (0x23, .actSilu), (0x24, .ropeHalfPairs), (0x30, .opAttn), (0x38, .routeTopkSoftmax), (0x40, .opRacc),
      (0x41, .opNotify), (0x42, .opBar), (0x50, .opGather), (0x51, .opCopy), (0x60, .opLogits)] →
  ∀ (n : Nat) (op : OpWord) (f : Nat) (s : State), s.ready = true → s.nextOp n = some (f, op) →
    (opValid op = true → opSub op = 0 → opBits op 7 0 = opcode → bitOf op.toNat 8 = true → s.isRoot f = false →
      exec (row n op) s = .next (advance n s)) ∧
    (opValid op = false → exec (row n op) s = .next (programFault f n 1 s))

/-! ### The fabric (13) -/

/-- 13 R336 to R340, R343: a packet that comes in at an up port is delivered where its DST is this device, dropped and counted after its last hop, and
otherwise passed on with one hop more; READ of a record, READ, WRITE and FENCE on memory that passes the checks are performed and answered ST_OK. -/
def Obligations.FabricTransportReadsAndWrites : Prop :=
  (∀ (port : Nat) (p : Packet) (s : State), s.ready = true → (s.port port).state = 2 →
    exec (.fabPacketReceive port p) s = .next (if s.self = some p.dst then deliver p s else if p.hops = 6 then s.count rFabHopDrops 1
      else forwardPacket (some port) { p with hops := p.hops + 1 } s)) ∧
  (∀ (p : Packet) (y : Sess) (s : State), Delivered fabOpRead p s → p.kindRecord = true → p.addr + p.len ≤ 512 → s.sess p.session = some y →
    y.isHome = true → exec (.fabRead p) s = .next (respond p stOk (sliceB (recordBytes y.homeRecord) p.addr p.len) [] (taken p s))) ∧
  (∀ (p : Packet) (f : Nat) (r : List Byte × State) (s : State), Delivered fabOpRead p s → p.kindRecord = false →
    requestCheck (taken p s) p = .ok f → p.len ≠ 0 → readLocal f p.addr p.len (taken p s) = .ok r →
    exec (.fabRead p) s = .next (respond p stOk r.1 (badUnits r.2 p.addr p.len) r.2)) ∧
  (∀ (p : Packet) (f : Nat) (s t : State), Delivered fabOpWrite p s → s.mailFold p = none → p.kindRecord = false → requestCheck (taken p s) p = .ok f →
    putFragment f p (taken p s) = .ok t →
    exec (.fabWrite p) s = .next (respondWhole p stOk (if p.last then moveReplica f p.addr t else t))) ∧
  (∀ (p : Packet) (y : Sess) (new : Record) (s t : State), Delivered fabOpWrite p s → s.mailFold p = none → p.kindRecord = true → p.addr + p.len ≤ 512 →
    s.sess p.session = some y → y.isHome = true → y.record.lease.epoch = p.epoch.toNat → y.record.lease.holder = p.src →
    new = recordOf (patchB (recordBytes y.homeRecord) p.addr p.payload) →
    t = (taken p s).modSess p.session (·.takeRecord { new with
      sessionId := y.record.sessionId, lease := y.record.lease, notReplayable := new.notReplayable || y.record.notReplayable || decide (0 < new.txFirst) }) →
    exec (.fabWrite p) s = .next (respond p stOk [] [] (if new.state = stateClosed then closeHome p.session t else t))) ∧
  (∀ (p : Packet) (f : Nat) (s : State), Delivered fabOpFence p s → p.kindRecord = false → p.unordered = false →
    requestCheck (taken p s) p = .ok f → exec (.fabFence p) s = .next (respond p stOk [] [] (taken p s)))

/-- 13 R344 to R347, 04 R113, 08 R222: FADD adds to an aligned 8-byte word and CAS puts the new value where the word is the one compared, both
answering the old one; CAS of a lease at its home; AREAD answers the session's partial; ACC is applied or held at the pen that holds the buffer;
NOTIFY raises its counter once the payload is written, and the root's broadcast keeps the step control word that
ends its payload. -/
def Obligations.FabricAtomicsAndReductions : Prop :=
  (∀ (p : Packet) (f : Nat) (r : List Byte × State) (s t : State), Delivered fabOpFadd p s → p.kindRecord = false → p.unordered = false →
    p.len = 8 → p.addr % 8 = 0 → p.oparg ≠ 0 → requestCheck (taken p s) p = .ok f → readLocal f p.addr 8 (taken p s) = .ok r →
    requestWrite f p.session p.addr (leBytes 8 ((ofLe r.1 + p.oparg.toNat) % 2 ^ 64)) r.2 = .ok t →
    exec (.fabFadd p) s = .next (respond p stOk r.1 (badUnits r.2 (p.addr / 64 * 64) 64) t)) ∧
  (∀ (p : Packet) (f : Nat) (s : State), Delivered fabOpFadd p s → p.kindRecord = false → p.unordered = false → p.len = 8 → p.addr % 8 = 0 →
    p.oparg ≠ 0 → requestCheck (taken p s) p = .ok f → 0x380000000000 ≤ p.addr → (taken p s).place f p.addr 8 0 = .ok (.cell p.addr) →
    exec (.fabFadd p) s = .next (respond p stOk ((taken p s).read p.addr 8) (badUnits s (p.addr / 64 * 64) 64)
      ((taken p s).write p.addr (leBytes 8 ((ofLe ((taken p s).read p.addr 8) + p.oparg.toNat) % 2 ^ 64))))) ∧
  (∀ (p : Packet) (f : Nat) (r : List Byte × State) (s t : State), Delivered fabOpCas p s → p.kindRecord = false → p.unordered = false →
    p.addr % 8 = 0 → requestCheck (taken p s) p = .ok f → readLocal f p.addr 8 (taken p s) = .ok r → ofLe r.1 = leAt p.payload 0 8 →
    leAt p.payload 8 8 ≠ leAt p.payload 0 8 → requestWrite f p.session p.addr (leBytes 8 (leAt p.payload 8 8 % 2 ^ 64)) r.2 = .ok t →
    exec (.fabCas p) s = .next (respond p stOk r.1 (badUnits r.2 (p.addr / 64 * 64) 64) t)) ∧
  (∀ (p : Packet) (f : Nat) (r : List Byte × State) (s : State), Delivered fabOpCas p s → p.kindRecord = false → p.unordered = false →
    p.addr % 8 = 0 → requestCheck (taken p s) p = .ok f → readLocal f p.addr 8 (taken p s) = .ok r → ofLe r.1 ≠ leAt p.payload 0 8 →
    exec (.fabCas p) s = .next (respond p stOk r.1 (badUnits r.2 (p.addr / 64 * 64) 64) r.2)) ∧
  (∀ (p : Packet) (y : Sess) (s : State), Delivered fabOpCas p s → p.kindRecord = true → p.unordered = false → p.addr = 16 →
    s.sess p.session = some y → y.isHome = true → y.record.lease.epoch = p.epoch.toNat → (leaseOf (leAt p.payload 8 8)).lstate ≠ 3 →
    exec (.fabCas p) s = .next (respond p stOk (leBytes 8 y.record.lease.word) []
      (homeCas p.session (leaseOf (leAt p.payload 0 8)) (leaseOf (leAt p.payload 8 8)) (taken p s)).2)) ∧
  (∀ (p : Packet) (f : Nat) (y : Sess) (l : List Packet) (s t : State), Delivered fabOpAread p s → p.kindRecord = false →
    gathered p (taken p s) = (some l, t) → requestCheck t p = .ok f → t.sess p.session = some y → t.mayAttend f y p = true →
    exec (.fabAread p) s = .next (respond p (areadAnswer f y (l.flatMap (·.payload)) t).1 (areadAnswer f y (l.flatMap (·.payload)) t).2.1 []
      (areadAnswer f y (l.flatMap (·.payload)) t).2.2)) ∧
  (∀ (p : Packet) (f n k : Nat) (s : State), Delivered fabOpAcc p s → p.kindRecord = false → p.unordered = false →
    n = p.len * (if accBf16 p then 2 else 1) → requestCheck (taken p s) { p with len := n } = .ok f → (taken p s).inReduction f p.addr n = true →
    s.penNamed f (bitsOf p.oparg.toNat 46 41) = some k → accAttempt p = (s.fold f).attempts % 8 →
    (accNext (taken p s) f ((p.addr - 0x380000000000) / 0x1000000) p = true ∨
      (s.pen ((p.addr - 0x380000000000) / 0x1000000)).hold.length < 128) →
    ∃ t, accArrive f ((p.addr - 0x380000000000) / 0x1000000) p (taken p s) = some t ∧ exec (.fabAcc p) s = .next (respondWhole p stOk t)) ∧
  (∀ (p : Packet) (f k : Nat) (s t : State), Delivered fabOpNotify p s → s.mailFold p = none → p.kindRecord = false → p.unordered = false →
    requestCheck (taken p s) p = .ok f → s.penNamed f (bitsOf p.oparg.toNat 13 8) = some k → s.rootNotify f p = false →
    (if p.len = 0 then .ok (taken p s) else putFragment f p (taken p s) : Tried State) = .ok t →
    exec (.fabNotify p) s = .next (respondWhole p stOk (if p.last then bumpCtr k (bitsOf p.oparg.toNat 4 0) t else t))) ∧
  (∀ (p : Packet) (f k : Nat) (l : List Packet) (data : List Byte) (w : StepWord) (s t u : State), Delivered fabOpNotify p s → s.mailFold p = none →
    p.kindRecord = false → p.unordered = false → requestCheck (taken p s) p = .ok f → s.penNamed f (bitsOf p.oparg.toNat 13 8) = some k →
    s.rootNotify f p = true → gathered p (taken p s) = (some l, t) → stripWord (l.flatMap (·.payload)) = some (data, w) →
    (if data.isEmpty then .ok t else requestWrite f p.session p.addr data t : Tried State) = .ok u → (∀ q ∈ l, q.pmask = 0) →
    exec (.fabNotify p) s = .next (respond p stOk [] [] (bumpCtr k (bitsOf p.oparg.toNat 4 0) (u.modPen k (fun x => { x with word := some w })))))

/-- 13 R352: a response is matched to the outstanding message of its TAG, whatever else is outstanding, and one that completes its message ends it;
a response that matches no outstanding message is discarded, and one that turns an ordered message away leaves it to be sent again (13 R350). -/
def Obligations.ResponsesMatchByTag : Prop :=
  (∀ (p : Packet) (m : OutMsg) (s : State), s.ready = true → getN s.fab.outstanding p.tag.toNat = some m → p.ptype = 1 → p.src = m.packet.dst →
    p.op = m.packet.op → p.src ∉ s.fab.lost → turnedAway m p = false → fragCount p.len ≤ (setN m.response p.frag p).length →
    exec (.fabResponse p) s = .next (finishRequest p.tag.toNat p.status ((setN m.response p.frag p).flatMap (fun q => q.2.payload))
      ((setN m.response p.frag p).flatMap (fun q => (bitsSet 64 q.2.pmask.toNat).map (fun u => q.1 * 64 + u))) (taken p s))) ∧
  (∀ (p : Packet) (s : State), s.ready = true → getN s.fab.outstanding p.tag.toNat = none → exec (.fabResponse p) s = .next (taken p s)) ∧
  (∀ (p : Packet) (m : OutMsg) (s : State), s.ready = true → getN s.fab.outstanding p.tag.toNat = some m → p.ptype = 1 → p.src = m.packet.dst →
    p.op = m.packet.op → p.src ∉ s.fab.lost → m.packet.unordered = false → p.status = stBusy →
    exec (.fabResponse p) s = .next { taken p s with fab := { (taken p s).fab with
      outstanding := setN s.fab.outstanding p.tag.toNat { m with lastSent := s.now } } })

/-- 13 R350 to R356: a sequence NACK has the ordered packets resent; a request not answered in
FAB_RETRY is sent again, and past FAB_E2E_LIMIT its destination is declared lost, but one that no route leads to any more completes with ST_PEER_LOST
(log entry 174); a watched device that is silent is probed and then declared
lost; FAB_LOST_CLEAR takes the mark away. -/
def Obligations.FabricAnswersRetriesAndLoss : Prop :=
  (∀ (p : Packet) (m : OutMsg) (s : State), s.ready = true → p.ptype = 2 → s.fab.outstanding = [(m.packet.tag.toNat, m)] → m.sent = true →
    m.packet.unordered = false → m.packet.dst = p.src → (∀ q ∈ fragmentsWith m.bad m.packet, (q.oseq - p.oseq).toNat < 32768) →
    exec (.fabSequenceNack p) s = .next ((sortBy (fun a b => decide ((a.oseq - p.oseq).toNat ≤ (b.oseq - p.oseq).toNat))
      (fragmentsWith m.bad m.packet)).foldl (fun s q => emitPacket q s) (taken p s))) ∧
  (∀ (tag : W32) (m : OutMsg) (s : State), s.ready = true → getN s.fab.outstanding tag.toNat = some m → m.sent = true →
    (s.route m.packet).isSome = true → m.lastSent + s.retryTime ≤ s.now → s.now < m.firstSent + s.e2eLimit →
    exec (.fabRetryExpiry tag) s = .next ((fragmentsWith m.bad m.packet).foldl (fun s p => emitPacket p s)
      { s with fab := { s.fab with outstanding := setN s.fab.outstanding tag.toNat { m with lastSent := s.now } } })) ∧
  (∀ (tag : W32) (m : OutMsg) (s : State), s.ready = true → getN s.fab.outstanding tag.toNat = some m → m.sent = true →
    (s.route m.packet).isSome = true → m.lastSent + s.retryTime ≤ s.now → m.firstSent + s.e2eLimit ≤ s.now → m.packet.dst ∉ s.fab.lost →
    exec (.fabRetryExpiry tag) s = .next (declareLost m.packet.dst 0 s)) ∧
  (∀ (d : Nat) (s t : State), s.ready = true → d ∈ s.watched → d ∉ s.fab.lost → getN s.fab.heard d = none → getN s.fab.probed d = none →
    t = { s with fab := { s.fab with probed := setN s.fab.probed d s.now, heard := setN s.fab.heard d s.now } } →
    (t.route (t.requestPacket none issSys fabOpRead d 0 0 false false 0 0 0 [])).isSome = true →
    ∃ u, fabRequest .probe none none (t.requestPacket none issSys fabOpRead d 0 0 false false 0 0 0 []) t = .ok u ∧
      exec (.watchProbe d) s = .next u) ∧
  (∀ (d since : Nat) (s : State), s.ready = true → d ∈ s.watched → getN s.fab.heard d = some since → since + s.e2eLimit ≤ s.now →
    exec (.watchSilence d) s = .next (declareLost d 1 s)) ∧
  (∀ (d : Nat) (s : State), s.ready = true →
    ∃ t, exec (.fabLostClear d) s = .next t ∧ d ∉ t.fab.lost ∧ (∀ e, e ≠ d → (e ∈ t.fab.lost ↔ e ∈ s.fab.lost)) ∧ t = { s with fab := t.fab }) ∧
  (∀ (tag : W32) (m : OutMsg) (s : State), s.ready = true → getN s.fab.outstanding tag.toNat = some m → m.sent = true → s.route m.packet = none →
    exec (.fabRetryExpiry tag) s = .next (finishRequest tag.toNat stPeerLost [] [] (s.count rFabNoRoute 1)))

/-- 13 R332, R335, R357 to R359, R363: training of an enabled port brings it up at the width found, holds it when its neighbour is this device or has
no common revision, or is repeated after 10 ms; a NAK replays, counts as a corrected error (log entry 178) and after eight failed replays of a flit retrains; a port that loses its neighbour is
down; the selection starts the eligible packet with the smallest finish tag, which takes a credit of its virtual channel (log entry 65), and a packet
that waited for the queue's room moves in; FAB_HWM_CLEAR clears the marks named. -/
def Obligations.PortsTrainReplayAndSelect : Prop :=
  (∀ (p : Nat) (t : PortTrain) (s : State), s.ready = true → s.mayTrain p = true → (s.port p).state < 2 → (s.port p).trainedAt = none →
    exec (.portTraining p t) s = .next (s.modPort p (trained s.now s.selfNo t))) ∧
  (∀ (p since : Nat) (t : PortTrain) (s : State), s.ready = true → s.mayTrain p = true → (s.port p).state = 1 → (s.port p).trainedAt = some since →
    since + 10000 ≤ s.now → exec (.portTrainingRetry p t) s = .next (s.modPort p (trained s.now s.selfNo t))) ∧
  (∀ (now self : Nat) (t : PortTrain) (x y : Port), y = trained now self t x →
    (portWidth t.lanes = 0 → y.state = 1 ∧ y.cause = 1 ∧ y.trainedAt = some now) ∧
    (portWidth t.lanes ≠ 0 → t.device = self → y.state = 3 ∧ y.cause = 3) ∧
    (portWidth t.lanes ≠ 0 → t.device ≠ self → min fabRev t.rev < max fabMinRev t.minRev → y.state = 3 ∧ y.cause = 2) ∧
    (portWidth t.lanes ≠ 0 → t.device ≠ self → max fabMinRev t.minRev ≤ min fabRev t.rev →
      y.state = 2 ∧ y.width = portWidth t.lanes ∧ y.nrev = min fabRev t.rev ∧ y.neighbour = t.device ∧ y.queues = x.queues ∧ y.credits = t.credits)) ∧
  (∀ (p : Nat) (s : State), s.ready = true → p < 18 → (s.port p).state = 2 →
    ∃ t, exec (.portFlitNak p false) s = .next t ∧ (t.port p).failedReplays = 0 ∧ (t.port p).state = 2 ∧
      ErrorsOnly { s with fab := t.fab, freeCount := t.freeCount } t) ∧
  (∀ (p : Nat) (s : State), s.ready = true → p < 18 → (s.port p).state = 2 → (s.port p).failedReplays < 7 →
    ∃ t, exec (.portFlitNak p true) s = .next t ∧ (t.port p).failedReplays = (s.port p).failedReplays + 1 ∧ (t.port p).state = 2 ∧
      ErrorsOnly { s with fab := t.fab, freeCount := t.freeCount } t) ∧
  (∀ (p : Nat) (s : State), s.ready = true → p < 18 → (s.port p).state = 2 → 7 ≤ (s.port p).failedReplays →
    ∃ t, exec (.portFlitNak p true) s = .next t ∧ (t.port p).failedReplays = 0 ∧ (t.port p).state = 1 ∧
      (t.port p).width = 0 ∧ ErrorsOnly { s with fab := t.fab, freeCount := t.freeCount } t) ∧
  (∀ (p : Nat) (s : State), s.ready = true → p < 18 → (s.port p).state = 2 →
    exec (.portDown p) s = .next (s.modPort p (fun x =>
      { x with state := 0, cause := 1, width := 0, failedReplays := 0, wire := none, credits := [0, 0, 0, 0] }))) ∧
  (∀ (p q v : Nat) (returned : List Nat) (x : Port) (e : Packet × Nat) (s : State), s.ready = true → p < 18 → (s.port p).state = 2 →
    x = tagHeads s p ((s.port p).giveCredits returned) → minOn (fun q => getND x.head q 0) x.ready = some q → x.nextIn q = some e →
    v = packetChannel e.1 → (∀ w ∈ s.fab.withheld, w.out ≠ p ∨ w.packet.queue ≠ q) →
    ∃ t, exec (.egressSelect ⟨p, returned⟩) s = .next t ∧ (t.port p).wire = some e.1 ∧ getND (t.port p).queues q [] = dropFirst e (getND x.queues q []) ∧
      (t.port p).v = getND x.head q 0 ∧ hasN (t.port p).head q = false ∧ (t.port p).credits.getD v 0 + 1 = (s.port p).credits.getD v 0 + returned.getD v 0 ∧
      (∀ r, r ≠ p → t.port r = s.port r) ∧ t = { s with fab := t.fab }) ∧
  (∀ (p q : Nat) (returned : List Nat) (x : Port) (e : Packet × Nat) (w : Withheld) (s : State), s.ready = true → p < 18 → (s.port p).state = 2 →
    x = tagHeads s p ((s.port p).giveCredits returned) → minOn (fun q => getND x.head q 0) x.ready = some q → x.nextIn q = some e →
    s.fab.withheld.find? (fun w => w.out == p && w.packet.queue == q) = some w →
    ∃ t, exec (.egressSelect ⟨p, returned⟩) s = .next t ∧ (t.port p).wire = some e.1 ∧ t.fab.withheld = dropFirst w s.fab.withheld ∧
      getND (t.port p).queues q [] = dropFirst e (getND x.queues q []) ++ [(w.packet, s.now)] ∧ (∀ r, r ≠ p → t.port r = s.port r) ∧
      t = { s with fab := t.fab }) ∧
  (∀ (p : Nat) (returned : List Nat) (x : Port) (s : State), s.ready = true → p < 18 → (s.port p).state = 2 →
    x = tagHeads s p ((s.port p).giveCredits returned) → x.ready = [] →
    exec (.egressSelect ⟨p, returned⟩) s = .next (s.modPort p (fun _ => x))) ∧
  (∀ (p : Nat) (queues : W16) (s : State), s.ready = true → p < 18 →
    ∃ t, exec (.fabHwmClear p queues) s = .next t ∧ (∀ q, queues.toNat.testBit q = true → getN (t.port p).depthMark q = none ∧
      getN (t.port p).sojournMark q = none) ∧ (∀ r, r ≠ p → t.port r = s.port r) ∧ t = { s with fab := t.fab })

/-! ### The host link, errors and resets (03, 16, 18) -/

/-- 03 R57 to R60, 16 R422: training brings the link up at 8 or 4 lanes, and the first after a cold start makes the device ready; it is repeated
after 10 ms while neither group trains; a NAK replays, counts as a corrected error (log entry 178) and after eight failed replays of a flit the link retrains; a link that is lost starts the limit of
LNK_DOWN_LIMIT, past which the device fails with cause 2. -/
def Obligations.HostLinkTrainsAndFails : Prop :=
  (∀ (lanes : Byte) (s : State), (s.boot.status = 4 ∨ s.boot.status = 5) → s.link.up = false → s.link.trainedAt = none →
    (linkWidth (s.boot.usableLanes lanes)).1 ≠ 0 →
    ∃ t, exec (.linkTraining lanes) s = .next t ∧ t.link.up = true ∧ t.link.width = (linkWidth (s.boot.usableLanes lanes)).1 ∧
      t.link.group = (linkWidth (s.boot.usableLanes lanes)).2 ∧ t.boot.status = 5 ∧ t = { s with link := t.link, boot := t.boot }) ∧
  (∀ (lanes : Byte) (since : Nat) (s : State), (s.boot.status = 4 ∨ s.boot.status = 5) → s.link.up = false → s.link.trainedAt = some since →
    since + 10000 ≤ s.now → exec (.linkTrainingRetry lanes) s = .next (trainLink lanes s)) ∧
  (∀ (lanes : Byte) (s : State), (linkWidth (s.boot.usableLanes lanes)).1 = 0 →
    (trainLink lanes s).link.up = false ∧ (trainLink lanes s).link.trainedAt = some s.now ∧ trainLink lanes s = { s with link := (trainLink lanes s).link }) ∧
  (∀ s : State, s.link.up = true →
    ∃ t, exec (.linkFlitNak false) s = .next t ∧ t.link = { s.link with failedReplays := 0 } ∧
      ErrorsOnly { s with link := t.link, freeCount := t.freeCount } t) ∧
  (∀ s : State, s.link.up = true → s.link.failedReplays < 7 →
    ∃ t, exec (.linkFlitNak true) s = .next t ∧ t.link = { s.link with failedReplays := s.link.failedReplays + 1 } ∧
      ErrorsOnly { s with link := t.link, freeCount := t.freeCount } t) ∧
  (∀ s : State, s.link.up = true → 7 ≤ s.link.failedReplays →
    ∃ t, exec (.linkFlitNak true) s = .next t ∧ t.link.up = false ∧ t.link.training = true ∧ t.link.failedReplays = 0 ∧
      t.link.downSince.isSome = true ∧ ErrorsOnly { s with link := t.link, freeCount := t.freeCount } t) ∧
  (∀ s : State, s.link.up = true → s.link.downSince = none →
    ∃ t, exec .linkDown s = .next t ∧ t.link.up = false ∧ t.link.training = true ∧ t.link.width = 0 ∧ t.link.downSince = some s.now ∧
      t = { s with link := t.link }) ∧
  (∀ (since : Nat) (s : State), s.link.downSince = some since → (s.boot.status = 4 ∨ s.boot.status = 5) → s.link.everUp = true → s.link.up = false →
    since + max 10000 (s.act rLnkDownLimit) ≤ s.now → exec .linkDownLimitExpiry s = .next (failStop 2 s))

/-- 18 R457, Table 18-4, 16 R424: fail-stop leaves the device at code 0xF with FAULT_N low, link and ports down, FATAL sent four times on a link that is
up, the cause recorded where none is, SEC's attestation key and every fold's keys zeroed; sessions and memory stay as they are. -/
def Obligations.FailStopEntry : Prop :=
  ∀ (cause : Nat) (s : State), s.boot.status ≠ 15 → 1 ≤ cause → cause < 8 →
    FinalCode (failStop cause s) ∧ (failStop cause s).boot.status = 15 ∧
    (failStop cause s).link.fatalFlits = (if s.link.up then [cause, cause, cause, cause] else []) ∧
    (s.act rSysErrFatal = 0 → (failStop cause s).act rSysErrFatal = cause + s.now % 2 ^ 32 * 2 ^ 32) ∧
    (s.act rSysErrFatal ≠ 0 → (failStop cause s).act rSysErrFatal = s.act rSysErrFatal) ∧
    (failStop cause s).sec.ak = false ∧ (∀ f, (failStop cause s).fold f = { s.fold f with key := (s.fold f).key.zeroed } ∨
      (failStop cause s).fold f = s.fold f ∧ getN s.folds f = none) ∧
    (failStop cause s).mem = s.mem ∧ (failStop cause s).hostMem = s.hostMem ∧ (failStop cause s).sessions = s.sessions ∧
    (failStop cause s).pending = s.pending

/-- 18 Table 18-4, 16 R424: what makes a running device fail: a thermal trip (cause 1, THERM_TRIP_N low, every ladder block at L4), a watchdog (4), a
central PLL out of lock (5), a stack that holds bound pens (6), SEC's self-check (7); the patrol scrub of a bound channel counts its pass. -/
def Obligations.FailStopCausesAndScrub : Prop :=
  (∀ (sensor : Nat) (s : State), s.running = true → sensor < 80 →
    exec (.thermalTrip sensor) s = .next (allL4 { failStop 1 s with boot := { (failStop 1 s).boot with thermTripN := false } })) ∧
  (∀ (cpu : Nat) (s : State), s.running = true → cpu < 8 → exec (.watchdogExpiry cpu) s = .next (failStop 4 s)) ∧
  (∀ (pll : Nat) (s : State), s.running = true → (pll = 8 ∨ pll = 19) → bitOf s.power.pllLock pll = true →
    exec (.pllLockLoss pll) s = .next (failStop 5 { s with power := { s.power with pllLock := s.power.pllLock - 2 ^ pll } })) ∧
  (∀ (pll : Nat) (s : State), s.running = true → pll < 21 → pll ≠ 8 → pll ≠ 19 → bitOf s.power.pllLock pll = true →
    exec (.pllLockLoss pll) s = .next { s with power := { s.power with pllLock := s.power.pllLock - 2 ^ pll } }) ∧
  (∀ (stack : Nat) (s : State), s.running = true → stack < 8 → s.stackBound stack = true →
    exec (.hbmStackFailure stack) s = .next (failStop 6 s)) ∧
  (∀ s : State, s.running = true → exec .secSelfCheckFailure s = .next (failStop 7 s)) ∧
  (∀ (l : List ScrubFinding) (s b : State), s.ready = true → s.act rHbmScrub ≠ 0 → b = applyPend (fun k => k == rHbmScrub) s → b.act rHbmScrub ≠ 0 →
    exec (.hbmScrubPass l) s = .next ((l.foldl (fun s r => scrubChannel r s) b).count rHbmScrubPasses 1))

/-- 16 R415 to R430, 20 R496: the rise of COLD_RST_N runs the cold start; WARM_RST_N low for 1 µs or more takes a ready device to status 6, cause 1, and
BIST_WARM written 0x5752 to cause 2; the resume makes it ready; the self-test report is posted once. A pulse below 20 ns is filtered, one from
20 ns to below 1 µs is forbidden to the board: there the model stops (fault boardPulse). -/
def Obligations.ResetsAndSelfTestReport : Prop :=
  (∀ (b : BootInputs) (s : State), exec (.coldReset b) s = .next (coldStart b (coldState s))) ∧
  (∀ (b : BootInputs) (s : State), b.comparatorHot = false → b.testCode = none → b.bootCode = none →
    b.linkFences = 0 → bitOf b.strap 4 = false → linkWidth b.linkLanes = (8, 0) →
    ∃ t, exec (.coldReset b) s = .next t ∧ t.boot.status = 5 ∧ t.link.up = true ∧ t.link.width = 8 ∧ t.sec.ak = true ∧ t.boot.faultN = true) ∧
  (∀ (w : Nat) (s : State), s.boot.status = 5 → 1000 ≤ w → exec (.warmReset w) s = .next (beginWarm 1 s)) ∧
  (∀ s : State, (beginWarm 1 s).boot.status = 6 ∧ (beginWarm 1 s).boot.cause = 1 ∧ (beginWarm 1 s).link.up = false ∧
    (beginWarm 1 s).boot.warmCount = s.boot.warmCount + 1 ∧ (beginWarm 1 s).timer = s.timer ∧ (∀ r, ((beginWarm 1 s).ring r).state = 0)) ∧
  (∀ (v : W64) (s : State), s.ready = true → v.toNat % 65536 = 0x5752 → exec (.bistWarmWrite mgmtPath v) s = .next (beginWarm 2 s)) ∧
  (∀ s : State, s.boot.status = 6 →
    ∃ t, exec .warmResetResume s = .next t ∧ t.boot.status = 5 ∧ t.link.training = true ∧ t.mem = s.mem ∧ t.sessions = s.sessions) ∧
  (∀ (k q : Nat) (s : State), s.ready = true → s.boot.report = some k → s.defaultQueue mgmtPath = some q →
    ∃ t, exec .selftestReport s = .next t ∧ t.boot = { s.boot with report := none } ∧ RecordsOnly { s with boot := t.boot } t) ∧
  (∀ (w : Nat) (s : State), s.boot.status = 5 → 20 ≤ w → w < 1000 → exec (.warmReset w) s = .fault .boardPulse) ∧
  (∀ (w : Nat) (s : State), w < 20 → exec (.warmReset w) s = .next s)

/-- 16 R423, R425, 20 R496: COLD_RST_N low for 1 µs or more: STATUS 0, outputs in their reset state, registers at their reset values, rings, queues,
pens, fabric and telemetry gone; the host's memory and the TAP are no part of the device's reset. -/
def Obligations.ColdResetAsserted : Prop :=
  (∀ (w : Nat) (s : State), 1000 ≤ w → exec (.coldResetAssert w) s = .next (coldState s)) ∧
  (∀ (w : Nat) (s : State), 20 ≤ w → w < 1000 → exec (.coldResetAssert w) s = .fault .boardPulse) ∧
  (∀ (w : Nat) (s : State), w < 20 → exec (.coldResetAssert w) s = .next s) ∧
  (∀ s : State, (coldState s).boot = State.reset.boot ∧ (coldState s).regs = State.reset.regs ∧ (coldState s).rings = State.reset.rings ∧
    (coldState s).eqs = State.reset.eqs ∧ (coldState s).pens = State.reset.pens ∧ (coldState s).fab = State.reset.fab ∧
    (coldState s).link = State.reset.link ∧ (coldState s).power = State.reset.power ∧ (coldState s).sec = State.reset.sec ∧
    (coldState s).timer = 0 ∧ (coldState s).hostMem = s.hostMem ∧ (coldState s).tap = s.tap ∧
    (∀ p ∈ (coldState s).folds, p.2.ns.state ≠ nsAbsent))

/-! ### SEC's random values and scan access (15) -/

/-- 15 R411, R412: the DRBG reseeds after 65,536 requests or a second; a failed health test stops it and sets ENTROPY_FAIL; a token that is accepted
zeroes every secret and sets SCAN_TAINTED, and another changes nothing; the challenge is read word by word, and the sixth read draws a new one.
`drbg` gives free values. -/
def Obligations.RandomValuesAndScanAccess : Prop :=
  (∀ s : State, s.ready = true → s.sec.drbgOk = true → s.sec.entropyFail = false →
    (65536 ≤ s.sec.requests ∨ s.sec.lastReseed + 1000000 ≤ s.now) →
    exec .drbgReseed s = .next ({ s with sec := { s.sec with requests := 0, lastReseed := s.now } }.count rSecDrbgReseeds 1)) ∧
  (∀ s : State, s.ready = true → s.sec.entropyFail = false →
    ∃ t, exec .entropyHealthFail s = .next t ∧ t.sec.entropyFail = true ∧ t.sec.drbgOk = false ∧ t.mem = s.mem ∧ t.folds = s.folds) ∧
  (∀ (k : List Byte) (s : State), s.ready = true → tokenOk s k = true →
    ∃ t, exec (.scanUnlock k) s = .next t ∧ t.sec.seed = none ∧ t.sec.ak = false ∧ t.sec.tainted = true ∧
      t.folds = s.folds.map (fun p => (p.1, { p.2 with key := p.2.key.zeroed })) ∧ t.mem = s.mem ∧ t.sessions = s.sessions) ∧
  (∀ (k : List Byte) (s : State), s.ready = true → tokenOk s k = false → exec (.scanUnlock k) s = .next s) ∧
  (∀ (k : Nat) (s : State), s.ready = true → s.sec.challengeRead = k → k < 5 →
    exec (.scanChallengeRead mgmtPath) s = .next
      { s with sec := { s.sec with challengeRead := k + 1 }, readData := s.sec.challenge.getD k 0 }) ∧
  (∀ s : State, s.ready = true → s.sec.challengeRead = 5 → s.sec.drbgOk = true → s.sec.entropyFail = false →
    ∃ t, exec (.scanChallengeRead mgmtPath) s = .next t ∧ t.readData = s.sec.challenge.getD 5 0 ∧ t.sec.challengeRead = 0 ∧
      t.sec.challenge.length = 6 ∧ t.mem = s.mem)

/-! ### Migrations (02) -/

/-- 02 R43 to R45, R49: MIGRATION_START of a sheet asked to move marks it MIGRATING and takes the request; MIGRATION_COMMIT of one that was written moves
the entry to the place chosen in the target tier, into T3 once its form is durable; one that found its form bad is an uncorrectable error of the
sheet; a T3 that is read-only ends the move; MIGRATION_RELEASE frees the old place. -/
def Obligations.MigratingSheets : Prop :=
  (∀ (f i tier : Nat) (s : State), s.ready = true → (s.fold f).requests = [(i, tier)] → ((s.fold f).sheet i).migrating = false →
    hasN (s.fold f).migs i = false → (s.fold f).backed i = true → ((s.fold f).sheet i).tier ≠ tier → ((s.fold f).sheet i).wet = false →
    (3 ≤ tier → s.sheetPoisoned f i = false) → quotaMoveOver s f i = false →
    ∃ t, exec (.migrationStart f i) s = .next t ∧ (t.fold f).requests = [] ∧ ((t.fold f).sheet i).migrating = true ∧
      ((t.fold f).sheet i).tier = ((s.fold f).sheet i).tier ∧
      getN (t.fold f).migs i = some { phase := 2, target := tier, targetPen := s.kvPen f i, writes := 0, newLoc := 0
                                      oldTier := ((s.fold f).sheet i).tier, oldLoc := ((s.fold f).sheet i).loc, len := 1024 } ∧
      t = { s with folds := t.folds }) ∧
  (∀ (f i loc : Nat) (m : Mig) (s v u : State), s.ready = true → getN (s.fold f).migs i = some m → m.phase ≠ 7 → m.target ≠ 3 →
    readBack f i s = some v → quotaMoveOver s f i = false → s.room f m.target ≠ 0 → chooseLoc f m.target m.targetPen v = some (loc, u) →
    exec (.migrationCommit f i .written) s = .next ((commitMove f i m.target loc
      (u.lenIn f m.target ((u.fold f).sheet i) (u.read (u.sheetOffset f i) 65536)) u).modFold f
        (fun x => { x with migs := setN x.migs i { m with phase := 7 }, quotaOut := delN x.quotaOut i }))) ∧
  (∀ (f i : Nat) (m : Mig) (s v : State), s.ready = true → getN (s.fold f).migs i = some m → m.phase = 5 → m.target = 3 →
    (s.fold f).ns.writes.any (fun o => o.index == some i) = false → readBack f i s = some v → quotaMoveOver s f i = false → s.room f 3 ≠ 0 →
    exec (.migrationCommit f i .written) s = .next ((commitMove f i 3 m.newLoc m.len v).modFold f
      (fun x => { x with migs := setN x.migs i { m with phase := 7 }, quotaOut := delN x.quotaOut i }))) ∧
  (∀ (f i : Nat) (m : Mig) (s : State), s.ready = true → getN (s.fold f).migs i = some m → m.phase ≠ 7 → (m.oldTier = 3 ∨ m.oldTier = 4) →
    (exec (.migrationCommit f i .badForm) s = .next (migUnreadable f i m s)) ∧
    (readBack f i s = none → exec (.migrationCommit f i .written) s = .next (migUnreadable f i m s))) ∧
  (∀ (f i : Nat) (m : Mig) (s : State), s.ready = true → getN (s.fold f).migs i = some m → m.phase ≠ 7 → m.target = 3 →
    exec (.migrationCommit f i .readOnly) s = .next (noteMoveFail f i stFlashReadOnly (abandonMig f i s))) ∧
  (∀ (f i : Nat) (m : Mig) (s : State), s.ready = true → getN (s.fold f).migs i = some m → m.phase = 7 → m.oldTier ≠ 3 →
    exec (.migrationRelease f i) s = .next (s.modFold f (fun x => { x with migs := delN x.migs i }))) ∧
  (∀ (f i : Nat) (m : Mig) (s : State), s.ready = true → getN (s.fold f).migs i = some m → m.phase = 7 → m.oldTier = 3 →
    exec (.migrationRelease f i) s = .next
      ((s.modFold f (fun x => { x with migs := delN x.migs i })).modNs f (returnSlot f (m.oldLoc / 1280))))

/-! ### Registers and commits (19) -/

/-- 19 R471 to R473, Table 19-5: GO with a commit under way sets OVERRUN and nothing else; GO of a shadow that fails a check is refused with the reason
and offset of the first failing check, every register as it was; GO of a shadow without a change is applied at once, SEQ one higher;
APPLY at the application point; DISCARD reloads the shadow. -/
def Obligations.CommitProtocol : Prop :=
  (∀ (b : Nat) (s : State), s.ready = true → hasCommit b = true → ((s.commitOf b).state = 1 ∨ (s.commitOf b).state = 2) →
    exec (.commitGo b) s = .next (s.modCommit b (fun c => { c with overrun := true }))) ∧
  (∀ (b : Nat) (k : Check) (s : State), s.ready = true → hasCommit b = true → (s.commitOf b).state ≠ 1 → (s.commitOf b).state ≠ 2 →
    firstBad (blockChecks b s (s.withActive (s.changes b)) (s.changes b)) = some k →
    ∃ t, exec (.commitGo b) s = .next t ∧ (t.commitOf b).state = 4 ∧ (t.commitOf b).reason = k.2.1.code ∧ (t.commitOf b).offset = offsetOf k.1 ∧
      (t.commitOf b).seq = (s.commitOf b).seq ∧ (∀ r, t.act r = s.act r ∧ t.shadowOf r = s.shadowOf r) ∧ t = { s with regs := t.regs }) ∧
  (∀ (b : Nat) (s : State), s.ready = true → hasCommit b = true → (s.commitOf b).state ≠ 1 → (s.commitOf b).state ≠ 2 →
    firstBad (blockChecks b s (s.withActive (s.changes b)) (s.changes b)) = none →
    exec (.commitGo b) s = .next
      (let t := s.modCommit b (fun c => { c with state := 2, overrun := false, reason := 0, offset := 0, seq := c.seq + 1 })
       finishCommit b (applyBlock b { t with regs := { t.regs with pend := (s.changes b).foldl (fun m e => setN m e.1 e.2) s.regs.pend } }))) ∧
  (∀ (b : Nat) (s : State), s.ready = true → (s.commitOf b).state = 2 → exec (.commitApply b) s = .next (commitApply b s)) ∧
  (∀ (b : Nat) (s : State), s.ready = true → hasCommit b = true →
    ∃ t, exec (.commitDiscard b) s = .next t ∧ (∀ r, blockOf r = b → getN t.regs.shadow r = none) ∧ (∀ r, t.act r = s.act r) ∧
      ((s.commitOf b).state ≠ 3 → (s.commitOf b).state ≠ 4 → t.commitOf b = s.commitOf b) ∧
      (((s.commitOf b).state = 3 ∨ (s.commitOf b).state = 4) → (t.commitOf b).state = 0) ∧ t = { s with regs := t.regs })

/-- 19 R473: what a write of COMMIT does while a commit runs, with DISCARD, and with both bits. -/
def Obligations.CommitWritesOfGoAndDiscard : Prop :=
  ∀ (b : Nat) (v : W64) (s : State), s.ready = true → b < 21 → hasCommit b = true →
    (bitOf v.toNat 0 = true → bitOf v.toNat 1 = false → ((s.commitOf b).state = 1 ∨ (s.commitOf b).state = 2) →
      exec (.registerWrite mgmtPath (b * 65536 + 0xFF0) 8 v) s = .next (s.modCommit b (fun c => { c with overrun := true }))) ∧
    (bitOf v.toNat 0 = false → bitOf v.toNat 1 = true →
      ∃ t, exec (.registerWrite mgmtPath (b * 65536 + 0xFF0) 8 v) s = .next t ∧ (∀ r, blockOf r = b → t.shadowOf r = s.act r) ∧
        (∀ r, blockOf r ≠ b → t.shadowOf r = s.shadowOf r) ∧ (∀ r, t.act r = s.act r) ∧ t.regs.pend = s.regs.pend ∧
        (t.commitOf b).state = (if (s.commitOf b).state = 3 ∨ (s.commitOf b).state = 4 then 0 else (s.commitOf b).state) ∧
        t = { s with regs := t.regs }) ∧
    (bitOf v.toNat 0 = true → bitOf v.toNat 1 = true → exec (.registerWrite mgmtPath (b * 65536 + 0xFF0) 8 v) s = .next s)

/-- 19 R469, R471: an 8-byte write by the management path to a register with a shadow changes the shadow alone, a read with VIEW 0 gives the value
written and one with VIEW 1 the active one; a write to an SW register is active at once; a write to a read-only one changes nothing. -/
def Obligations.RegisterWritesAndShadows : Prop :=
  (∀ (o : Nat) (r : RegRow) (v : W64) (s : State), s.ready = true → regRow o = some r → r.kind = .sh → o % 8 = 0 → o < 0x150000 →
    (o < 0x20100 ∨ 0x20138 ≤ o) → o % 65536 < 0xFE8 ∨ 0x1000 ≤ o % 65536 → writeCommand o v.toNat s = none → r.mask < 2 ^ 64 →
    ∃ t, exec (.registerWrite mgmtPath o 8 v) s = .next t ∧ t.shadowOf o = v.toNat &&& r.mask ∧ (∀ k, t.act k = s.act k) ∧
      (∀ k, k ≠ o → t.shadowOf k = s.shadowOf k) ∧ t = { s with regs := t.regs } ∧
      ((s.commitOf (blockOf o)).view = false → regRead t o = v.toNat &&& r.mask) ∧ ((s.commitOf (blockOf o)).view = true → regRead t o = s.act o)) ∧
  (∀ (o : Nat) (r : RegRow) (v : W64) (s : State), s.ready = true → regRow o = some r → r.kind = .rw ∨ r.kind = .live → o % 8 = 0 → o < 0x2000000 →
    (o < 0x20100 ∨ 0x20138 ≤ o) → writeCommand o v.toNat s = none → o ≠ rNfcService → r.mask < 2 ^ 64 →
    ∃ t, exec (.registerWrite mgmtPath o 8 v) s = .next t ∧ t.act o = v.toNat &&& r.mask ∧ (∀ k, k ≠ o → t.act k = s.act k) ∧
      t = { s with regs := t.regs }) ∧
  (∀ (o : Nat) (r : RegRow) (v : W64) (s : State), s.ready = true → regRow o = some r → r.kind = .ro → o % 8 = 0 → o < 0x2000000 →
    (o < 0x20100 ∨ 0x20138 ≤ o) → writeCommand o v.toNat s = none → exec (.registerWrite mgmtPath o 8 v) s = .next s)

/-- 03 R62: the register window is the management path's: a write or a read by another requester changes nothing but LNK_REQ_REJECTED, which
counts it; a read returns 0. -/
def Obligations.OtherRequestersAreRefused : Prop :=
  ∀ (req o size : Nat) (v : W64) (s : State), s.ready = true → req ≠ mgmtPath →
    exec (.registerWrite req o size v) s = .next (s.count rLnkReqRejected 1) ∧
    exec (.bistWarmWrite req v) s = .next (s.count rLnkReqRejected 1) ∧
    exec (.tallyDataRead req) s = .next { s.count rLnkReqRejected 1 with readData := 0 } ∧
    exec (.scanChallengeRead req) s = .next { s.count rLnkReqRejected 1 with readData := 0 }

/-! ### Folds and namespaces (12, 15, 19) -/

/-- 19 R477, Table 19-6, 15 R403, R408: a fold that forms binds the pens and ways of its commit with quotas 0, role DECODE and, without a record, a LIVE
key of generation 1; a formed fold takes the resources a commit adds and gives up those it removes once their sheets have moved; a release zeroes its
keys, and when the namespace is gone the fold is no more. -/
def Obligations.FoldsFormChangeAndRelease : Prop :=
  (∀ (f : Nat) (s : State), s.ready = true → (s.fold f).status = 1 → (s.fold f).key.state = 0 → (s.fold f).key.current ≠ [] →
    ∃ t, exec (.foldForm f) s = .next t ∧ (t.fold f).status = 2 ∧ (t.fold f).pens = s.duePens f ∧ (t.fold f).ways = s.dueWays f ∧
      (t.fold f).quota = [] ∧ (t.fold f).role = 0 ∧ (t.fold f).key.state = 1 ∧ (t.fold f).key.g = 1 ∧ t = { s with folds := t.folds, regs := t.regs }) ∧
  (∀ (f : Nat) (s : State), s.ready = true → s.formed f = true → s.sysDue f = true → s.due (rSysFoldCtrl f) = 1 →
    ∃ t, exec (.foldAddResources f) s = .next t ∧ (t.fold f).pens = (s.fold f).pens ||| s.duePens f ∧
      (t.fold f).ways = (s.fold f).ways ||| s.dueWays f ∧ t = { s with folds := t.folds, regs := t.regs }) ∧
  (∀ (f : Nat) (gone : List Nat) (s u : State), s.ready = true → s.formed f = true → s.sysDue f = true → s.due (rSysFoldCtrl f) = 1 →
    gone = (s.fold f).wayList.filter (fun w => !(s.dueWays f).toNat.testBit w) → gone ≠ [] → (∀ w ∈ gone, w ∉ (s.fold f).pinnedWays) →
    moveOut f (fun e => e.tier == 1 && gone.contains (e.loc % 64)) s = some u →
    exec (.foldRemoveWays f) s = .next (settleSys f (gone.foldl clearWay (u.modFold f (fun x => { x with ways := x.ways &&& s.dueWays f }))))) ∧
  (∀ (f : Nat) (gone : List Nat) (s : State), s.ready = true → s.formed f = true → s.sysDue f = true → s.due (rSysFoldCtrl f) = 1 →
    gone = (s.fold f).wayList.filter (fun w => !(s.dueWays f).toNat.testBit w) → gone ≠ [] → (∀ w ∈ gone, w ∉ (s.fold f).pinnedWays) →
    (∀ p ∈ (s.fold f).sheets, p.2.tier ≠ 1) →
    exec (.foldRemoveWays f) s = .next (settleSys f (gone.foldl clearWay (s.modFold f (fun x => { x with ways := x.ways &&& s.dueWays f }))))) ∧
  (∀ (f : Nat) (gone : List Nat) (s u : State), s.ready = true → s.formed f = true → s.sysDue f = true → s.due (rSysFoldCtrl f) = 1 →
    gone = (s.fold f).penList.filter (fun n => !(s.duePens f).toNat.testBit n) → gone ≠ [] → (s.fold f).active = none → (s.fold f).drain = none →
    moveOut f (fun e => (e.tier == 0 && gone.contains (e.loc % 64)) || (e.tier == 2 && gone.contains (e.loc % 256 / 4)))
      (s.modFold f (fun x => { x with pens := x.pens &&& s.duePens f })) = some u →
    exec (.foldRemovePens f) s = .next (settleSys f (gone.foldl (fun s n => collapsePen n s) u))) ∧
  (∀ (f : Nat) (gone : List Nat) (s : State), s.ready = true → s.formed f = true → s.sysDue f = true → s.due (rSysFoldCtrl f) = 1 →
    gone = (s.fold f).penList.filter (fun n => !(s.duePens f).toNat.testBit n) → gone ≠ [] → (s.fold f).active = none → (s.fold f).drain = none →
    (∀ p ∈ (s.fold f).sheets, p.2.tier ≠ 0 ∧ p.2.tier ≠ 2) →
    exec (.foldRemovePens f) s = .next (settleSys f (gone.foldl (fun s n => collapsePen n s)
      (s.modFold f (fun x => { x with pens := x.pens &&& s.duePens f }))))) ∧
  (∀ (f : Nat) (s : State), s.ready = true → s.formed f = true → getN s.regs.pend (rSysFoldCtrl f) = some 0 →
    ∃ t, exec (.foldRelease f) s = .next t ∧ (t.fold f).status = 3 ∧ (t.fold f).releaseStep = 1 ∧ (t.fold f).pens = (s.fold f).pens ∧
      (t.fold f).key.state = 0 ∧ (t.fold f).key.imageKeys = [] ∧ (t.fold f).key.ownerKeys = [] ∧ (t.fold f).sheets = [] ∧
      (t.fold f).key.scrubLeft = 8192 * (s.fold f).penList.length ∧ (∀ a, s.winBase f ≤ a → a < s.winLimit f → memGet t.mem a = 0) ∧
      (∀ g, g ≠ f → t.fold g = s.fold g)) ∧
  (∀ (f : Nat) (s : State), s.ready = true → (s.fold f).status = 3 → (s.fold f).ns.state = nsAbsent →
    exec (.foldReleaseDone f) s = .next
      (let t := (s.fold f).wayList.foldl clearWay ((s.fold f).penList.foldl (fun s n => collapsePen n s) s)
       applyPend (sysKey f) { t with folds := delN t.folds f }))

/-- 12 R311 to R317, Table 12-2: a non-zero mask committed for an ABSENT namespace binds its channels and erases their blocks; formed, it is
NORMAL, or READ_ONLY where too few blocks are good; a mask of 0 releases it, and released its channels are free; a rebuild finds the map of the
checkpoint and the later pages in WSEQ order, and a registration that waited for it goes on. -/
def Obligations.NamespacesFormReleaseAndRebuild : Prop :=
  (∀ (f : Nat) (s : State), s.ready = true → s.maskDue f = true → s.due (rNfcNsChannels f) ≠ 0 → (s.fold f).ns.state = nsAbsent →
    ∃ t u, exec (.namespaceForm f) s = .next t ∧ u = applyPend (nfcKey f) s ∧ (t.fold f).ns.state = nsForming ∧
      (t.fold f).ns.mask = u.act (rNfcNsChannels f) ∧ (t.fold f).ns.map = [] ∧ (∀ g, g ≠ f → t.fold g = s.fold g) ∧
      t = { s with folds := t.folds, regs := t.regs }) ∧
  (∀ (f : Nat) (s : State), s.ready = true → (s.fold f).ns.state = nsForming →
    ∃ t, exec (.namespaceFormationDone f) s = .next t ∧ ((t.fold f).ns.state = nsNormal ∨ (t.fold f).ns.state = nsReadOnly) ∧
      (t.fold f).ns.mask = (s.fold f).ns.mask ∧ (∀ g, g ≠ f → t.fold g = s.fold g) ∧ t = { s with folds := t.folds }) ∧
  (∀ (f : Nat) (s : State), s.ready = true → (s.fold f).status ≠ 3 → s.maskDue f = true → s.due (rNfcNsChannels f) = 0 →
    ((s.fold f).ns.state = nsNormal ∨ (s.fold f).ns.state = nsReadOnly) →
    ∃ t, exec (.namespaceRelease f) s = .next t ∧ (t.fold f).ns.state = nsReleasing ∧ (t.fold f).ns.map = [] ∧ (t.fold f).ns.sealedKeys = [] ∧
      (t.fold f).ns.mask = (s.fold f).ns.mask ∧ (∀ g, g ≠ f → t.fold g = s.fold g)) ∧
  (∀ (f : Nat) (s : State), s.ready = true → (s.fold f).ns.state = nsReleasing →
    ∃ t, exec (.namespaceReleaseDone f) s = .next t ∧ (t.fold f).ns = Namespace.reset ∧ (∀ g, g ≠ f → t.fold g = s.fold g) ∧
      t = { s with folds := t.folds }) ∧
  (∀ (f : Nat) (s : State), s.ready = true → (s.fold f).ns.state = nsRebuilding → (s.fold f).ns.sealedState ≠ nsReadOnly →
    (s.fold f).registering = [] → ∃ t, exec (.namespaceRebuild f) s = .next t ∧ (t.fold f).ns.map = rebuiltMap (s.fold f).ns ∧
      (t.fold f).ns.state = (match (s.fold f).ns.checkpoint with | some c => c.state | none => nsNormal) ∧
      (∀ g, g ≠ f → t.fold g = s.fold g) ∧ t = { s with folds := t.folds }) ∧
  (∀ (f : Nat) (s : State), s.ready = true → exec (.namespaceRebuild f) s = .next (settleRegistrations f (rebuildDone f s)))

/-! ### The flash translation layer (12) -/

/-- 12 R316 to R318, R323, R324, R327: FLASH_WRITE stores the form of a sheet that migrates to T3 in a free slot; a program that completes makes the
oldest write that can be durable so and completes a discard; a failed program or erase is counted and retires its block, one of a collection target
restarts the copy; a read counts its codewords, and one that cannot be corrected poisons its page (log entry 172); a temperature sample enters its bin and the last 64. -/
def Obligations.FlashProgramsReadsAndSamples : Prop :=
  (∀ (f i k : Nat) (m : Mig) (s u : State) (content : List Byte) (len : Nat), s.ready = true → getN (s.fold f).migs i = some m → m.target = 3 →
    m.phase < 5 → (s.fold f).ns.state = nsNormal → quotaMoveOver s f i = false → (s.room f 3 ≠ 0 ∨ m.oldTier = 3) →
    content = s.read (s.sheetOffset f i) 65536 → len = s.lenIn f 3 ((s.fold f).sheet i) content → storeForm s f len (some i) = some (u, k) →
    exec (.flashWrite f i) s = .next (u.modFold f (fun x => { x with migs := setN x.migs i { m with phase := 5, newLoc := k * 1280, len := len } }))) ∧
  (∀ (f : Nat) (o : FlashOp) (s : State), s.ready = true → (s.fold f).ns.writes.find? (durableOp s.boot.firmware (s.fold f).ns) = some o →
    (s.fold f).ns.discards = [] →
    exec (.nandProgramComplete f) s = .next (settleRegistrations f (s.modNs f (fun x => { x with writes := dropFirst o x.writes })))) ∧
  (∀ (f u : Nat) (g : GcCopy) (s : State), s.ready = true → (s.fold f).ns.gc = some g →
    exec (.nandProgramFail f u) s = .next (settleRegistrations f (retireBlock f g.target u 1
      (s.modNs f (fun x => restartCopy g { x with programFails := x.programFails + 1 }))))) ∧
  (∀ (f b u : Nat) (g : GcCopy) (s : State), s.ready = true → (s.fold f).ns.state ≠ nsAbsent → u < (s.fold f).ns.units →
    (s.fold f).ns.gc = some g → g.target = b →
    exec (.nandEraseFail f b u) s = .next (settleRegistrations f (retireBlock f b u 2
      (s.modNs f (fun x => restartCopy g { x with eraseFails := x.eraseFails + 1 }))))) ∧
  (∀ (f b u : Nat) (s : State), s.ready = true → (s.fold f).ns.state ≠ nsAbsent → u < (s.fold f).ns.units →
    (∀ g, (s.fold f).ns.gc = some g → g.target ≠ b) →
    exec (.nandEraseFail f b u) s = .next (settleRegistrations f (retireBlock f b u 2 (s.modNs f (fun x => { x with eraseFails := x.eraseFails + 1 }))))) ∧
  (∀ (f lpn ppn n : Nat) (s : State), s.ready = true → getN (s.fold f).ns.map lpn = some ppn → ppn ≠ lpnPoisoned →
    exec (.flashRead f lpn (List.replicate n .hard)) s =
      .next (errorCorrected (some f) 3 (ppnChannel (s.fold f).ns ppn) (ppnChipEnable (s.fold f).ns ppn) n
        (s.modNs f (fun x => { x with cwHard := x.cwHard + BitVec.ofNat 64 n })))) ∧
  (∀ (f lpn ppn : Nat) (s : State), s.ready = true → getN (s.fold f).ns.map lpn = some ppn → ppn ≠ lpnPoisoned →
    ∃ t, exec (.flashRead f lpn [.uncorrectable]) s = .next t ∧ getN (t.fold f).ns.map lpn = some lpnPoisoned ∧
      (t.fold f).ns.cwBad = (s.fold f).ns.cwBad + 1) ∧
  (∀ (f : Nat) (c : Int) (s : State), s.ready = true → (s.fold f).ns.state ≠ nsAbsent →
    ∃ t, exec (.nandTempSample f c) s = .next t ∧ (t.fold f).ns.tempLast.getLast? = some c ∧
      (∀ b, getND (t.fold f).ns.tempHist b 0 = getND (s.fold f).ns.tempHist b 0 +
        (if b = (if c < 0 then 0 else if 112 ≤ c then 15 else (c / 8).toNat + 1) then 1 else 0)) ∧ t.mem = s.mem)

/-- 12 R319 to R322: collection below its threshold and folding of a buffer three-quarters full or idle copy their superblock's valid pages; the
commit moves an LPN only if the map still names the victim's page; an erased victim is free again, its count one higher. -/
def Obligations.CollectionFoldingAndErasure : Prop :=
  (∀ (f v : Nat) (s : State), s.ready = true → (s.fold f).ns.state = nsNormal → (s.fold f).ns.gc = none → gcWanted s f = true → gcVictim s f = some v →
    exec (.gcVictimCopy f) s = .next (copyVictim (s.modNs f (fun x => { x with gcRunning := true })) f v false)) ∧
  (∀ (f : Nat) (g : GcCopy) (s : State), s.ready = true → (s.fold f).ns.gc = some g → (g.copied.map (·.1)).Nodup →
    ∃ t, exec (.gcCommit f) s = .next t ∧ (t.fold f).ns.gc = none ∧
      (∀ c ∈ g.copied, getN (t.fold f).ns.map c.1 = if getN (s.fold f).ns.map c.1 = some c.2.1 then some c.2.2 else getN (s.fold f).ns.map c.1) ∧
      (∀ l, (∀ c ∈ g.copied, c.1 ≠ l) → getN (t.fold f).ns.map l = getN (s.fold f).ns.map l) ∧ t = { s with folds := t.folds }) ∧
  (∀ (f b : Nat) (s : State), s.ready = true → (s.fold f).ns.state = nsNormal → (s.fold f).ns.gc = none → oldestBuffer (s.fold f).ns = some b →
    (3 * s.bufferTarget f ≤ 4 * (s.fold f).ns.bufferSb →
      exec (.slcFold f) s = .next (copyVictim (s.modNs f (fun x => if x.openBuffer = some b then closeSb b x else x)) f b true)) ∧
    ((s.fold f).ns.lastWrite + 1000 ≤ s.now →
      exec (.foldIdleTimer f) s = .next (copyVictim (s.modNs f (fun x => if x.openBuffer = some b then closeSb b x else x)) f b true))) ∧
  (∀ (f b : Nat) (s : State), s.ready = true → ((s.fold f).ns.sb b).mode = 5 → (s.fold f).ns.gc = none →
    ((s.fold f).ns.sb b).erases + 1 ≠ s.boot.firmware.endurance →
    exec (.nandEraseComplete f b) s = .next (settleRegistrations f (judgeHealth f (s.modNs f (fun x =>
      let x := x.modSb b (fun y => { y with mode := 0, erases := y.erases + 1, refresh := false, written := 0 })
      { x with gcRunning := x.gcRunning && decide (x.freeSb s.boot.firmware < bitsOf (s.act (rNfcGcThresh f)) 15 8) })))))

/-! ### Power, sensors, telemetry (17) -/

/-- 17 R437 to R439, R409: a block at L0 with no work goes to L1; idle past a rung's time it goes to the deepest level that is due, a pen at L4 losing
its slate; work wakes any block that is not fenced or disabled, and a wait of a pen at L3 or L4 is counted. -/
def Obligations.PowerLadder : Prop :=
  (∀ (b : Nat) (s : State), s.ready = true → b < 106 → (s.block b).level = 0 → (b < 64 → (s.pen b).running = false) →
    exec (.ladderL1Entry b) s = .next (s.setLevel b 1)) ∧
  (∀ (b l : Nat) (s : State), s.ready = true → b < 106 → (s.block b).level ≠ 0 → (s.block b).level ≠ 4 → (b < 64 → (s.pen b).running = false) →
    l = idleLevel (bitsOf (s.act (policyReg b)) 31 0) (bitsOf (s.act (policyReg b)) 63 32) (s.now - (s.block b).since) (s.block b).level
      (s.mayCollapse b) →
    exec (.ladderIdleExpiry b) s = .next (if l = 4 then collapse b s else s.setLevel b l)) ∧
  (∀ (b : Nat) (s : State), b < 64 → ((collapse b s).block b).level = 4 ∧ (collapse b s).pen b = Pen.reset ∧
    (∀ a, slateAt b 0 ≤ a → a < slateAt b 0 + 0x1000000 → memGet (collapse b s).mem a = 0) ∧
    (∀ a, (a < slateAt b 0 ∨ slateAt b 0 + 0x1000000 ≤ a) → memGet (collapse b s).mem a = memGet s.mem a) ∧
    (∀ n, n ≠ b → (collapse b s).pen n = s.pen n)) ∧
  (∀ (b : Nat) (s : State), s.ready = true → b < 106 → s.blockFenced b = false → s.blockDisabled b = false →
    ∃ t, exec (.ladderWake b) s = .next t ∧ (t.block b).level = 0 ∧ (t.block b).since = s.now ∧ (∀ c, c ≠ b → t.block c = s.block c) ∧
      t.regs = (if b < 64 ∧ 3 ≤ (s.block b).level then (s.count rPwrPenWakes 1).regs else s.regs) ∧ t = { s with power := t.power, regs := t.regs })

/-- 17 R442, R445, Table 17-4: an evaluation steps the duty down one eighth while Tmax or the estimate is over its limit, never below 1/8; a VDD_CORE more
than 25 mV below its target sets 4/8, and the duty stays there until the monitor reads the target again; the target moves at most 10 mV at a time within
650 to 850 mV. -/
def Obligations.DutyAndCoreVoltage : Prop :=
  (∀ (watts : Nat) (s : State), s.ready = true → getN s.regs.pend rPwrThermal = none → s.power.undervolt = false → 1 ≤ s.power.duty → s.power.duty ≤ 8 →
    ∃ t, exec (.throttleEvaluation watts) s = .next t ∧ t.power.pest = watts ∧
      (bitsOf (s.act rPwrThermal) 26 16 < watts → t.power.duty = max 1 (s.power.duty - 1)) ∧
      ((bitsOf (s.act rPwrThermal) 7 0 * 8 : Nat) ≤ s.power.tmax → t.power.duty = max 1 (s.power.duty - 1)) ∧
      (s.power.duty ≤ t.power.duty + 1 ∧ t.power.duty ≤ s.power.duty + 1 ∧ 1 ≤ t.power.duty ∧ t.power.duty ≤ 8) ∧
      t = { s with power := t.power, regs := t.regs }) ∧
  (∀ (watts : Nat) (s : State), s.ready = true → getN s.regs.pend rPwrThermal = none → s.power.undervolt = true →
    ∃ t, exec (.throttleEvaluation watts) s = .next t ∧ t.power.duty = s.power.duty ∧ t = { s with power := t.power, regs := t.regs }) ∧
  (∀ (mv : Nat) (s : State), s.ready = true → mv + 25 < s.power.coreTarget →
    ∃ t, exec (.coreUndervoltage mv) s = .next t ∧ t.power.duty = 4 ∧ t.power.undervolt = true ∧ t = { s with power := t.power }) ∧
  (∀ (mv : Nat) (s : State), s.ready = true → s.power.coreTarget ≤ mv →
    exec (.coreUndervoltage mv) s = .next { s with power := { s.power with undervolt := false } }) ∧
  (∀ (mv : Nat) (s : State), s.ready = true →
    exec (.coreTargetChange mv) s = .next (if 650 ≤ mv ∧ mv ≤ 850 ∧ mv ≤ s.power.coreTarget + 10 ∧ s.power.coreTarget ≤ mv + 10 then
      { s with power := { s.power with coreTarget := mv } } else s))

/-- 17 R441, R444, R447 to R449, 05 R147: a sample keeps the hottest; stacks from 85 °C refresh at double rate and from 95 °C run at half rate until 92 °C;
a history sample enters the bin of the hottest junction in °C; clears empty what they name; TALLY_DATA read by the management path gives the entry
and steps on. -/
def Obligations.SensorsTelemetryAndTally : Prop :=
  (∀ (i : Nat) (t : Int) (s : State), getN (junctionSample i t s).power.samples i = some t ∧ t ≤ (junctionSample i t s).power.tmax ∧
    s.power.tmax ≤ (junctionSample i t s).power.tmax ∧ (∃ m, getN (junctionSample i t s).power.marks 0 = some m ∧ t ≤ m)) ∧
  (∀ (k : Nat) (t : Int) (s : State), (k ∈ (stackSample k t s).power.refresh2x ↔ 680 ≤ t) ∧
    (k ∈ (stackSample k t s).power.halfRate ↔ 760 ≤ t ∨ k ∈ s.power.halfRate ∧ 736 < t) ∧
    (∀ j, j ≠ k → (j ∈ (stackSample k t s).power.halfRate ↔ j ∈ s.power.halfRate))) ∧
  (∀ (j st : List Int) (s : State), s.ready = true → ∃ t, exec (.sensorSample j st) s = .next t ∧
    t = (List.range (min 8 st.length)).foldl (fun s k => stackSample k (st.getD k 0) s)
      ((List.range (min 80 j.length)).foldl (fun s i => junctionSample i (j.getD i 0) s) s) ∧ t = { s with power := t.power }) ∧
  (∀ s : State, s.ready = true → ∃ t, exec .tempHistorySample s = .next t ∧
    (∀ b, getND t.power.tempBins b 0 = getND s.power.tempBins b 0 + (if b = tempBin (s.power.hottest / 8) then 1 else 0)) ∧
    t.power.tempLast.getLast? = some (s.power.hottest / 8) ∧ t.power.tempLast.length ≤ max 64 s.power.tempLast.length ∧ t = { s with power := t.power }) ∧
  (∀ (h : Nat) (s : State), s.ready = true → ∃ t, exec (.tlmHistClear h) s = .next t ∧
    (∀ p ∈ t.power.hist, bitOf h (p.1 / 32) = false ∨ 224 ≤ p.1) ∧ t = { s with power := t.power }) ∧
  (∀ (m : Nat) (s : State), s.ready = true → ∃ t, exec (.tlmHwmClear m) s = .next t ∧
    (∀ p ∈ t.power.marks, bitOf m p.1 = false ∨ 19 ≤ p.1) ∧ t = { s with power := t.power }) ∧
  (∀ s : State, s.ready = true → exec (.tallyDataRead mgmtPath) s = .next { (readTally s).2 with readData := (readTally s).1 })

/-! ### I3C and TAP (20) -/

/-- 20 R489, R497 to R499: out of reset the I3C target takes a dynamic address by ENTDAA or by SETDASA of its static one, drops it at RSTDAA, returns
its provisional ID, BCR 0 and DCR 0, two status bytes, and accepts ENEC and DISEC without effect; a private write of a frame of 13 bytes writes the
register, one that is malformed makes the next read answer 0x02 once; a read command holds status 0x00 and the register's value; the TAP takes its
instruction in every STATUS. -/
def Obligations.ManagementBusAndTap : Prop :=
  ∀ s : State, (s.boot.status ≠ 0 →
    (∀ a, s.i3c.dynamic = none → s.boot.factory.isSome = true → exec (.i3cEntdaa a) s =
      .next { s with i3c := { s.i3c with dynamic := some (a % 128), out := beBytes 6 (provisionalId s).1 ++ [0x00, 0x00] } }) ∧
    (∀ a, s.i3c.dynamic = none → exec (.i3cSetdasa (0x30 + bitsOf s.boot.strap 2 1) a) s =
      .next { s with i3c := { s.i3c with dynamic := some (a % 128), out := [] } }) ∧
    exec .i3cRstdaa s = .next { s with i3c := { s.i3c with dynamic := none, out := [] } } ∧
    (∀ r, s.boot.factory = some r → exec .i3cGetpid s = .next { s with i3c := { s.i3c with out := beBytes 6 (2 ^ 32 + r.serial % 2 ^ 32) } }) ∧
    exec .i3cGetbcr s = .next { s with i3c := { s.i3c with out := [0x00] } } ∧ exec .i3cGetdcr s = .next { s with i3c := { s.i3c with out := [0x00] } } ∧
    (∃ t, exec .i3cGetstatus s = .next t ∧ t.i3c.out.length = 2 ∧ t = { s with i3c := t.i3c, freeCount := t.freeCount }) ∧
    (∀ e, exec (.i3cEnecDisec e) s = .next { s with i3c := { s.i3c with out := [] } }) ∧
    (∀ l, frameOk 13 1 l = true → s.i3cOpen (frameOffset l) = true → exec (.i3cPrivateWrite l) s =
      .next (writeWindow (frameOffset l) 8 (BitVec.ofNat 64 (leAt l 5 8)) { s with i3c := { s.i3c with result := none, out := [] } })) ∧
    (∀ l, frameOk 13 1 l = false → exec (.i3cPrivateWrite l) s = .next { s with i3c := { s.i3c with malformed := true, out := [] } }) ∧
    (s.i3c.malformed = true → ∃ t, exec (.i3cPrivateRead []) s = .next t ∧ t.i3c.out.head? = some 0x02 ∧ t.i3c.malformed = false) ∧
    (∀ l, l ≠ [] → frameOk 5 2 l = true → s.i3cOpen (frameOffset l) = true → s.i3c.malformed = false → exec (.i3cPrivateRead l) s =
      .next (let r := readWindow (frameOffset l) s
             { r.2 with i3c := { r.2.i3c with result := some (0x00, r.1), out := 0x00 :: leBytes 8 r.1.toNat } }))) ∧
  (∀ i, exec (.tapInstruction i) s = .next { s with tap := i })

/-! ### Rules of the whole device -/

/-- 03 R70: a descriptor whose FLAGS has a reserved bit set completes ST_BAD_DESCRIPTOR and changes nothing else, whatever its opcode, when its turn in its
session's order has come (03 R91). -/
def Obligations.ReservedFlagsAreRefused : Prop :=
  ∀ (op : Nat) (row : Desc → Instr), (op, row) ∈ [(opSessionOpen, Instr.sessionOpen), (opTurnSubmit, .turnSubmit), (opToolResult, .toolResult),
      (opModelActivate, .modelActivate), (opModelRetire, .modelRetire), (opRecallQuery, .recallQuery), (opRecallInsert, .recallInsert),
      (opRecallDelete, .recallDelete), (opRecallMerge, .recallMerge), (opSnapshotCut, .snapshotCut), (opDroveShrink, .droveShrink),
      (opDroveRebalance, .droveRebalance), (opKeyRotate, .keyRotate), (opQuotaSet, .quotaSet), (opRoleSet, .roleSet),
      (opFlashDiscard, .flashDiscard), (opSessionClose, .sessionClose), (opTurnCancel, .turnCancel), (opSessionPark, .sessionPark)] →
  ∀ (d : Desc) (s : State), s.ready = true → s.inOrder op d = true → flagsReserved d = false →
    ∃ sp, exec (row d) s = .next (complete op d stBadDescriptor 0 sp (beginDesc op d s))

/-- 03 R70: a management opcode on a fold's ring, and another opcode on the management ring, complete ST_NOT_OWNER and change nothing else. -/
def Obligations.WrongRingsAreRefused : Prop :=
  ∀ (op : Nat) (row : Desc → Instr), (op, row) ∈ [(opModelActivate, Instr.modelActivate), (opModelRetire, .modelRetire), (opRecallQuery, .recallQuery),
      (opRecallMerge, .recallMerge), (opSnapshotCut, .snapshotCut), (opDroveShrink, .droveShrink), (opDroveRebalance, .droveRebalance),
      (opKeyRotate, .keyRotate), (opQuotaSet, .quotaSet), (opRoleSet, .roleSet), (opFlashDiscard, .flashDiscard)] →
  ∀ (d : Desc) (s : State), s.ready = true → flagsReserved d = true → noSession d = true → d.body = List.replicate 48 0 →
    ¬ (isManagementOp op = true ↔ s.ringOwner d.ring = mgmtPath) →
    ∃ sp, exec (row d) s = .next (complete op d stNotOwner 0 sp (beginDesc op d s))

/-- A command that is not for a device in service changes nothing (16 Table 16-5): no descriptor, fabric packet, operation, step, commit, migration or
register write has an effect while STATUS is not 0x5. -/
def Obligations.NothingRunsOutOfService : Prop :=
  ∀ s : State, s.ready = false → ∀ c : Instr, (match c with
    | .linkTraining _ | .linkTrainingRetry _ | .linkFlitNak _ | .linkDown | .linkDownLimitExpiry | .thermalTrip _ | .watchdogExpiry _
    | .pllLockLoss _ | .hbmStackFailure _ | .secSelfCheckFailure | .coldReset _ | .coldResetAssert _ | .warmReset _ | .warmResetResume
    | .i3cPrivateWrite _ | .i3cPrivateRead _ | .i3cEntdaa _ | .i3cSetdasa _ _ | .i3cRstdaa | .i3cGetpid | .i3cGetbcr | .i3cGetdcr | .i3cGetstatus
    | .i3cEnecDisec _ | .tapInstruction _ => False
    | _ => True) → exec c s = .next s

/-! ### Messages between the members of a drove (05, 04, 09, 14; log entry 134) -/

/-- 05 R126, R134, R509, 04 R121, 14 R367, in the model's own layout (log entry 134): a message between members reads back as it was written; one
from another member is heeded and answered. A request for admission is placed by the root alone, a drain begins at the root where none runs, a list
counts only from the root, an empty step commits with it, a session's share only from its owner, and a cut is fixed where none is. Slices of logits and
reports of shards are kept at the root (10 R255, 14 R378), the commit record counts only from it (09 R248), and so does its verdict on a join (18 R463). -/
def Obligations.MessagesBetweenMembers : Prop :=
  (∀ m : Mail, (∀ b, m = .seat b → b.record.inRange = true ∧ b.params.length = 65536 ∧ b.counts.length = 65536) →
    (∀ n, m = .logits n → n.source = 0) → (∀ c r, m = .shard c r → r.digest.length = 48) →
    Mail.ofWords m.words.1 m.words.2 = some m) ∧
  (∀ l : List Nat, (∀ v ∈ l, v < 2 ^ 64) → wordsOf (packWords l) = l) ∧
  (∀ (p : Packet) (f : Nat) (l : List Packet) (m : Mail) (s t : State), s.mailFold p = some f → gathered p (taken p s) = (some l, t) →
    mailOf p (l.flatMap (·.payload)) = some m → ∀ r, r = (if p.issuer = issSys then heedJoin f p.src p.drove m t else heed f p.src m t) →
    (Delivered fabOpWrite p s → exec (.fabWrite p) s = .next (respond p r.1 [] [] r.2)) ∧
    (Delivered fabOpNotify p s → exec (.fabNotify p) s = .next (respond p r.1 [] [] r.2))) ∧
  (∀ (f src : Nat) (x : W64) (lc : Bool) (s : State),
    (s.isRoot f = false → heed f src (.askSlot x lc) s = (stNotOwner, s)) ∧
    (s.isRoot f = true → (s.fold f).drain = none → (s.fold f).hasSlot = true →
      heed f src (.askSlot x lc) s = (stOk, putReq f ⟨x, lc, s.now, true, some src⟩ s))) ∧
  (∀ (f src k a l depth : Nat) (s : State), s.isRoot f = true →
    ((s.fold f).drain = none → ∃ q t, heed f src (.drain k a l depth) s = (stOk, t) ∧ (t.fold f).drain = some q ∧ q.kind = k ∧ q.arg = a ∧
      q.deadline = s.now + l ∧ q.loading = false ∧ q.depth = depth ∧ q.issuer = some src) ∧
    ((s.fold f).drain.isSome = true → heed f src (.drain k a l depth) s = (stDeferred, s))) ∧
  (∀ (f src : Nat) (p : Posting) (s : State),
    (src ≠ s.rootOf f → heed f src (.list p) s = (stNotOwner, s)) ∧
    (src = s.rootOf f → p.empty = true → p.number < (s.fold f).stepNo → heed f src (.list p) s = (stOk, s)) ∧
    (src = s.rootOf f → p.empty = true → p.number = (s.fold f).stepNo → s.betweenSteps f = true →
      heed f src (.list p) s = (stOk, commitPoint f [] (admitQueries f s)))) ∧
  (∀ (f src : Nat) (b : Seat) (s : State), b.record.lease.holder ≠ src → heed f src (.seat b) s = (stNotOwner, s)) ∧
  (∀ (f src c k : Nat) (s : State), (s.fold f).cutAt = none → (s.fold f).snap.state = 0 →
    heed f src (.cut c k) s = (stOk, s.modFold f (fun x => { x with cutAt := some (c, k), snap := { x.snap with state := 1, slot := k, step := c } }))) ∧
  (∀ (f src : Nat) (n : LogitNews) (s : State),
    (s.isRoot f = true → heed f src (.logits n) s = (stOk, s.modFold f (fun x => { x with slices := x.slices ++ [{ n with source := src }] }))) ∧
    (s.isRoot f = false → heed f src (.logits n) s = (stNotOwner, s))) ∧
  (∀ (f src c a : Nat) (st : Step) (vs : List SeqVerdict) (s : State), (s.fold f).step = some st →
    (src ≠ s.rootOf f → heed f src (.record c a vs) s = (stNotOwner, s)) ∧
    (src = s.rootOf f → ((heed f src (.record c a vs) s).2.fold f).step =
      some (if st.number = c ∧ st.attempt = a then { st with verdicts := some vs } else st))) ∧
  (∀ (f src c : Nat) (r : ShardReport) (s : State), s.isRoot f = true → (s.fold f).snap.step = c → (s.fold f).snap.state = 2 →
    heed f src (.shard c r) s = (stOk, s.modSnap f (fun q => { q with reports := q.reports.filter (fun t => t.member != r.member) ++ [r] }))) ∧
  (∀ (f src i : Nat) (st : W16) (drove : W32) (j : Join) (s : State), (s.fold f).join = some j → j.index ≠ 0 → j.drove = drove →
    j.members.head? = some src →
    heedJoin f src drove (.joinVerdict i st) s = (stOk, if st = stOk then commitJoin f s else dropJoin f i st s))
end

