-- ==== Sys2Proof/Tests/Slice0.lean ====
section
/-! SUPPORT. The author's tests: a device in service and its variants, ill-formed commands that WellFormed refuses, small tests of one step, and
for every statement states and operands that meet its hypotheses. Where a hypothesis rests on a function the model leaves without a body (a
signature that verifies, a point on a curve, a key that unwraps, the reduction base), the witness takes that one
hypothesis as given and meets the others beside it. -/
namespace Sys2Proof.Tests
open Sys2Proof Sys2Proof.Machine Sys2Proof.Safety
set_option Elab.async false

/-! ### A device in service -/

/-- Registers with values, by number. -/
def regs (l : List (Nat × Nat)) : NMap W64 := l.foldl (fun m p => setN m p.1 (BitVec.ofNat 64 p.2)) []

/-- Fold 0 with pens 0 and 1 and ways 0 and 1, its key live. -/
def fold0 : Fold :=
  { Fold.reset with
    status := 2, pens := 3, ways := 3, quota := [(0, 90), (1, 90), (2, 9000), (3, 90), (4, 90)]
    key := { FoldKey.reset with state := 1, g := 1, current := List.replicate 64 1 } }

/-- Window 0 and ring 0 with queue 0 for fold 0, window 1 and ring 1 with queue 1 for the management path, fold 0's tier window. -/
def devRegs : List (Nat × Nat) :=
  [(rLnkWinBase 0, 0x300000000000), (rLnkWinSize 0, 0), (rLnkWinHost 0, 0), (rLnkWinOwner 0, 0), (rLnkWinKind 0, 0x100),
   (rLnkWinBase 1, 0x300000200000), (rLnkWinSize 1, 0), (rLnkWinHost 1, 0x10000000), (rLnkWinOwner 1, 0x7F), (rLnkWinKind 1, 0x100),
   (rRingEqBase 0, 0x300000100000), (rRingEqCfg 0, 0x10004), (rRingEqHeadAddr 0, 0x300000101000),
   (rRingEqBase 1, 0x300000300000), (rRingEqCfg 1, 0x17F04), (rRingEqHeadAddr 1, 0x300000301000),
   (rRingSqBase 0, 0x300000102000), (rRingSqCfg 0, 0x4), (rRingHeadWb 0, 0x300000103000),
   (rRingSqBase 1, 0x300000302000), (rRingSqCfg 1, 0x17F04), (rRingHeadWb 1, 0x300000303000),
   (rTierFoldBase 0, 0), (rTierFoldLimit 0, 0x1000000000), (rSessDirRecords 0, 1000)]

/-- A device in service: self-tested, link up, fold 0 formed, rings 0 and 1 ACTIVE. -/
def dev : State :=
  { State.reset with
    timer := 5000000
    boot := { Boot.reset with
      status := 5, factory := some ⟨1, BitVec.allOnes 64, 2 ^ 18 - 1, 255, 65535, 750, 0x12345678⟩, firmware := ⟨1, 2, 3, 2, 2, 100, 64, 8, 3000⟩
      chipEnables := List.replicate 16 3, chipEnablesFenced := List.replicate 16 0 }
    link := ⟨true, false, 8, 0, true, none, 0, [], none, ⟨0, 0⟩⟩
    sec := { Sec.reset with seed := some (List.replicate 32 7), identityOk := true, factoryOk := true, drbgOk := true, ak := true }
    regs := ⟨regs devRegs, [], [], []⟩, folds := [(0, fold0)]
    rings := [(0, { Ring.reset with state := 1 }), (1, { Ring.reset with state := 1 })] }

/-- `dev` with fold 0 changed. -/
def devF (g : Fold → Fold) : State := dev.modFold 0 g
/-- Session 1 of fold 0 at rest here, its record changed by `g`. -/
def sess1 (g : Record → Record) : Sess := Sess.idle (g { Record.zero with sessionId := 1, lease := ⟨0, 0, 1⟩ }) true true 0
/-- `s` with session 1. -/
def withS (y : Sess) (s : State) : State := s.setSess 1 y
/-- A descriptor of fold 0's ring, one of the management ring, one that names session 1 at epoch 1. -/
def dr (body : List Byte) : Desc := ⟨0, 0, 7, 0, 0, padTo 48 body⟩
def dm (body : List Byte) : Desc := ⟨1, 0, 7, 0, 0, padTo 48 body⟩
def ds (body : List Byte) : Desc := ⟨0, 0, 7, 1, 1, padTo 48 body⟩
/-- `s` with registers set. -/
def withR (l : List (Nat × Nat)) (s : State) : State := l.foldl (fun s p => s.setAct p.1 p.2) s
/-- `s` with the bytes of host memory at physical address `a`. -/
def withH (a : Nat) (l : List Byte) (s : State) : State := { s with hostMem := memSetN s.hostMem a l }

/-- A word of a layer program: opcode and fields by their lowest bit. -/
def opw (code : Nat) (fs : List (Nat × Nat)) : OpWord := BitVec.ofNat 128 (fs.foldl (fun n e => n + e.2 * 2 ^ e.1) code)
/-- A layer of one head. -/
def layer1 : LayerInfo :=
  { qHeads := 1, kvHeads := 1, hdim := 0, moe := false, sliding := false, experts := 1, topk := 1, window := 0, streamTiles := 0
    scale := 0x3F800000, kScale := 0x3F800000, vScale := 0x3F800000 }
/-- An image of that layer with the program `p`, binding 0 in the fold's HBM area. -/
def image1 (p : List OpWord) : Image :=
  { digest := zerosB 48, members := 1, pensFor := 2, vocab := 4, modelWidth := 128, ffWidth := 128, cpt := 1, rowCap := 16, fixedSlots := 2
    groupSlots := 0, draftWays := 0, draftLayers := 0, draftCpt := 0, draftModel := false, layers := [layer1], program := p, draftProgram := []
    binding := [0x10003], constants := [0x3F800000], descriptors := [], payload := [], store := 2, ownSheets := [], understudySheets := []
    hbmBase := 0x640000 }
/-- A step of one row in progress. -/
def step1 : Step :=
  { number := 1, attempt := 0, items := [], rows := [⟨0, 0, 1, false, false, []⟩], limits := [], attn := none, proposals := [], verdicts := none
    abort := false, suspend := false, poisonedSeqs := [], quotaSeqs := [] }
/-- Fold 0 with an active image whose program is `p`. -/
def devI (p : List OpWord) : State := devF (fun x => { x with images := [(0, image1 p)], active := some 0 })
/-- `s` with pen `n` as an activation of fold 0's image leaves it, running its program. -/
def penOn (p : List OpWord) (n : Nat) (s : State) : State := (fillPen 0 n (image1 p) s).modPen n (fun x => { x with running := true })
/-- A step in progress, `op` next on pen 0. -/
def runs (op : OpWord) : State := penOn [op] 0 ((devI [op]).modFold 0 (fun x => { x with step := some step1 }))

/-! ### Values of computations that succeed -/

def okB {ε α : Type} : Except ε α → Bool
  | .ok _ => true
  | .error _ => false
def okVal {ε α : Type} : (e : Except ε α) → okB e = true → α
  | .ok a, _ => a
theorem okVal_eq {ε α : Type} : (e : Except ε α) → (h : okB e = true) → e = .ok (okVal e h)
  | .ok _, _ => rfl
def someVal {α : Type} : (e : Option α) → e.isSome = true → α
  | some a, _ => a
theorem someVal_eq {α : Type} : (e : Option α) → (h : e.isSome = true) → e = some (someVal e h)
  | some _, _ => rfl

/-- A pen that runs an operation, by a check that evaluates. -/
theorem runs_of {n : Nat} {op : OpWord} {opcode : Nat} {sub : Option Nat} {f : Nat} {s : State}
    (h : (s.ready && s.nextOp n == some (f, op) && opValid op && opBits op 7 0 == opcode && sub.all (opSub op == ·) &&
      (!bitOf op.toNat 8 || s.isRoot f)) = true) : Runs n op opcode sub f s := by
  simp only [Bool.and_eq_true, beq_iff_eq, Bool.or_eq_true, Bool.not_eq_eq_eq_not, Bool.not_true] at h
  obtain ⟨⟨⟨⟨⟨h1, h2⟩, h3⟩, h4⟩, h5⟩, h6⟩ := h
  exact ⟨h1, h2, h3, h4, fun k hk => by subst hk; simpa using h5, fun hb => h6.resolve_left (by simp [hb])⟩

/-- A SESSION_OPEN with its parameter block in place. -/
def openD : Desc := { dr (leBytes 6 0x300000110000 ++ [8, 0] ++ leBytes 6 0x300000104000 ++ leBytes 2 0 ++ leBytes 6 0x300000105000 ++ leBytes 2 64 ++ leBytes 4 0 ++ [2, 0, 0, 0] ++ leBytes 8 5 ++ leBytes 2 0) with tag := 8 }
def openS : State := withH 0x105000 (padTo 64 (leBytes 2 0x5053 ++ [0, 0] ++ leBytes 2 0 ++ [0, 0] ++ leBytes 2 0 ++ leBytes 2 0 ++ leBytes 4 0 ++ leBytes 4 0x3F800000 ++ leBytes 4 0 ++ leBytes 4 0x3F800000)) (devI [])

/-- A turn of no text with MORE, session 1 OPEN or WAITING, the image active. -/
def turnD : Desc := ds (leBytes 6 0x300000105000 ++ [0, 0] ++ leBytes 4 0 ++ leBytes 4 3 ++ [0, 0, 5, 0] ++ leBytes 4 0x3FFFF ++ [0, 0, 0, 0])
def turnS : State := withS (sess1 id) (devI [])
def turnS2 : State := withS (sess1 (fun r => { r with state := stateWaiting })) (devI [])
/-- Fold 0 as a member of drove 9 of devices 9, the root, and 7, which is this one; port 17 leads to device 9. -/
def memR (s : State) : State :=
  ((withR [(rFabSelf, 2 ^ 31 + 7), (rFabFoldDrove 0, 2 ^ 32 + 9), (rFabFoldMember 0, 1 + 2 * 2 ^ 18 + 9 * 2 ^ 46), (rFabRouteLocal 9, 2 ^ 31 + 17), (rFabPortCtrl 17, 1)]
    s).modPort 17 (fun x => { x with state := 2 })).modFold 0 (fun x => { x with members := [9, 7] })
/-- Fold 0 as the root of that drove. -/
def rootR (s : State) : State :=
  (withR [(rFabFoldMember 0, 0 + 2 * 2 ^ 18 + 7 * 2 ^ 46)] (memR s)).modFold 0 (fun x => { x with members := [7, 9] })
def sess7 : Sess := sess1 (fun r => { r with lease := ⟨7, 0, 1⟩ })
def turnS3 : State := memR (withS sess7 (devI []))

/-- An acceptance or recovery with a stream block. -/
def moveD : Desc := ds (leBytes 6 0x300000110000 ++ [8, 0] ++ leBytes 6 0x300000104000 ++ leBytes 2 0 ++ [1, 0])
/-- A move with both sheets pulled. -/
def pulledM : Move := { stage := 3, device := 7, fold := 0, epoch := 1, desc := none, continueTurn := false, lastPoll := 0, pulled := [(0, 0), (1, 1)] }
def pulledY : Sess := { sess1 (fun r => { r with paramSheet := 65536 }) with move := some pulledM }
def pulledS : State := withS pulledY dev
/-- A packet of session 1's turn 0: one word, 8 bytes. -/
def pkt1 : StreamPkt := ⟨1, 0, [⟨0, false, false⟩], 8, 0, false, false⟩
/-- Pen 0 with the packet in its draining bank, or in the filling one closed. -/
def penDrain : Pen := { Pen.reset with bank1 := ⟨[pkt1], true, some 0, false⟩ }
def penFill : Pen := { Pen.reset with bank0 := ⟨[pkt1], true, some 0, false⟩ }

/-- A drain to activate slot 0 that waits for the load. -/
def drain1 : Drain := { kind := 1, deadline := 5000000, desc := dr [], arg := 0, loading := true, boundary := 0 }
def actS : State := devF (fun x => { x with images := [(0, image1 [])], drain := some drain1 })
/-- A small index of fold 0 at offset 0x100000, its header sheet in T2. -/
def rclS : State :=
  withR [(rRclBase 0, 0x100000), (rRclConfig 0, 0x100), (rRclCap 0, 1000), (rRclQuery 0, 1)] (devF (fun x => { x with sheets := [(16, { Sheet.unbacked with tier := 2, kind := 5, refs := 1 })] }))
def queryD : Desc := dr [0, 80, 16, 0, 0, 48, 0, 1, 0, 96, 16, 0, 0, 48, 0, 1]
def merge1 : Merge := { mSeq := 0, left := 0, placed := 0, freed := 0, desc := dr [] }

/-- That index with its area backed, empty but for one vector in its side ring. -/
def areaOf (n : Nat) : NMap Sheet := (List.range n).map (fun j => (j + 16, { Sheet.unbacked with tier := 2, kind := 5, refs := 1 }))
def rclOf (l : NMap Sheet) : State :=
  withR [(rRclBase 0, 0x100000), (rRclConfig 0, 0x100), (rRclCap 0, 1000), (rRclQuery 0, 1)]
    { devF (fun x => { x with sheets := l }) with
      mem := memSetN (memSetN [] 0x100000 ([0x52, 0x43, 0x4C, 0x31, 0, 13] ++ zerosB 30 ++ [255, 255, 255, 255, 0, 0, 0, 0, 1])) 0x110000 (leBytes 4 noSlot) }
def rclA : State := rclOf (areaOf 1031)
theorem rclOf_sheets (l : NMap Sheet) : ((rclOf l).fold 0).sheets = l := rfl
theorem rclOf_mem (l : NMap Sheet) : (rclOf l).mem = (rclOf []).mem := rfl
def rclMOf (l : NMap Sheet) : State := (rclOf l).modFold 0 (fun x => { x with rcl := { x.rcl with merge := some { merge1 with left := 1 } } })
def rclM : State := rclMOf (areaOf 1031)
theorem rclMOf_sheets (l : NMap Sheet) : ((rclMOf l).fold 0).sheets = l := rfl
theorem rclMOf_regs (l : NMap Sheet) : (rclMOf l).regs = (rclOf l).regs := rfl
def rclX : Index := ⟨0, 0, 1000, 0x100000⟩
theorem hasN_range {α : Type} (v : α) (k : Nat) : (l : List Nat) → k ∈ l → hasN (l.map (fun j => (j + 16, v))) (k + 16) = true
  | [], h => absurd h List.not_mem_nil
  | j :: t, h => by
    unfold hasN
    rw [List.map_cons, getN]
    split
    · rfl
    · rename_i e
      exact hasN_range v k t ((List.mem_cons.mp h).resolve_left (fun q => e (by rw [q])))
theorem areaOf_has (n k : Nat) (h : k < n) : hasN (areaOf n) (k + 16) = true := hasN_range _ _ _ (List.mem_range.mpr h)
theorem area_of {s : State} (hw : s.winBase 0 = 0) (e : (s.fold 0).sheets = areaOf 1031) : AreaBacked rclX s := by
  intro a h1 h2
  have hb : rclX.base = 0x100000 := rfl
  have hn : rclSheets rclX.dim rclX.cap = 1031 := by decide +kernel
  rw [hb] at h1 h2; rw [hn] at h2
  show hasN (s.fold 0).sheets ((a - s.winBase 0) / 65536) = true
  rw [hw, e, Nat.sub_zero, show a / 65536 = a / 65536 - 16 + 16 by omega]
  exact areaOf_has 1031 _ (by omega)
theorem rclA_area : AreaBacked rclX rclA := area_of (by decide +kernel) (rclOf_sheets _)
theorem rclM_area : AreaBacked rclX rclM := area_of (by decide +kernel) (rclMOf_sheets _)
def rclQOf (l : NMap Sheet) : State := (rclOf l).modFold 0 (fun x => { x with rcl := { x.rcl with waiting := [queryD] } })
def rclQ : State := rclQOf (areaOf 1031)
theorem rclQ_index : rclQ.index 0 = some rclX := by
  unfold State.index
  exact if_pos (by decide +kernel)
theorem rclM_index : rclM.index 0 = some rclX := by
  unfold State.index
  exact if_pos (by decide +kernel)
theorem rclA_index : rclA.index 0 = some rclX := by
  unfold State.index
  exact if_pos (by decide +kernel)
theorem drop_all {a : Nat} : (l : List Host.Cell) → (∀ p ∈ l, p.1 < a) → l.dropWhile (fun p => decide (p.1 < a)) = []
  | [], _ => rfl
  | p :: t, h => by
    rw [List.dropWhile_cons, if_pos (by simpa using h p List.mem_cons_self)]
    exact drop_all t (fun q hq => h q (List.mem_cons_of_mem _ hq))
theorem memGet_zero (a : Nat) : (l : List Host.Cell) → (∀ p ∈ l, p.1 < a) → (n : Nat) → memGetN l a n = List.replicate n 0
  | _, _, 0 => rfl
  | l, h, n + 1 => by
    unfold memGetN
    rw [show l.dropWhile (fun p => decide (p.1 < a)) = [] from drop_all l h]
theorem rclA_map (e : Nat) : (rclA.mapEntry rclX e).2 < rclX.cap ∨ sideLoc ≤ (rclA.mapEntry rclX e).2 := by
  have hm : (rclOf []).mem.all (fun p => decide (p.1 < 0x110004)) = true := by decide +kernel
  have h : rclA.num (rclX.mapAt e + 4) 4 = 0 := by
    show ofLe (memGetN rclA.mem (rclX.mapAt e + 4) 4) = 0
    rw [memGet_zero _ rclA.mem (fun p hp => ?_) 4]
    · decide +kernel
    · have h1 := of_decide_eq_true (List.all_eq_true.mp hm p (rclOf_mem _ ▸ hp))
      have h2 : rclX.mapAt e = 0x100000 + 65536 + e * 8 := rfl
      omega
  left
  unfold State.mapEntry
  split
  · rw [h]; show 0 < 1000; decide
  · show 0 < 1000; decide

/-- Fold 0 with a NORMAL namespace and two snapshot slots of 64 sheets. -/
def snapS (q : Snap) : State :=
  withR [(rSnapStoreBase 0, 0x20000000), (rSnapStore 0, 2), (rSnapSlotSheets 0, 64), (rSnapDrainRate 0, 0)]
    (devF (fun x => { x with ns := { x.ns with state := nsNormal, slots := 1000 }, snap := q, quota := [(2, 9000), (3, 90)] }))
theorem storeSheet_ok {f k o : Nat} {l rep : List Byte} {s u : State} (h1 : (s.fold f).ns.state ≠ nsReadOnly)
    (h2 : placeSheet f (s.slotBase f k + o) 2 0 none false false (discardSheet f (s.slotBase f k + o) s) = .ok u) (h3 : u.snapReplicate f = false) :
    storeSheet f k o l rep s = .ok (requestMove f (s.slotBase f k + o) 3 (pokeSheet f (s.slotBase f k + o) 0 (padTo 65536 l) u)) := by
  unfold storeSheet
  rw [if_neg h1, h2]
  have h : (requestMove f (s.slotBase f k + o) 3 (pokeSheet f (s.slotBase f k + o) 0 (padTo 65536 l) u)).snapReplicate f = u.snapReplicate f := rfl
  simp only [andThen, h, h3, Bool.false_and, Bool.false_eq_true, ↓reduceIte]
def snap2 : Snap := { Snap.reset with state := 2, step := 5 }

/-- SNAPSHOT_RESTORE of session 1 of device 7, newest step. -/
def restD : Desc := { dr [0, 0, 0, 0, 0, 0, 0, 0, 0, 0, 0, 0, 0, 0, 0, 0, 0, 0, 0, 0, 0, 0, 0, 0, 0, 0, 17, 0, 0, 48] with session := 7 * 2 ^ 46 + 1 }

/-- Device 7 with a join block of two devices, 7 the first, in host memory. -/
def joinBlock : List Byte :=
  padTo 128 ([0x53, 0x4B, 0x39, 0x4A, 0x4F, 0x49, 0x4E, 0x01] ++ leBytes 2 1 ++ [0, 0] ++ leBytes 4 9 ++ leBytes 4 2) ++ leBytes 4 7 ++ leBytes 4 8
def joinS : State := withH 0x10105000 joinBlock (withR [(rFabSelf, 2 ^ 31 + 7)] dev)
def joinD : Desc := dm [0, 0, 0, 0, 232, 3, 0, 0, 0, 80, 48, 0, 0, 48]
def join1 : Join := { desc := joinD, drove := 9, members := [7, 8], index := 0, deadline := 4000000, reports := [(0, stOk)] }
def joined (g : Fold → Fold) : State :=
  withR [(rFabSelf, 2 ^ 31 + 7), (rFabFoldDrove 0, 2 ^ 32 + 9), (rFabFoldMember 0, 0 + 3 * 2 ^ 18 + 7 * 2 ^ 46)]
    (devF (fun x => g { x with members := [7, 8, 12] }))

/-- A member whose slot 0 holds an image of two members. -/
def memI : State := memR (devF (fun x => { x with images := [(0, { image1 [] with members := 2 })], active := some 0 }))

/-- A place in host memory, by a check that evaluates. -/
def isHost (n : Nat) : Except W16 Place → Bool
  | .ok (.host p) => p == n
  | _ => false
theorem host_of {e : Except W16 Place} {n : Nat} (h : isHost n e = true) : e = .ok (.host n) := by
  unfold isHost at h; split at h
  · rw [eq_of_beq h]
  · exact absurd h (by decide)
/-- KEY_INSTALL of key 5 from host memory, OP 0, 1 and 2. -/
def keyD (k : Byte) : Desc := dr ([k] ++ zerosB 7 ++ leBytes 6 52776559202304 ++ [0, 0] ++ List.replicate 16 5)
def eph1 : Ephemeral := { secret := [1], pub := [2], nonce := zerosB 48, created := 0 }
def blob1 : List Byte :=
  padTo 256 ([0x53, 0x4B, 0x39, 0x57, 0x52, 0x41, 0x50, 0x01] ++ leBytes 2 1 ++ leBytes 2 256 ++ leBytes 4 0 ++ List.replicate 16 5)
def blobS : State := withH 0x105000 blob1 (devF (fun x => { x with key := { x.key with ephemeral := some eph1 } }))
def evD (m : Byte) : Desc := dr (leBytes 6 52776559202304 ++ [0, 0] ++ leBytes 6 0x300000106000 ++ [0, 0, m, 0, 0, 0] ++ leBytes 4 4096)

/-- FLASH_DISCARD of the whole window of fold 0, which holds one sheet in T2 and one of the page table. -/
def discD : Desc := dr (leBytes 6 0 ++ [0, 0] ++ leBytes 4 (0x1000000000 / 65536))
def discS : State := devF (fun x => { x with sheets := [(0, { Sheet.unbacked with tier := 2, refs := 1 }), (1, { Sheet.unbacked with tier := 3, kind := 2, refs := 1 })] })
def healthD (k : Byte) : Desc := dr (leBytes 6 0x300000110000 ++ [0, 0, k])
/-- A gate list of one entry of 20 ns in host memory, for ports 0 and 17. -/
def gateD : Desc := dm (leBytes 6 0x300000305000 ++ [0, 0] ++ leBytes 4 0x20001 ++ [1])
def gateS : State := withH 0x10105000 [0, 1, 0, 0, 20, 0, 0, 0] dev
def gatePort (g : Port → Port) : State := dev.modPort 17 g

/-- A prefill chunk of one token of session 1 in sequence 0, and the fold with it on its work list. -/
def seq1 : SeqEntry :=
  { session := 1, phase := 1, lc := false, reviving := false, movePending := false, pen := 0, layerLimit := 0, resumeLayer := 0, epoch := 1
    prefillNext := 0, lastStep := 0, ready := none, heldLayer := none }
def item1 : WorkItem := ⟨0, 1, 0, 0, none⟩
def listS : State := (withS (sess1 (fun r => { r with state := stateActive })) (devI [])).modFold 0 (fun x => { x with seqs := [(0, seq1)], nextWork := [item1] })
def doneS (v : Option (List SeqVerdict)) : State :=
  { (devI []).modFold 0 (fun x => { x with step := some { step1 with rows := [], verdicts := v } }) with
    pens := [(0, { Pen.reset with pass := 1 }), (1, { Pen.reset with pass := 1 })] }
def wait1 : TxWait := ⟨[0x61], [false], none, 1, 0⟩

/-- An operation of 2 elements: rows at slate offsets 0, 0x4000 and 0x8000, all FP32. -/
def op3 (opcode sub : Nat) : OpWord := opw opcode [(28, sub), (98, 2), (32, 0), (54, 0x100), (76, 0x200)]
/-- Whether it runs on pen 0 and its operands resolve. -/
def meets (opcode sub : Nat) : Bool :=
  let op := op3 opcode sub
  let s := runs op
  let c : Ctx := ⟨0, 0, false⟩
  (s.ready && s.nextOp 0 == some (0, op) && opValid op && opBits op 7 0 == opcode && (some sub).all (opSub op == ·) && (!bitOf op.toNat 8 || s.isRoot 0)) &&
    (decide (1 ≤ opLen op) && okB (c.operand s op 32 (opLen op) (opFa op)) && okB (c.operand s op 54 (opLen op) (opFb op)) &&
      okB (c.operand s op 76 (opLen op) (opFd op)) && okB (c.operand s op 76 1 0))
/-- What a row of element-wise vectors or of a reduction asks for. -/
def RowMet (opcode sub : Nat) : Prop :=
  ∃ (op : OpWord) (s : State) (a b d e : Nat), Runs 0 op opcode (some sub) 0 s ∧ 1 ≤ opLen op ∧
    (⟨0, 0, false⟩ : Ctx).operand s op 32 (opLen op) (opFa op) = .ok a ∧ (⟨0, 0, false⟩ : Ctx).operand s op 54 (opLen op) (opFb op) = .ok b ∧
    (⟨0, 0, false⟩ : Ctx).operand s op 76 (opLen op) (opFd op) = .ok d ∧ (⟨0, 0, false⟩ : Ctx).operand s op 76 1 0 = .ok e
theorem rowMet_of_meets {opcode sub : Nat} (h : meets opcode sub = true) : RowMet opcode sub := by
  simp only [meets] at h
  obtain ⟨h1, h2⟩ := Bool.and_eq_true _ _ ▸ h
  simp only [Bool.and_eq_true, decide_eq_true_eq] at h2
  obtain ⟨⟨⟨⟨h3, h4⟩, h5⟩, h6⟩, h7⟩ := h2
  exact ⟨_, _, okVal _ h4, okVal _ h5, okVal _ h6, okVal _ h7, runs_of h1, h3, okVal_eq _ _, okVal_eq _ _, okVal_eq _ _, okVal_eq _ _⟩
def ropeOp (sub : Nat) : OpWord := opw 0x24 [(28, sub), (54, 1), (64, 64), (98, 64), (76, 0x200)]
def routeOp (sub : Nat) : OpWord := opw 0x38 [(28, sub), (54, 8), (98, 8), (76, 0x200)]
/-- `runs op` with a route list in pen 0. -/
def runsRoute (op : OpWord) : State := (runs op).modPen 0 (fun x => { x with route := some (slateAt 0 0x100000, 1) })
theorem read_reset_vec (r a : Nat) : (vecAt (runs (op3 0x21 3)) a 0 2 r).1 = [0, 0] := by
  have h : (runs (op3 0x21 3)).read (a + r * rowStride 0 2) (rowBytes 0 2) = List.replicate 8 0 := by
    unfold State.read
    rw [show (runs (op3 0x21 3)).mem = [] from rfl, show rowBytes 0 2 = 8 from rfl]
    simp [memGetN]
  unfold vecAt
  simp only [h]
  decide +kernel

def mmaW : OpWord := opw 0x10 [(16, 1), (20, 1), (98, 1), (108, 1), (32, 0), (54, 0x400), (76, 0x4000)]
def gatherW : OpWord := opw 0x50 [(98, 64), (54, 0), (76, 0x100)]
def copyW : OpWord := opw 0x51 [(98, 64), (32, 0), (76, 0x100)]
def logitsW : OpWord := opw 0x60 [(98, 4), (54, 0), (32, 0x100)]
def attnW : OpWord := opw 0x30 [(28, 0), (32, 0), (54, 0x100), (76, 0x200), (98, 0x300)]
/-- `runs attnW` with both pens at it, and a step of no row. -/
def attnS : State :=
  penOn [attnW] 1 ((runs attnW).modFold 0 (fun x => { x with step := some { step1 with rows := [] } }))

/-- A GATHER with its table's sheet in T2. -/
def gatherS : State := (runs gatherW).modFold 0 (fun x => { x with sheets := [(100, { Sheet.unbacked with tier := 2, refs := 1 })] })
def gatherAt (r : Nat) : Nat :=
  okVal (bindAddr gatherS 0 0 (opBits gatherW 61 54) 0) (by decide +kernel) + (((⟨0, 0, false⟩ : Ctx).rows gatherS)[r]?).elim 0 (·.token) * opLen gatherW
theorem gatherS_rows : ∀ r ∈ (⟨0, 0, false⟩ : Ctx).live gatherS, okB (gatherS.place 0 (gatherAt r) (opLen gatherW) 0) = true ∧
    ∀ i ∈ spanSheets gatherS 0 (gatherAt r) (opLen gatherW), (gatherS.fold 0).backed i = true := by decide +kernel

def layerW (j : Nat) : OpWord := opw 0x01 [(32, j)]
def endW : OpWord := opw 0x02 []
def notifyW : OpWord := opw 0x41 [(98, 4), (32, 0), (54, 0), (67, 2)]
def raccW : OpWord := opw 0x40 [(98, 4), (32, 0), (54, 0), (67, 2)]
def barW : OpWord := opw 0x42 [(62, 31), (70, 65535)]
/-- A layer that is streamed, with its group empty. -/
def streamS : State :=
  (runs (layerW 0)).modFold 0 (fun x => { x with streamed := true, depthUsed := 1, images := [(0, { image1 [layerW 0] with layers := [{ layer1 with streamTiles := 1 }], groupSlots := 1 })] })
def bar1 : BarWait := ⟨31, 65535, 0⟩
def penS (p : Pen) : State := { dev with pens := [(0, p)] }

/-- A NOTIFY to this pen's own slate, 2 slots of it pinned. -/
def notifyS : State :=
  ((runs notifyW).modPen 0 (fun x => { x with binding := [some (slateAt 0 0x10000)] })).modFold 0 (fun x => { x with pinned := 2 })
def loadS : State := (devI []).modFold 0 (fun x => { x with streamed := true, depthUsed := 1 })

/-- A packet of device 9 for device 7 in drove 9, of fold 0. -/
def pkt (op addr len : Nat) (l : List Byte) : Packet :=
  { ptype := 0, rev := 1, op := op, unordered := false, kindRecord := false, last := true, hops := 0, queue := 0, dst := 7, src := 9, issuer := 0, tag := 3
    drove := 0, epoch := 0, session := 0, addr := addr, oseq := 0, len := len, frag := 0, status := 0, oparg := 0, pmask := 0, payload := l }
/-- Device 7, member 0 of drove 9 with device 9, two sheets of fold 0 in T2. -/
def fabS : State :=
  withR [(rFabSelf, 2 ^ 31 + 7), (rFabFoldDrove 0, 2 ^ 32 + 9), (rFabFoldMember 0, 0 + 2 * 2 ^ 18 + 7 * 2 ^ 46)]
    (devF (fun x => { x with pinned := 2, members := [7, 9], sheets := [(0, { Sheet.unbacked with tier := 2, refs := 1 }), (1, { Sheet.unbacked with tier := 2, refs := 1 })] }))

def recY : Sess := sess1 (fun r => { r with lease := ⟨9, 0, 1⟩ })
def recS : State := withS recY fabS
def recP : Packet := { pkt fabOpWrite 504 8 [1, 2, 3, 4, 5, 6, 7, 8] with kindRecord := true, session := 1, epoch := 1 }
def recNew : Record := recordOf (patchB (recordBytes recY.homeRecord) recP.addr recP.payload)
def recT : State :=
  (taken recP recS).modSess recP.session (·.takeRecord { recNew with
    sessionId := recY.record.sessionId, lease := recY.record.lease, notReplayable := recNew.notReplayable || recY.record.notReplayable || decide (0 < recNew.txFirst) })
/-- A place in a cell, by a check that evaluates. -/
def isCell (n : Nat) : Except W16 Place → Bool
  | .ok (.cell p) => p == n
  | _ => false
theorem cell_of {e : Except W16 Place} {n : Nat} (h : isCell n e = true) : e = .ok (.cell n) := by
  unfold isCell at h; split at h
  · rw [eq_of_beq h]
  · exact absurd h (by decide)
def readP : Packet := { pkt fabOpRead 65472 64 [] with drove := 9 }
def faddP : Packet := { pkt fabOpFadd 65528 8 [] with drove := 9, oparg := 1 }
def casP (v : Nat) : Packet := { pkt fabOpCas 65528 16 (leBytes 8 v ++ leBytes 8 5) with drove := 9 }
def accP : Packet := { pkt fabOpAcc 0x380000000000 8 (zerosB 8) with drove := 9 }
/-- A step of device 9, the root, that reduces at pen 0 of this device. -/
def fabA : State := fabS.modFold 0 (fun x => { x with step := some step1 })
/-- A broadcast of the root that carries its control word alone. -/
def rootP : Packet := { pkt fabOpNotify 0 3 [0, 0, 0] with drove := 9 }
def rootS : State := memR fabS
def areadP : Packet := { pkt fabOpAread 0 64 (zerosB 64) with drove := 9, session := 1, epoch := 1 }

/-- A READ outstanding under tag 3 to device 9. -/
def msg1 : OutMsg :=
  { packet := { pkt fabOpRead 0 8 [] with dst := 9, src := 7, drove := 9 }, bad := [], purpose := .other, fold := some 0, desc := none, sent := true
    firstSent := 4000000, lastSent := 4000000, response := [] }
def outS (m : OutMsg) : State := { fabS with fab := { fabS.fab with outstanding := [(3, m)] } }

def watchS : State :=
  (withR [(rFabFoldMember 0, 1 + 2 * 2 ^ 18 + 9 * 2 ^ 46), (rFabRouteLocal 9, 2 ^ 31 + 17), (rFabPortCtrl 17, 1)] fabS).modPort 17 (fun x => { x with state := 2 })
def watchT : State := { watchS with fab := { watchS.fab with probed := setN watchS.fab.probed 9 watchS.now, heard := setN watchS.fab.heard 9 watchS.now } }
def outR (m : OutMsg) : State := { watchS with fab := { watchS.fab with outstanding := [(3, m)] } }
def train1 : PortTrain := { lanes := 0xF, rev := fabRev, minRev := fabMinRev, device := 9, port := 0, credits := [8, 8, 8, 8] }

/-- Port 17 up with a packet in queue 15, and with one that waits for that queue's room. -/
def egressS : State := fabS.modPort 17 (fun x => { x with state := 2, queues := [(15, [(pkt 1 0 0 [], 0)])], credits := [8, 8, 8, 8] })
def egressW : State := { egressS with fab := { egressS.fab with withheld := [⟨none, 17, { pkt 1 0 0 [] with queue := 15 }⟩] } }

/-- A cold start that finds nothing wrong. -/
def cold1 : BootInputs :=
  { strap := 0, comparatorHot := false, failures := [], durationUs := 180000, flashReadable := true, seed := some (List.replicate 32 7)
    factory := some ⟨1, BitVec.allOnes 64, 2 ^ 18 - 1, 255, 65535, 750, 0x12345678⟩
    stages := (List.range 7).map (fun k => ⟨some 1, 1, k, List.replicate 48 (BitVec.ofNat 8 k)⟩), firmware := ⟨1, 2, 3, 2, 2, 100, 64, 8, 3000⟩
    chipEnables := List.replicate 16 3, chipEnablesFenced := List.replicate 16 0, linkLanes := 0xFF, chain := [] }
/-- A sheet of fold 0 in tier `t`, and its migration. -/
def sheetS (t : Nat) (r : List (Nat × Nat)) (m : NMap Mig) : State :=
  devF (fun x => { x with sheets := [(5, { Sheet.unbacked with tier := t, refs := 1, len := 1024 })], requests := r, migs := m })
def mig1 (p t o : Nat) : Mig := { phase := p, target := t, targetPen := none, writes := 0, newLoc := 0, oldTier := o, oldLoc := 0, len := 1024 }

def scanS : State := { dev with sec := { dev.sec with challenge := List.replicate 6 0 } }
def tok1 : List Byte := [0x53, 0x4B, 0x39, 0x53, 0x43, 0x41, 0x4E, 0x01] ++ scanS.idkHash ++ zerosB 48 ++ zerosB 96

def moveS : State := sheetS 2 [] [(5, mig1 2 0 2)]
def moveV : State := someVal (readBack 0 5 moveS) (by decide +kernel)
def moveTo : Nat × State := someVal (chooseLoc 0 (mig1 2 0 2).target (mig1 2 0 2).targetPen moveV) (by decide +kernel)

def badS : State := { dev with regs := { dev.regs with shadow := regs [(rHbmScrub, 999)] } }

def wayS : State := { sheetS 1 [] [] with regs := { dev.regs with pend := regs [(rSysFoldPens 0, 3), (rSysFoldWays 0, 2), (rSysFoldCtrl 0, 1)] } }
def penRemS : State := { sheetS 0 [] [] with regs := { dev.regs with pend := regs [(rSysFoldPens 0, 2), (rSysFoldWays 0, 3), (rSysFoldCtrl 0, 1)] } }
def nsS (g : Namespace → Namespace) : State := devF (fun x => { x with ns := g { x.ns with state := nsNormal, mask := 1, units := 2, slots := 100 } })
def mapped : State := nsS (fun x => { x with map := [(0, 17)], slotsUsed := [0] })
def gc1 : GcCopy := ⟨0, 1, [(0, 17, 40), (1, 18, 41)], false⟩

def writeS : State := (nsS id).modFold 0 (fun x => { x with sheets := [(5, { Sheet.unbacked with tier := 2, refs := 1, len := 1024 })], migs := [(5, mig1 2 3 2)] })
theorem formLen_bounds (c h : Nat) (t : Option TileHead) (l : List Byte) : 1 ≤ formLen c h t l ∧ formLen c h t l ≤ 1025 := by
  unfold formLen; split <;> omega
theorem writeS_some (len : Nat) (h : 1 ≤ len) (k : len ≤ 1025) : (storeForm writeS 0 len (some 5)).isSome = true := by
  unfold storeForm slotLpns
  have hc : ceilDiv len 256 = 1 ∨ ceilDiv len 256 = 2 ∨ ceilDiv len 256 = 3 ∨ ceilDiv len 256 = 4 ∨ ceilDiv len 256 = 5 := by unfold ceilDiv; omega
  rcases hc with e | e | e | e | e <;> rw [e] <;> decide +kernel
theorem writeS_val (e : Sheet) (l : List Byte) : storeForm writeS 0 (writeS.lenIn 0 3 e l) (some 5) =
    some ((someVal (storeForm writeS 0 (writeS.lenIn 0 3 e l) (some 5)) (writeS_some _ (formLen_bounds _ _ _ _).1 (formLen_bounds _ _ _ _).2)).1,
      (someVal (storeForm writeS 0 (writeS.lenIn 0 3 e l) (some 5)) (writeS_some _ (formLen_bounds _ _ _ _).1 (formLen_bounds _ _ _ _).2)).2) :=
  someVal_eq _ _
def sb (m w : Nat) (r : Bool) : SuperBlock := ⟨m, 0, 0, [], r, w⟩

/-- A request for admission from device 9 to the root, as a write and as a notify. -/
def mailP (op : Nat) : Packet := { pkt op 0 16 (leBytes 8 1 ++ leBytes 8 1) with drove := 9, issuer := issSch, oparg := 2 ^ 63 + 1 }
def seatB : Seat := ⟨Record.zero, 0, false, false, zerosB 65536, zerosB 65536, [], none⟩

/-- A TURN_SUBMIT waiting in ring 0, whose client is 0. -/
def tallyS : State := withH 0x102000 (leBytes 1 opTurnSubmit) { dev with rings := [(0, { Ring.reset with state := 1, lastT := 1 })] }
/-- `runs (op3 0x20 k)` with 1 in operand A and 2 in operand B. -/
def vecS (k : Nat) : State :=
  ((runs (op3 0x20 k)).write (slateAt 0 0) [0, 0, 0x80, 0x3F, 0, 0, 0x80, 0x3F]).write (slateAt 0 0x4000) [0, 0, 0, 0x40, 0, 0, 0, 0x40]

/-! ### A location is found for each of SESSION_OPEN's sheets -/

theorem length_le_of_mem : ∀ (l u : List Nat), l.Nodup → (∀ a ∈ l, a ∈ u) → l.length ≤ u.length
  | [], _, _, _ => Nat.zero_le _
  | a :: l, u, hd, hm => by
    have ha : a ∈ u := hm a (by simp)
    have := length_le_of_mem l (u.erase a) (List.nodup_cons.1 hd).2 (fun b hb => by
      have hne : b ≠ a := fun e => (List.nodup_cons.1 hd).1 (e ▸ hb)
      exact (List.mem_erase_of_ne hne).2 (hm b (by simp [hb])))
    have h1 := List.length_erase_of_mem ha
    have h2 : 0 < u.length := List.length_pos_of_mem ha
    simp only [List.length_cons]; omega

theorem firstFrom_some (p : Nat → Bool) : ∀ fuel n, (∃ j, j < fuel ∧ p (n + j) = true) → ∃ k, firstFrom p fuel n = some k
  | 0, n, ⟨j, hj, _⟩ => absurd hj (Nat.not_lt_zero j)
  | fuel + 1, n, ⟨j, hj, hp⟩ => by
    unfold firstFrom
    by_cases h : p n = true
    · exact ⟨n, by simp [h]⟩
    · simp only [h]
      refine firstFrom_some p fuel (n + 1) ⟨j - 1, ?_, ?_⟩
      · rcases j with _ | j
        · exact absurd hp h
        · omega
      · rcases j with _ | j
        · exact absurd hp h
        · rw [← hp]; congr 1; omega

/-- The n-th location of pens 0 and 1. -/
def locN (k : Nat) : Nat := [0, 1, 2, 3, 4, 5, 6, 7].getD (k % 8) 0 + k / 8 * 256

theorem locN_val (k : Nat) : locN k = k % 8 + k / 8 * 256 := by
  have h : ∀ m, m < 8 → [0, 1, 2, 3, 4, 5, 6, 7].getD m 0 = m := by decide
  unfold locN
  rw [h _ (Nat.mod_lt _ (by decide))]

theorem free_loc (u : List Nat) (r : Nat) (hu : u.length < 262144) :
    ∃ k, firstFrom (fun k => !u.contains (locN (k % 262144))) (u.length + 1) r = some k := by
  apply firstFrom_some
  apply Classical.byContradiction
  intro hn
  have hin : ∀ j, j < u.length + 1 → locN ((r + j) % 262144) ∈ u := fun j hj => by
    apply Classical.byContradiction
    intro hc
    exact hn ⟨j, hj, by simp [hc]⟩
  have := length_le_of_mem ((List.range (u.length + 1)).map (fun j => locN ((r + j) % 262144))) u (by
    rw [List.nodup_iff_pairwise_ne, List.pairwise_map]
    refine (List.pairwise_lt_range (n := u.length + 1)).imp_of_mem ?_
    intro a b ha hb hab
    rw [List.mem_range] at ha hb
    simp only [locN_val]
    omega) (by
    intro a ha
    obtain ⟨j, hj, rfl⟩ := List.mem_map.1 ha
    exact hin j (List.mem_range.1 hj))
  simp only [List.length_map, List.length_range] at this
  omega

theorem choose_ok (s : State) (hp : (s.fold 0).penList = [0, 1]) (hu : ((s.fold 0).usedLocs 2).length < 262144) :
    ∃ l, chooseLoc 0 2 none s = some (l, s.draw.2) := by
  obtain ⟨k, hk⟩ := free_loc ((s.fold 0).usedLocs 2) (s.draw.1 % 262144) hu
  refine ⟨locN (k % 262144), ?_⟩
  have : chooseLoc 0 2 none s =
      (firstFrom (fun k => !((s.fold 0).usedLocs 2).contains (locN (k % 262144))) (((s.fold 0).usedLocs 2).length + 1) (s.draw.1 % 262144)).map
        (fun k => (locN (k % 262144), s.draw.2)) := by
    simp [chooseLoc, hp, locN]
  rw [this, hk]; rfl

/-- What a device asks for that finds a T2 location for any sheet of fold 0: pens 0 and 1, quota, no area, no threshold, nothing promised. -/
structure Plain (b : State) : Prop where
  pens : (b.fold 0).penList = [0, 1]
  migs : (b.fold 0).migs = []
  promised : (b.fold 0).promised = []
  quota : b.quota 0 2 = 9000
  thresh : b.act (rTierQuotaThresh 0) = 0
  rclArea : b.recallArea 0 = (0, 0)
  snap : b.snapArea 0 = (0, 0)
  window : b.windowSheets 0 = 1048576

/-- `b` with `sheets` in fold 0, its only fold, and `c` free values drawn. -/
def openAt (b : State) (sheets : NMap Sheet) (c : Nat) : State :=
  { b with freeCount := c, folds := [(0, { (b.fold 0) with sheets := sheets })] }
/-- A new sheet of `b`. -/
def openSheet (b : State) (kind l : Nat) : Sheet :=
  { tier := 2, keygen := b.keygen 0, snap := false, wet := false, migrating := false, comp := 0, shuf := 0, kind := kind, refs := 1, len := 1024, loc := l
    lastAccess := b.now, lastRead := (b.fold 0).stepNo }

theorem openAt_fold (b : State) (sh : NMap Sheet) (c : Nat) : (openAt b sh c).fold 0 = { (b.fold 0) with sheets := sh } := rfl
theorem openAt_use (b : State) (sh : NMap Sheet) (c : Nat) : ((openAt b sh c).fold 0).use 2 ≤ sh.length := by
  rw [openAt_fold]; exact List.length_filter_le _ _
theorem openAt_choose (b : State) (sh : NMap Sheet) (c : Nat) (hb : Plain b) (h4 : sh.length ≤ 100) :
    ∃ l, chooseLoc 0 2 none (openAt b sh c) = some (l, (openAt b sh c).draw.2) := by
  refine choose_ok _ hb.pens ?_
  rw [openAt_fold]
  simp only [Fold.usedLocs, hb.migs, List.filter_nil, List.map_nil, List.append_nil, List.length_map]
  exact Nat.lt_of_le_of_lt (List.length_filter_le _ _) (by omega)
theorem openAt_put (b : State) (sh : NMap Sheet) (c i : Nat) (e : Sheet) :
    putEntry 0 i e (openAt b sh c).draw.2 = openAt b (setN sh i e) (c + 1) := by
  simp [putEntry, State.draw, State.modFold, State.setFold, State.fold, openAt, setN, getND, getN]
theorem thresholds_none (a b : State) (hb : b.act (rTierQuotaThresh 0) = 0) : noteThresholds 0 a b = b := by
  simp [noteThresholds, hb, List.range_succ]
theorem openAt_place (b : State) (sh : NMap Sheet) (c i kind : Nat) (hb : Plain b) (h4 : sh.length ≤ 100) :
    ∃ l, placeSheet 0 i 2 kind none false false (openAt b sh c) = .ok (openAt b (setN sh i (openSheet b kind l)) (c + 1)) := by
  obtain ⟨l, hl⟩ := openAt_choose b sh c hb h4
  refine ⟨l, ?_⟩
  have hq : (openAt b sh c).quota 0 2 = 9000 := hb.quota
  have hq' : ¬ ((openAt b sh c).quota 0 2 ≤ ((openAt b sh c).fold 0).use 2) := by
    have := openAt_use b sh c
    rw [hq]; omega
  have ht : [0, 1, 2].filter (fun t => decide (2 ≤ t)) = [2] := by decide
  have h21 : (if (2 : Nat) = 1 then (none : Option Nat) else none) = none := by decide
  have hk : (openAt b sh c).keygen 0 = b.keygen 0 := rfl
  have hn : (openAt b sh c).now = b.now := rfl
  have hs : ((openAt b sh c).fold 0).stepNo = (b.fold 0).stepNo := rfl
  simp only [placeSheet, ht, h21, Bool.false_eq_true, if_false, List.filterMap_cons, List.filterMap_nil, hq', hl, Option.map_some, List.head?_cons,
    hk, hn, hs, openAt_put, if_true]
  exact congrArg Except.ok (thresholds_none _ _ hb.thresh)

theorem openAt_freeIndex (b : State) (sh : NMap Sheet) (c n : Nat) (hb : Plain b) (hn : n < 1000) (hl : sh.length = n)
    (hk : ∀ i, hasN sh i = decide (i < n)) : (openAt b sh c).freeIndex 0 = some n := by
  have h1 : (openAt b sh c).recallArea 0 = (0, 0) := hb.rclArea
  have h2 : (openAt b sh c).snapArea 0 = (0, 0) := hb.snap
  have h3 : (openAt b sh c).windowSheets 0 = 1048576 := hb.window
  have h4 : ((openAt b sh c).fold 0).promised = [] := hb.promised
  have h5 : (openAt b sh c).indexFree 0 = fun i => !hasN sh i := by
    funext i
    have : ((openAt b sh c).fold 0).backed i = hasN sh i := rfl
    simp [State.indexFree, h1, h2, h4, this, inArea]
  have ff : ∀ fuel m, m ≤ n → n < m + fuel → firstFrom (fun i => !hasN sh i) fuel m = some n := by
    intro fuel
    induction fuel with
    | zero => intro m a b; omega
    | succ fuel ih =>
      intro m a b
      unfold firstFrom
      by_cases e : m = n
      · subst e; simp [hk]
      · have : m < n := by omega
        simp only [hk, this, decide_true, Bool.not_true, Bool.false_eq_true, if_false]
        have := ih (m + 1) (by omega) (by omega)
        simpa [hk] using this
  have := ff (n + 1) 0 (by omega) (by omega)
  have hmin : min (n + 1) 1048576 = n + 1 := by omega
  have hlen : ((openAt b sh c).fold 0).sheets.length = n := hl
  simp only [State.freeIndex, h1, h2, h3, h4, h5, hlen, Nat.sub_self, Nat.add_zero, List.length_nil, hmin, this]
  simp; omega

theorem openAt_newSheet (b : State) (sh : NMap Sheet) (c n kind : Nat) (hb : Plain b) (hn : n < 100) (hl : sh.length = n)
    (hk : ∀ i, hasN sh i = decide (i < n)) :
    ∃ l, newSheet 0 2 kind none false false (openAt b sh c) = .ok (n, openAt b (setN sh n (openSheet b kind l)) (c + 1)) := by
  obtain ⟨l, h⟩ := openAt_place b sh c n kind hb (by omega)
  refine ⟨l, ?_⟩
  simp only [newSheet, openAt_freeIndex b sh c n hb (by omega) hl hk, h, andThen]

/-- A SESSION_OPEN of one transcript sheet, on a device without a quota threshold. -/
def openD1 : Desc := { dr (leBytes 6 0x300000110000 ++ [8, 0] ++ leBytes 6 0x300000104000 ++ leBytes 2 0 ++ leBytes 6 0x300000105000 ++ leBytes 2 64 ++ leBytes 4 0 ++ [2, 0, 0, 0] ++ leBytes 8 5 ++ leBytes 2 1) with tag := 8 }
def openS1 : State := withR [(rTierQuotaThresh 0, 0)] openS
def openB : State := beginDesc opSessionOpen openD1 openS1
theorem plain_openB : Plain openB := by constructor <;> decide +kernel
theorem openB_zero : openB = openAt openB [] 0 := by decide +kernel

/-- SESSION_OPEN finds a place for each of its four sheets, whichever locations TIER takes. -/
theorem openSheets_ok (block : List Byte) (hb : trieSize (parseParams block) = none) :
    ∃ r, openSheets 0 1 (image1 []) block (beginDesc opSessionOpen openD1 openS1) = .ok r := by
  show ∃ r, openSheets 0 1 (image1 []) block openB = .ok r
  rw [openB_zero]
  have p := plain_openB
  obtain ⟨l0, h0⟩ := openAt_place openB [] 0 0 4 p (by decide)
  have hr : (openAt openB [] 0).freeRun 0 1 = some 0 := by decide +kernel
  obtain ⟨l1, h1⟩ := openAt_newSheet openB [(0, openSheet openB 4 l0)] 1 1 0 p (by decide) rfl (fun
    | 0 => rfl
    | i + 1 => by simp [hasN, getN])
  obtain ⟨l2, h2⟩ := openAt_newSheet openB [(0, openSheet openB 4 l0), (1, openSheet openB 0 l1)] 2 2 0 p (by decide) rfl (fun
    | 0 => rfl
    | 1 => rfl
    | i + 2 => by simp [hasN, getN])
  obtain ⟨l3, h3⟩ := openAt_newSheet openB [(0, openSheet openB 4 l0), (1, openSheet openB 0 l1), (2, openSheet openB 0 l2)] 3 3 0 p (by decide) rfl (fun
    | 0 => rfl
    | 1 => rfl
    | 2 => rfl
    | i + 3 => by simp [hasN, getN])
  simp [setN] at h0 h1 h2 h3
  have hz : ceilDiv ([] : List Byte).length 65536 = 0 := by decide
  have hn : newRun 0 1 4 (openAt openB [] 0) = .ok (0, openAt openB [(0, openSheet openB 4 l0)] 1) := by
    simp [newRun, hr, h0, andThen, List.range_succ]
  simp only [openSheets, hn, andThen, freshImage, newSheets, newSheetsIn, h1, h2, h3, hb, Option.isSome_none, Bool.false_eq_true, if_false, hz]
  exact ⟨_, rfl⟩

/-- The block of `openD1`. -/
def openBlock : List Byte := okVal (openS1.hostRead 0 (descNum openD1 32 6) (descNum openD1 38 2)) (by decide +kernel)
theorem openBlock_trie : trieSize (parseParams openBlock) = none := by decide +kernel


/-! ### A container that registers, whatever the signature, the hash and the cipher are (07 R194 to R200) -/

/-- A container of one layer, no program and one tile descriptor, that of the tokeniser block. -/
def regC : List Byte :=
  [[0x53, 0x4B, 0x39, 0x49, 0x4D, 0x47, 0, 1], leBytes 2 1, leBytes 2 512, leBytes 4 0, leBytes 4 1, [1, 0, 0, 0], leBytes 8 704,
    leBytes 8 832, leBytes 4 1, zerosB 4, List.replicate 16 5, leBytes 8 512, leBytes 8 128, zerosB 64, leBytes 8 640, leBytes 8 16,
    leBytes 8 656, leBytes 8 48, zerosB 336, leBytes 2 1, [0, 0], leBytes 4 1, leBytes 4 128, leBytes 4 128, leBytes 4 1, leBytes 2 16,
    [1, 0, 0, 0, 0, 0], zerosB 36, leBytes 2 1, leBytes 2 1, [0, 0], leBytes 2 1, [1, 0, 0, 0], zerosB 12, leBytes 4 0x3F800000,
    leBytes 4 0x3F800000, leBytes 4 0x3F800000, zerosB 28, leBytes 4 (0x3FFFF + 3 * 2 ^ 24), leBytes 4 0, leBytes 4 1, leBytes 4 0,
    zerosB 48, zerosB 128, zerosB 80].flatten
/-- MODEL_REGISTER of it in slot 31 with T2 as its store, on a fold with both of its keys. -/
def regD : Desc := dr (leBytes 6 0x300000105000 ++ [0, 0] ++ leBytes 8 912 ++ [31, 2])
def regS : State :=
  withH 0x105000 regC (withR [(rTierQuotaThresh 0, 0)] (devF (fun x => { x with key := { x.key with
    imageKeys := [(List.replicate 16 5, [])], ownerKeys := [(List.replicate 16 5, [])] } })))
def regB : State := beginDesc opModelRegister regD regS
/-- Its registration, and device `b` with it as it runs. -/
def regG (img : Image) : Registration := { desc := regD, container := regC, image := img, begun := false, left := [], total := 0 }
def regRun (img : Image) (b : State) : State :=
  (b.modFold 0 (fun x => { x with registering := setN x.registering 31 (regG img) })).modFold 0
    (fun x => { x with registering := modN x.registering 31 (fun g => { g with begun := true }) })

theorem reads_regC (s : State) (d : Desc) (h : (match s.hostRead 0 (descNum d 16 6) (descNum d 24 8) with
    | .ok l => l == regC
    | .error _ => false) = true) : s.hostRead 0 (descNum d 16 6) (descNum d 24 8) = .ok regC := by
  split at h
  · next l e => rw [e, eq_of_beq h]
  · exact absurd h (by decide)
theorem regC_read : regS.hostRead 0 (descNum regD 16 6) (descNum regD 24 8) = .ok regC := reads_regC _ _ (by decide +kernel)
theorem sliceB_take (l : List Byte) (o n : Nat) (h : o + n ≤ l.length) : sliceB l o n = (l.drop o).take n := by
  apply List.ext_getElem
  · simp [sliceB]; omega
  · intro i h1 h2
    have : o + i < l.length := by simp [sliceB] at h1; omega
    simp [sliceB, this]
theorem regC_header : headerOk regC = true := by
  have h : sliceB regC 232 280 = zerosB 280 := by rw [sliceB_take _ _ _ (by decide +kernel)]; decide +kernel
  simp only [headerOk, h]
  decide +kernel
/-- Its layer table. -/
def regT : List Byte :=
  [leBytes 2 1, [0, 0], leBytes 4 1, leBytes 4 128, leBytes 4 128, leBytes 4 1, leBytes 2 16, [1, 0, 0, 0, 0, 0], zerosB 36, leBytes 2 1, leBytes 2 1,
    [0, 0], leBytes 2 1, [1, 0, 0, 0], zerosB 12, leBytes 4 0x3F800000, leBytes 4 0x3F800000, leBytes 4 0x3F800000, zerosB 28].flatten
theorem regC_table : section_ regC 0 = regT := by
  have o : secAt regC 0 = (512, 128) := by decide +kernel
  rw [section_, o, sliceB_take _ _ _ (by decide +kernel)]
  decide +kernel
theorem regC_limits : limitsOk regB 0 regC (imageOf regC 2) = true := by
  simp only [limitsOk, imageOf, regC_table]
  decide +kernel
theorem regC_keys : ((regB.fold 0).key.ownerKeys.find? (fun k => k.1 == keyIdOf regC)).map (·.2) = some [] ∧
    (regB.fold 0).key.imageKeys.any (fun k => k.1 == keyIdOf regC) = true ∧
    (regB.fold 0).key.imageKeys.find? (fun k => k.1 == keyIdOf regC) = some (List.replicate 16 5, []) := by decide +kernel
theorem regC_room : ¬ (regB.room 0 2 < shareCount (ownShare regB 0 (imageOf regC 2)) ∨
    regB.room 0 2 < shareCount (understudyShare regB 0 (imageOf regC 2)) + (if 2 = 2 then shareCount (ownShare regB 0 (imageOf regC 2)) else 0)) := by
  decide +kernel
/-- Its checks pass where the owner's key has the hash that it names and the signature is good. -/
theorem regC_checks (h1 : Config.sha384 [] = sliceB regC 176 48)
    (h2 : Config.ecdsaOk [] (regC.take (sigOffset regC)) (sliceB regC (sigOffset regC) 96) = true) :
    registerChecks 0 2 regC regB = .ok (imageOf regC 2, false, regB) := by
  have v : leAt regC 8 2 = 1 := by decide +kernel
  have r := regC_room
  simp only [registerChecks, regC_header, v, regC_keys.1, regC_keys.2.1, h1, h2, regC_limits]
  simp
  simp at r
  omega

theorem regRun_plain (img : Image) (b : State) (h : Plain b) (hr : (b.fold 0).registering = []) : Plain (regRun img b) := by
  have hf : (regRun img b).fold 0 = { b.fold 0 with registering := [(31, { regG img with begun := true })] } := by
    simp [regRun, hr, setN, modN]
  refine ⟨?_, ?_, ?_, ?_, h.thresh, h.rclArea, h.snap, h.window⟩
  · rw [hf]; exact h.pens
  · rw [hf]; exact h.migs
  · rw [hf]; rfl
  · have := h.quota
    simp only [State.quota, hf] at this ⊢
    exact this
theorem regRun_zero (img : Image) (b : State) (x : Fold) (h1 : b.freeCount = 0) (h2 : b.folds = [(0, x)]) (h3 : x.sheets = []) :
    regRun img b = openAt (regRun img b) [] 0 := by
  cases b; cases x
  simp only at h1 h2 h3
  subst h1 h2 h3
  rfl
theorem regRun_shares (g img : Image) (b : State) :
    ownShare (regRun g b) 0 img = ownShare b 0 img ∧ understudyShare (regRun g b) 0 img = understudyShare b 0 img := ⟨rfl, rfl⟩
theorem regB_plain : Plain regB ∧ (regB.fold 0).registering = [] := ⟨by constructor <;> decide +kernel, by decide +kernel⟩
theorem regB_zero : regB.freeCount = 0 ∧ regB.folds = [(0, regB.fold 0)] ∧ (regB.fold 0).sheets = [] := by decide +kernel

/-- A weight sheet of other data finds its place, whichever location TIER takes. -/
theorem weight_ok (b : State) (h : Plain b) (l : List (Option TileHead × List Byte)) (hl : l.map (·.1) = [none]) :
    ∃ r, weightSheets 0 l (openAt b [] 0) = .ok r := by
  obtain ⟨c, rfl⟩ : ∃ c, l = [(none, c)] := by
    rcases l with _ | ⟨⟨a, c⟩, _ | ⟨q, t⟩⟩
    · simp at hl
    · exact ⟨c, by simpa using hl⟩
    · simp at hl
  obtain ⟨loc, hn⟩ := openAt_newSheet b [] 0 0 2 h (by decide) rfl (fun i => by simp [hasN, getN])
  simp only [weightSheets, weightT2, hn, andThen]
  exact ⟨_, rfl⟩
theorem regC_heads : (shareHeads (imageOf regC 2) (ownShare regB 0 (imageOf regC 2)) 31 0 = [none]) ∧
    (ownShare regB 0 (imageOf regC 2)).length = 1 ∧ understudyShare regB 0 (imageOf regC 2) = [] := by decide +kernel
theorem regC_weights (payload : List Byte) :
    ∃ own, weightSheets 0 ((shareHeads (imageOf regC 2) (ownShare (regRun (imageOf regC 2) regB) 0 (imageOf regC 2)) 31 0).zip
      (shareContents (ownShare (regRun (imageOf regC 2) regB) 0 (imageOf regC 2)) payload)) (regRun (imageOf regC 2) regB) = .ok own := by
  have e := (regRun_shares (imageOf regC 2) (imageOf regC 2) regB).1
  have hc : (shareContents (ownShare regB 0 (imageOf regC 2)) payload).length = 1 := by
    have : ∀ p, (shareContents (ownShare regB 0 (imageOf regC 2)) p).length = (shareContents (ownShare regB 0 (imageOf regC 2)) []).length := fun p => by
      simp [shareContents, tileSheets, List.length_flatMap]
    rw [this]; decide +kernel
  rw [e]
  have hp := regRun_plain (imageOf regC 2) regB regB_plain.1 regB_plain.2
  have hz := regRun_zero (imageOf regC 2) regB _ regB_zero.1 regB_zero.2.1 regB_zero.2.2
  rw [hz]
  refine weight_ok _ hp _ ?_
  rw [List.map_fst_zip (by rw [hc, regC_heads.1]; decide), regC_heads.1]

/-- The same container for T3, while the namespace rebuilds. -/
def regD3 : Desc := dr (leBytes 6 0x300000105000 ++ [0, 0] ++ leBytes 8 912 ++ [31, 3])
def regS3 : State := regS.modFold 0 (fun x => { x with ns := { x.ns with state := nsRebuilding, slots := 100 } })
def regB3 : State := beginDesc opModelRegister regD3 regS3
theorem regC_limits3 : limitsOk regB3 0 regC (imageOf regC 3) = true := by
  simp only [limitsOk, imageOf, regC_table]
  decide +kernel
theorem regC_facts3 : ((regB3.fold 0).key.ownerKeys.find? (fun k => k.1 == keyIdOf regC)).map (·.2) = some [] ∧
    (regB3.fold 0).key.imageKeys.any (fun k => k.1 == keyIdOf regC) = true ∧ (regB3.fold 0).ns.state = nsRebuilding ∧
    ¬ (regB3.room 0 3 < shareCount (ownShare regB3 0 (imageOf regC 3)) ∨
      regB3.room 0 2 < shareCount (understudyShare regB3 0 (imageOf regC 3))) := by decide +kernel
theorem regC_checks3 (h1 : Config.sha384 [] = sliceB regC 176 48)
    (h2 : Config.ecdsaOk [] (regC.take (sigOffset regC)) (sliceB regC (sigOffset regC) 96) = true) :
    registerChecks 0 3 regC regB3 = .ok (imageOf regC 3, true, regB3) := by
  have v : leAt regC 8 2 = 1 := by decide +kernel
  have r := regC_facts3.2.2.2
  simp only [registerChecks, regC_header, v, regC_facts3.1, regC_facts3.2.1, regC_facts3.2.2.1, h1, h2, regC_limits3]
  simp [nsRebuilding, nsReadOnly, nsForming, nsReleasing]
  simp at r
  omega
theorem regC_read3 : regS3.hostRead 0 (descNum regD3 16 6) (descNum regD3 24 8) = .ok regC := reads_regC _ _ (by decide +kernel)

/-! ### Well-formedness: each check refuses a term that breaks it -/

theorem test_wf_ring : (Instr.sessionOpen ⟨4096, 0, 0, 0, 0, List.replicate 48 0⟩).wellFormed = false := by decide +kernel
theorem test_wf_body : (Instr.sessionOpen ⟨4095, 0, 0, 0, 0, List.replicate 47 0⟩).wellFormed = false := by decide +kernel
theorem test_wf_descriptor : (Instr.sessionOpen ⟨4095, 0, 0, 0, 0, List.replicate 48 0⟩).wellFormed = true := by decide +kernel
theorem test_wf_layer : (Instr.reviveLayerReport 0 256).wellFormed = false := by decide +kernel
theorem test_wf_fold : (Instr.foldForm 64).wellFormed = false := by decide +kernel
theorem test_wf_pen : (Instr.opEnd 64 0).wellFormed = false := by decide +kernel
theorem test_wf_port : (Instr.portDown 18).wellFormed = false := by decide +kernel
theorem test_wf_queue : (Instr.eqHeadPoll 256).wellFormed = false := by decide +kernel
theorem test_wf_ring_row : (Instr.ringEnable 4096).wellFormed = false := by decide +kernel
theorem test_wf_requester : (Instr.tallyDataRead 64).wellFormed = false := by decide +kernel
theorem test_wf_access_size : (Instr.registerWrite 0x7F 0 9 0).wellFormed = false := by decide +kernel
theorem test_wf_access_offset : (Instr.registerWrite 0x7F 0x2000000 8 0).wellFormed = false := by decide +kernel
theorem test_wf_commit_block : (Instr.commitGo 21).wellFormed = false := by decide +kernel
theorem test_wf_ladder_block : (Instr.ladderWake 106).wellFormed = false := by decide +kernel
theorem test_wf_sensor : (Instr.thermalTrip 80).wellFormed = false := by decide +kernel
theorem test_wf_cpu : (Instr.watchdogExpiry 8).wellFormed = false := by decide +kernel
theorem test_wf_pll : (Instr.pllLockLoss 21).wellFormed = false := by decide +kernel
theorem test_wf_stack : (Instr.hbmStackFailure 8).wellFormed = false := by decide +kernel
theorem test_wf_device : (Instr.watchProbe (2 ^ 18)).wellFormed = false := by decide +kernel
theorem test_wf_sheet : (Instr.migrationStart 0 (2 ^ 30)).wellFormed = false := by decide +kernel
theorem test_wf_superblock : (Instr.nandEraseFail 0 (2 ^ 16) 0).wellFormed = false := by decide +kernel
theorem test_wf_unit : (Instr.nandProgramFail 0 (2 ^ 16)).wellFormed = false := by decide +kernel
theorem test_wf_page : (Instr.flashRead 0 (2 ^ 40) []).wellFormed = false := by decide +kernel
theorem test_wf_retry : (Instr.flashRead 0 0 [.retry 16]).wellFormed = false := by decide +kernel
theorem test_wf_channel : (Instr.hbmScrubPass [⟨256, 0, [], [], [], false⟩]).wellFormed = false := by decide +kernel
theorem test_wf_member : (Instr.joinReport 0 (2 ^ 18) 0).wellFormed = false := by decide +kernel
theorem test_wf_digest : (Instr.manifestBuild 0 [⟨0, 0, 0, [], 0⟩]).wellFormed = false := by decide +kernel
theorem test_wf_proposals : (Instr.verificationCommit 0 [⟨0, 9, 0, [], none, 0, false⟩]).wellFormed = false := by decide +kernel
theorem test_wf_accepted : (Instr.verificationCommit 0 [⟨0, 1, 2, [], none, 0, false⟩]).wellFormed = false := by decide +kernel
theorem test_wf_train : (Instr.portTraining 0 ⟨0xF, 16, 0, 0, 0, [0, 0, 0, 0]⟩).wellFormed = false := by decide +kernel
theorem test_wf_sensors : (Instr.sensorSample (List.replicate 81 0) []).wellFormed = false := by decide +kernel
theorem test_wf_hists : (Instr.tlmHistClear 128).wellFormed = false := by decide +kernel
theorem test_wf_marks : (Instr.tlmHwmClear (2 ^ 19)).wellFormed = false := by decide +kernel
theorem test_wf_frame : (Instr.i3cPrivateWrite (List.replicate 256 0)).wellFormed = false := by decide +kernel
theorem test_wf_i3c : (Instr.i3cEntdaa 128).wellFormed = false := by decide +kernel
theorem test_wf_strap : (Instr.coldReset { cold1 with strap := 64 }).wellFormed = false := by decide +kernel
theorem test_wf_chip_enables : (Instr.coldReset { cold1 with chipEnables := [] }).wellFormed = false := by decide +kernel
theorem test_wf_self_test_unit : (Instr.coldReset { cold1 with failures := [⟨8, 8⟩] }).wellFormed = false := by decide +kernel
theorem test_wf_cold_reset : (Instr.coldReset cold1).wellFormed = true := by decide +kernel
theorem test_wf_packet : (Instr.fabRead { pkt 1 (2 ^ 46) 0 [] with drove := 9 }).wellFormed = false := by decide +kernel

/-! ### Small tests: one step each, the expected value from the rule named -/

/-- What one command answers, where it answers a next state. -/
def after (c : Instr) (s : State) : State := match exec c s with
  | .next t => t
  | _ => s
/-- The status of the newest record of queue 0. -/
def status0 (s : State) : Nat := memNum s.hostMem (0x100000 + ((s.eq 0).producer.toNat - 1) % 16 * 32 + 2) 2

-- 03 R67, R68: T more than N past the last T puts the ring into ERROR; from another requester it is counted and has no effect.
theorem test_doorbell_beyond_ring : ((after (.sqTailDoorbell 0 0 0 4 17) dev).ring 0).state = 2 := by decide +kernel
theorem test_doorbell_other_fold : (after (.sqTailDoorbell 0 5 0 4 1) dev).act (rRingDbRejected 0) = 1 := by decide +kernel
-- 03 R70: a reserved FLAGS bit is answered ST_BAD_DESCRIPTOR, a management opcode on a fold's ring ST_NOT_OWNER.
theorem test_flags_bad : status0 (after (.sessionClose { ds [] with flags := 4 }) turnS) = stBadDescriptor.toNat := by decide +kernel
theorem test_management_opcode_on_fold_ring : status0 (after (.roleSet (dr [])) dev) = stNotOwner.toNat := by decide +kernel
-- 04 R111: an EPOCH that is not the lease's is answered ST_STALE_EPOCH; the session stays.
theorem test_stale_epoch : status0 (after (.sessionClose { ds [] with epoch := 2 }) turnS) = stStaleEpoch.toNat := by decide +kernel
theorem test_close : (after (.sessionClose (ds [])) turnS).sess 1 = none := by decide +kernel
-- 05 R143, R146: a counter of 24 bits wraps.
theorem test_tally_wraps : (after (.descriptorFetch 0) { tallyS with tally := [(0, 0xFFFFFF)] }).tallyOf 0 = 0 := by decide +kernel
-- 06 R171: 1 + 2 = 3, and the larger of 1 and 2, element by element in FP32.
theorem test_vew_add : (after (.vewAdd 0 (op3 0x20 0)) (vecS 0)).read (slateAt 0 0x8000) 8 = [0, 0, 0x40, 0x40, 0, 0, 0x40, 0x40] := by decide +kernel
theorem test_vew_subtract : (after (.vewSubtract 0 (op3 0x20 1)) (vecS 1)).read (slateAt 0 0x8000) 4 = [0, 0, 0x80, 0xBF] := by decide +kernel
theorem test_vew_maximum : (after (.vewMaximum 0 (op3 0x20 3)) (vecS 3)).read (slateAt 0 0x8000) 4 = [0, 0, 0, 0x40] := by decide +kernel
-- 06 R163: END ends the row pass.
theorem test_end : ((after (.opEnd 0 endW) (runs endW)).pen 0).pass = 1 := by decide +kernel
-- 13 R344: FADD adds OPARG to 8 bytes; CAS that does not compare changes nothing.
theorem test_fadd : (after (.fabFadd faddP) fabS).num 65528 8 = 1 := by decide +kernel
theorem test_cas_swaps : (after (.fabCas (casP 0)) fabS).num 65528 8 = 5 := by decide +kernel
theorem test_cas_keeps : (after (.fabCas (casP 1)) fabS).num 65528 8 = 0 := by decide +kernel
-- 17 R440: duty falls in steps and is halved at once on an undervoltage.
theorem test_undervoltage : (after (.coreUndervoltage 700) { dev with power := { dev.power with coreTarget := 750 } }).power.duty = 4 := by decide +kernel
-- 16 Table 16-5, 18 R457: codes 0x5 and 0xF.
theorem test_cold_reset : (after (.coldReset cold1) State.reset).boot.status = 5 := by decide +kernel
theorem test_watchdog : (after (.watchdogExpiry 7) dev).boot.status = 15 := by decide +kernel
-- 20 R496: a pulse the board must not produce.
theorem test_pulse : exec (.warmReset 20) dev = .fault .boardPulse := by rfl
-- 19 R473: a commit of a PERIOD below 1,000 is refused and changes nothing.
theorem test_commit_refused : ((after (.commitGo 7) badS).commitOf 7).state = 4 := by decide +kernel
-- 19 R469: an access of a requester other than the management path is rejected and counted.
theorem test_other_requester : (after (.registerWrite 5 rTallySel 8 3) dev).act rLnkReqRejected = 1 := by decide +kernel
theorem test_tally_select : (after (.registerWrite 0x7F rTallySel 8 31) dev).act rTallySel = 31 := by decide +kernel

/-! ### The statements have states that meet their hypotheses -/

/-- States and operands that meet the hypotheses of `StepPerformsTheFrontCommand`, clause by clause. -/
theorem witness_StepPerformsTheFrontCommand :
    ∃ (s : State), s.pending = [] :=
  ⟨dev, by decide +kernel⟩

/-- States and operands that meet the hypotheses of `FinalCodeHoldsUntilColdReset`, clause by clause. -/
theorem witness_FinalCodeHoldsUntilColdReset :
    ∃ (s : State) (t : State), FinalCode s ∧ (∀ c ∈ s.pending.head?, ¬ ColdReset c) ∧ step s = .next t :=
  ⟨{ dev with pending := [.parkAfterCheck], boot := { dev.boot with status := 15, faultN := false }, link := ⟨false, false, 0, 0, true, none, 0, [], none, ⟨0, 0⟩⟩ }, { dev with boot := { dev.boot with status := 15, faultN := false }, link := ⟨false, false, 0, 0, true, none, 0, [], none, ⟨0, 0⟩⟩ }, by refine ⟨?_, ?_, ?_, ?_, fun p => rfl⟩ <;> decide +kernel, fun c hc => by simp only [List.head?_cons, Option.mem_def, Option.some.injEq] at hc; subst hc; exact id, by rfl⟩

/-- States and operands that meet the hypotheses of `FinalCodeStepsComplete`, clause by clause. -/
theorem witness_FinalCodeStepsComplete :
    ∃ (s : State), FinalCode s ∧ (∀ c ∈ s.pending.head?, ¬ ColdReset c) :=
  ⟨{ dev with pending := [.parkAfterCheck], boot := { dev.boot with status := 15, faultN := false }, link := ⟨false, false, 0, 0, true, none, 0, [], none, ⟨0, 0⟩⟩ }, by refine ⟨?_, ?_, ?_, ?_, fun p => rfl⟩ <;> decide +kernel, fun c hc => by simp only [List.head?_cons, Option.mem_def, Option.some.injEq] at hc; subst hc; exact id⟩

/-- States and operands that meet the hypotheses of `SessionRecordBytesRoundTrip`, clause by clause. -/
theorem witness_SessionRecordBytesRoundTrip :
    ∃ (r : Record), r.inRange = true :=
  ⟨{ Record.zero with sessionId := BitVec.allOnes 64, lease := ⟨2 ^ 18 - 1, 3, 2 ^ 32 - 1⟩, sessionRing := 4095, carry := [1, 2, 3] }, by decide +kernel⟩

/-- States and operands that meet the hypotheses of `CompletionWritesOneRecord`, clause by clause. -/
theorem witness_CompletionWritesOneRecord :
    ∃ (d : Desc) (s : State) (q : Nat) (p : Nat), q = s.ringQueue d.ring ∧ s.boot.status ≠ 15 ∧ s.eqOn q = true ∧ (s.eq q).backlog = [] ∧ s.eqFull q = false ∧ (s.ring d.ring).fence = none ∧ s.hostPhys (s.eqOwner q) (s.act (rRingEqBase q) + (s.eq q).producer.toNat % s.eqSize q * 32) 32 0 = .ok p :=
  ⟨dr [], dev, 0, okVal ((dev).hostPhys ((dev).eqOwner (0)) ((dev).act (rRingEqBase (0)) + ((dev).eq (0)).producer.toNat % (dev).eqSize (0) * 32) 32 0) (by decide +kernel), by decide +kernel, by decide +kernel, by decide +kernel, by decide +kernel, by decide +kernel, by decide +kernel, okVal_eq _ _⟩

/-- States and operands that meet the hypotheses of `SessionOpenCreatesASession`, clause by clause. -/
theorem witness_SessionOpenCreatesASession :
    ∃ (d : Desc) (s : State) (f : Nat) (tails : Nat) (serial : Nat) (img : Image) (block : List Byte) (r : (Nat × Nat × Nat × Nat) × State), Admitted opSessionOpen false d s ∧ bodyReserved d [(16, 22), (24, 29), (32, 46), (48, 57)] = true ∧ descByte d 46 < 2 ∧ f = s.ringOwner d.ring ∧ (tails = (if descNum d 56 2 = 0 then 16 else descNum d 56 2)) ∧ tails ≤ 256 ∧ s.parkTierOk f (descByte d 44) = true ∧ streamBlock d f s = stOk ∧ descByte d 45 < 32 ∧ s.image f (descByte d 45) = some img ∧ s.hostRead f (descNum d 32 6) (descNum d 38 2) = .ok block ∧ paramsOk img.vocab block (descNum d 38 2) = true ∧ s.dirUse f < s.act (rSessDirRecords f) ∧ serial = s.nextSerial f ∧ serial ≤ 0xFFFFFFFFFF ∧ openSheets f tails img block (beginDesc opSessionOpen d s) = .ok r :=
  (openSheets_ok openBlock openBlock_trie).elim fun r h15 => ⟨openD1, openS1, 0, 1, 0, image1 [], openBlock, r, by unfold Admitted; decide +kernel, by decide +kernel, by decide +kernel, by decide +kernel, by decide +kernel, by decide +kernel, by decide +kernel, by decide +kernel, by decide +kernel, by decide +kernel, okVal_eq _ _, by decide +kernel, by decide +kernel, by decide +kernel, by decide +kernel, h15⟩

/-- States and operands that meet the hypotheses of `SessionCloseAndTurnCancel`, clause by clause. -/
theorem witness_SessionCloseAndTurnCancel :
    (∃ (d : Desc) (y : Sess) (s : State), Admitted opSessionClose true d s ∧ bodyReserved d [] = true ∧ Leased d y s ∧ y.record.state ≠ stateStranded ∧ y.record.state ≠ stateMoving ∧ y.move = none ∧ y.closing = none ∧ y.park = none ∧ y.turn = none ∧ y.endings = [] ∧ y.revive = none) ∧
    (∃ (d : Desc) (y : Sess) (s : State), Admitted opTurnCancel true d s ∧ bodyReserved d [] = true ∧ Leased d y s ∧ y.park = none ∧ y.move = none ∧ y.record.state ≠ stateMoving) :=
  ⟨(⟨ds [], sess1 id, withS (sess1 id) dev, by unfold Admitted; decide +kernel, by decide +kernel, by unfold Leased; decide +kernel, by decide +kernel, by decide +kernel, by decide +kernel, by decide +kernel, by decide +kernel, by decide +kernel, by decide +kernel, by decide +kernel⟩),
   (⟨ds [], sess1 (fun r => { r with state := stateWaiting }), withS (sess1 (fun r => { r with state := stateWaiting })) dev, by unfold Admitted; decide +kernel, by decide +kernel, by unfold Leased; decide +kernel, by decide +kernel, by decide +kernel, by decide +kernel⟩)⟩

/-- States and operands that meet the hypotheses of `TurnsAreAccepted`, clause by clause. -/
theorem witness_TurnsAreAccepted :
    (∃ (op : Nat) (row : Desc → Instr) (src : Nat) (d : Desc) (y : Sess) (s : State) (s₁ : State) (text : List Byte) (e : Encoded), ((op, row, src) = (opTurnSubmit, .turnSubmit, 0) ∨ (op, row, src) = (opToolResult, .toolResult, 1)) ∧ Admitted op true d s ∧ turnReserved d = true ∧ Leased d y s ∧ y.park = none ∧ Resting y ∧ y.turn = none ∧ y.record.imagePoisoned = false ∧ (y.rest = (if op = opToolResult then stateWaiting else stateOpen)) ∧ descNum d 24 4 ≤ 16777216 ∧ descByte d 40 < 64 ∧ ((s.fold y.fold).role = 1 → bitsOf (descNum d 36 4) 17 0 ≠ 0x3FFFF) ∧ (s.fold y.fold).active = some y.record.imageSlot ∧ (s.fold y.fold).faulted = false ∧ s.hostRead y.fold (descNum d 16 6) (descNum d 24 4) = .ok text ∧ e = encodeText (beginDesc op d s) y.fold (s.params y.record.paramSheet).escapes (bitOf (descByte d 34) 0) (y.record.carry ++ text) ∧ ((s.params y.record.paramSheet).strict = true → e.replaced = 0) ∧ s₁ = (cacheUse y.fold (beginDesc op d s)).count (rTokInputReplaced y.fold) e.replaced ∧ y.record.context + e.tokens.length ≤ s₁.act (rInkCtxMax y.fold) ∧ (y.record.context + e.tokens.length = 0 → bitOf (descByte d 34) 0 = true ∨ bitOf (descByte d 34) 2 = true) ∧ s.isRoot y.fold = true ∧ (∃ s₂ s₃, appendTx d.session (.record d.session) (e.tokens.map (fun t => txWord t src (op == opToolResult || bitOf (descByte d 34) 1) y.record.textOffset)) s₁ = .ok s₂ ∧
      requestAdmission y.fold d.session y.record.latencyCritical d.tag op (beginTurn op d y e s₂) = .ok s₃)) ∧
    (∃ (op : Nat) (row : Desc → Instr) (src : Nat) (d : Desc) (y : Sess) (s : State) (s₁ : State) (text : List Byte) (e : Encoded), ((op, row, src) = (opTurnSubmit, .turnSubmit, 0) ∨ (op, row, src) = (opToolResult, .toolResult, 1)) ∧ Admitted op true d s ∧ turnReserved d = true ∧ Leased d y s ∧ y.park = none ∧ Resting y ∧ y.turn = none ∧ y.record.imagePoisoned = false ∧ (y.rest = (if op = opToolResult then stateWaiting else stateOpen)) ∧ descNum d 24 4 ≤ 16777216 ∧ descByte d 40 < 64 ∧ ((s.fold y.fold).role = 1 → bitsOf (descNum d 36 4) 17 0 ≠ 0x3FFFF) ∧ (s.fold y.fold).active = some y.record.imageSlot ∧ (s.fold y.fold).faulted = false ∧ s.hostRead y.fold (descNum d 16 6) (descNum d 24 4) = .ok text ∧ e = encodeText (beginDesc op d s) y.fold (s.params y.record.paramSheet).escapes (bitOf (descByte d 34) 0) (y.record.carry ++ text) ∧ ((s.params y.record.paramSheet).strict = true → e.replaced = 0) ∧ s₁ = (cacheUse y.fold (beginDesc op d s)).count (rTokInputReplaced y.fold) e.replaced ∧ y.record.context + e.tokens.length ≤ s₁.act (rInkCtxMax y.fold) ∧ (y.record.context + e.tokens.length = 0 → bitOf (descByte d 34) 0 = true ∨ bitOf (descByte d 34) 2 = true) ∧ s.isRoot y.fold = true ∧ (∃ s₂ s₃, appendTx d.session (.record d.session) (e.tokens.map (fun t => txWord t src (op == opToolResult || bitOf (descByte d 34) 1) y.record.textOffset)) s₁ = .ok s₂ ∧
      requestAdmission y.fold d.session y.record.latencyCritical d.tag op (beginTurn op d y e s₂) = .ok s₃)) ∧
    (∃ (op : Nat) (row : Desc → Instr) (src : Nat) (d : Desc) (y : Sess) (s : State) (s₁ : State) (text : List Byte) (e : Encoded), ((op, row, src) = (opTurnSubmit, .turnSubmit, 0) ∨ (op, row, src) = (opToolResult, .toolResult, 1)) ∧ Admitted op true d s ∧ turnReserved d = true ∧ Leased d y s ∧ y.park = none ∧ Resting y ∧ y.turn = none ∧ y.record.imagePoisoned = false ∧ (y.rest = (if op = opToolResult then stateWaiting else stateOpen)) ∧ descNum d 24 4 ≤ 16777216 ∧ descByte d 40 < 64 ∧ ((s.fold y.fold).role = 1 → bitsOf (descNum d 36 4) 17 0 ≠ 0x3FFFF) ∧ (s.fold y.fold).active = some y.record.imageSlot ∧ (s.fold y.fold).faulted = false ∧ s.hostRead y.fold (descNum d 16 6) (descNum d 24 4) = .ok text ∧ e = encodeText (beginDesc op d s) y.fold (s.params y.record.paramSheet).escapes (bitOf (descByte d 34) 0) (y.record.carry ++ text) ∧ ((s.params y.record.paramSheet).strict = true → e.replaced = 0) ∧ s₁ = (cacheUse y.fold (beginDesc op d s)).count (rTokInputReplaced y.fold) e.replaced ∧ y.record.context + e.tokens.length ≤ s₁.act (rInkCtxMax y.fold) ∧ (y.record.context + e.tokens.length = 0 → bitOf (descByte d 34) 0 = true ∨ bitOf (descByte d 34) 2 = true) ∧ s.isRoot y.fold = false ∧ (∃ t, askAdmission y.fold d.session y.record.latencyCritical (some (op, d)) (beginDesc op d s) = .ok t)) :=
  ⟨(⟨opTurnSubmit, .turnSubmit, 0, turnD, sess1 id, turnS, (cacheUse (sess1 id).fold (beginDesc (opTurnSubmit) (turnD) (turnS))).count (rTokInputReplaced (sess1 id).fold) (encodeText (beginDesc (opTurnSubmit) (turnD) (turnS)) (sess1 id).fold ((turnS).params (sess1 id).record.paramSheet).escapes (bitOf (descByte (turnD) 34) 0) ((sess1 id).record.carry ++ (okVal ((turnS).hostRead (sess1 id).fold (descNum (turnD) 16 6) (descNum (turnD) 24 4)) (by decide +kernel)))).replaced, okVal ((turnS).hostRead (sess1 id).fold (descNum (turnD) 16 6) (descNum (turnD) 24 4)) (by decide +kernel), encodeText (beginDesc (opTurnSubmit) (turnD) (turnS)) (sess1 id).fold ((turnS).params (sess1 id).record.paramSheet).escapes (bitOf (descByte (turnD) 34) 0) ((sess1 id).record.carry ++ (okVal ((turnS).hostRead (sess1 id).fold (descNum (turnD) 16 6) (descNum (turnD) 24 4)) (by decide +kernel))), Or.inl rfl, by unfold Admitted; decide +kernel, by decide +kernel, by unfold Leased; decide +kernel, by decide +kernel, by unfold Resting; decide +kernel, by decide +kernel, by decide +kernel, by decide +kernel, by decide +kernel, by decide +kernel, by decide +kernel, by decide +kernel, by decide +kernel, okVal_eq _ _, rfl, by decide +kernel, rfl, by decide +kernel, by decide +kernel, by decide +kernel, ⟨_, _, okVal_eq _ (by decide +kernel), okVal_eq _ (by decide +kernel)⟩⟩),
   (⟨opToolResult, .toolResult, 1, turnD, sess1 (fun r => { r with state := stateWaiting }), turnS2, (cacheUse (sess1 (fun r => { r with state := stateWaiting })).fold (beginDesc (opToolResult) (turnD) (turnS2))).count (rTokInputReplaced (sess1 (fun r => { r with state := stateWaiting })).fold) (encodeText (beginDesc (opToolResult) (turnD) (turnS2)) (sess1 (fun r => { r with state := stateWaiting })).fold ((turnS2).params (sess1 (fun r => { r with state := stateWaiting })).record.paramSheet).escapes (bitOf (descByte (turnD) 34) 0) ((sess1 (fun r => { r with state := stateWaiting })).record.carry ++ (okVal ((turnS2).hostRead (sess1 (fun r => { r with state := stateWaiting })).fold (descNum (turnD) 16 6) (descNum (turnD) 24 4)) (by decide +kernel)))).replaced, okVal ((turnS2).hostRead (sess1 (fun r => { r with state := stateWaiting })).fold (descNum (turnD) 16 6) (descNum (turnD) 24 4)) (by decide +kernel), encodeText (beginDesc (opToolResult) (turnD) (turnS2)) (sess1 (fun r => { r with state := stateWaiting })).fold ((turnS2).params (sess1 (fun r => { r with state := stateWaiting })).record.paramSheet).escapes (bitOf (descByte (turnD) 34) 0) ((sess1 (fun r => { r with state := stateWaiting })).record.carry ++ (okVal ((turnS2).hostRead (sess1 (fun r => { r with state := stateWaiting })).fold (descNum (turnD) 16 6) (descNum (turnD) 24 4)) (by decide +kernel))), Or.inr rfl, by unfold Admitted; decide +kernel, by decide +kernel, by unfold Leased; decide +kernel, by decide +kernel, by unfold Resting; decide +kernel, by decide +kernel, by decide +kernel, by decide +kernel, by decide +kernel, by decide +kernel, by decide +kernel, by decide +kernel, by decide +kernel, okVal_eq _ _, rfl, by decide +kernel, rfl, by decide +kernel, by decide +kernel, by decide +kernel, ⟨_, _, okVal_eq _ (by decide +kernel), okVal_eq _ (by decide +kernel)⟩⟩),
   (⟨opTurnSubmit, .turnSubmit, 0, turnD, sess7, turnS3, (cacheUse (sess7).fold (beginDesc (opTurnSubmit) (turnD) (turnS3))).count (rTokInputReplaced (sess7).fold) (encodeText (beginDesc (opTurnSubmit) (turnD) (turnS3)) (sess7).fold ((turnS3).params (sess7).record.paramSheet).escapes (bitOf (descByte (turnD) 34) 0) ((sess7).record.carry ++ (okVal ((turnS3).hostRead (sess7).fold (descNum (turnD) 16 6) (descNum (turnD) 24 4)) (by decide +kernel)))).replaced, okVal ((turnS3).hostRead (sess7).fold (descNum (turnD) 16 6) (descNum (turnD) 24 4)) (by decide +kernel), encodeText (beginDesc (opTurnSubmit) (turnD) (turnS3)) (sess7).fold ((turnS3).params (sess7).record.paramSheet).escapes (bitOf (descByte (turnD) 34) 0) ((sess7).record.carry ++ (okVal ((turnS3).hostRead (sess7).fold (descNum (turnD) 16 6) (descNum (turnD) 24 4)) (by decide +kernel))), Or.inl rfl, by unfold Admitted; decide +kernel, by decide +kernel, by unfold Leased; decide +kernel, by decide +kernel, by unfold Resting; decide +kernel, by decide +kernel, by decide +kernel, by decide +kernel, by decide +kernel, by decide +kernel, by decide +kernel, by decide +kernel, by decide +kernel, okVal_eq _ _, rfl, by decide +kernel, rfl, by decide +kernel, by decide +kernel, by decide +kernel, ⟨_, okVal_eq _ (by decide +kernel)⟩⟩)⟩

/-- States and operands that meet the hypotheses of `ParkingASession`, clause by clause. -/
theorem witness_ParkingASession :
    (∃ (d : Desc) (y : Sess) (s : State) (b : State), b = beginDesc opSessionPark d s ∧ Admitted opSessionPark true d s ∧ bodyReserved d [(16, 16)] = true ∧ Leased d y s ∧ Resting y ∧ y.record.imagePoisoned = false ∧ s.parkTierOk y.fold (descByte d 16) = true ∧ y.record.state ≠ parkedIn (descByte d 16) ∧ b.parkRoom y (descByte d 16) (isParked y.record.state) = true ∧ b.others y.fold = []) ∧
    (∃ (d : Desc) (y : Sess) (s : State) (b : State), b = beginDesc opSessionPark d s ∧ Admitted opSessionPark true d s ∧ bodyReserved d [(16, 16)] = true ∧ Leased d y s ∧ Resting y ∧ y.record.imagePoisoned = false ∧ s.parkTierOk y.fold (descByte d 16) = true ∧ y.record.state ≠ parkedIn (descByte d 16) ∧ b.parkRoom y (descByte d 16) (isParked y.record.state) = true ∧ b.others y.fold ≠ [] ∧ (∃ t, startPark d.session (descByte d 16) (some d) b = .ok t)) ∧
    (∃ (d : Desc) (y : Sess) (s : State) (b : State), b = beginDesc opSessionPark d s ∧ Admitted opSessionPark true d s ∧ bodyReserved d [(16, 16)] = true ∧ Leased d y s ∧ Resting y ∧ y.record.imagePoisoned = false ∧ s.parkTierOk y.fold (descByte d 16) = true ∧ y.record.state ≠ parkedIn (descByte d 16) ∧ b.parkRoom y (descByte d 16) (isParked y.record.state) = true) ∧
    (∃ (x : W64) (y : Sess) (p : Park) (s : State), s.ready = true ∧ s.sess x = some y ∧ y.park = some p ∧ p.stopping = false ∧ p.asked = [] ∧ p.left.filter (parkLeft s y p) = [] ∧ y.isOwner = true ∧ p.holders = []) ∧
    (∃ (x : W64) (y : Sess) (p : Park) (s : State), s.ready = true ∧ s.sess x = some y ∧ y.park = some p ∧ p.stopping = false ∧ p.asked = [] ∧ p.left.filter (parkLeft s y p) = [] ∧ y.isOwner = false) ∧
    (∃ (s : State), s.ready = true) ∧
    (∃ (p : Nat × Sess) (s : State) (t : _), p.2.isOwner = true ∧ p.2.busy = false ∧ p.2.record.imagePoisoned = false ∧ p.2.record.lease.lstate = 0 ∧ (p.2.record.state = stateOpen ∨ p.2.record.state = stateWaiting) ∧ p.2.record.parkAfter ≠ 0 ∧ p.2.record.lastActive + p.2.record.parkAfter < s.now ∧ p.2.parkTried < s.now ∧ startPark p.2.record.sessionId p.2.record.parkTier none s = .ok t) :=
  ⟨(⟨ds [2], sess1 id, withS (sess1 id) (dev), beginDesc opSessionPark (ds [2]) (withS (sess1 id) (dev)), rfl, by unfold Admitted; decide +kernel, by decide +kernel, by unfold Leased; decide +kernel, by unfold Resting; decide +kernel, by decide +kernel, by decide +kernel, by decide +kernel, by decide +kernel, by decide +kernel⟩),
   (⟨ds [2], sess7, rootR (withS sess7 dev), beginDesc opSessionPark (ds [2]) (rootR (withS sess7 dev)), rfl, by unfold Admitted; decide +kernel, by decide +kernel, by unfold Leased; decide +kernel, by unfold Resting; decide +kernel, by decide +kernel, by decide +kernel, by decide +kernel, by decide +kernel, by decide +kernel, ⟨_, okVal_eq _ (by decide +kernel)⟩⟩),
   (⟨ds [4], sess1 (fun r => { r with state := parkedIn 2 }), withS (sess1 (fun r => { r with state := parkedIn 2 })) dev, beginDesc opSessionPark (ds [4]) (withS (sess1 (fun r => { r with state := parkedIn 2 })) dev), rfl, by unfold Admitted; decide +kernel, by decide +kernel, by unfold Leased; decide +kernel, by unfold Resting; decide +kernel, by decide +kernel, by decide +kernel, by decide +kernel, by decide +kernel⟩),
   (⟨1, { sess1 (fun r => { r with state := stateOpen }) with park := some { target := 2, left := [], desc := none, stopping := false, fell := false, after := none } }, { target := 2, left := [], desc := none, stopping := false, fell := false, after := none }, withS ({ sess1 (fun r => { r with state := stateOpen }) with park := some { target := 2, left := [], desc := none, stopping := false, fell := false, after := none } }) (dev), by decide +kernel, by decide +kernel, by decide +kernel, by decide +kernel, by decide +kernel, by decide +kernel, by decide +kernel, by decide +kernel⟩),
   (⟨1, { sess1 (fun r => { r with state := stateOpen }) with isOwner := false, park := some { target := 2, left := [], desc := none, stopping := false, fell := false, after := none } }, { target := 2, left := [], desc := none, stopping := false, fell := false, after := none }, withS ({ sess1 (fun r => { r with state := stateOpen }) with isOwner := false, park := some { target := 2, left := [], desc := none, stopping := false, fell := false, after := none } }) (dev), by decide +kernel, by decide +kernel, by decide +kernel, by decide +kernel, by decide +kernel, by decide +kernel, by decide +kernel⟩),
   (⟨dev, by decide +kernel⟩),
   (⟨(1, sess1 (fun r => { r with parkAfter := 1000000, parkTier := 4, lastActive := 3999999 })), withS (sess1 (fun r => { r with parkAfter := 1000000, parkTier := 4, lastActive := 3999999 })) (dev), okVal (startPark ((1, sess1 (fun r => { r with parkAfter := 1000000, parkTier := 4, lastActive := 3999999 }))).2.record.sessionId ((1, sess1 (fun r => { r with parkAfter := 1000000, parkTier := 4, lastActive := 3999999 }))).2.record.parkTier none (withS (sess1 (fun r => { r with parkAfter := 1000000, parkTier := 4, lastActive := 3999999 })) (dev))) (by decide +kernel), by decide +kernel, by decide +kernel, by decide +kernel, by decide +kernel, by decide +kernel, by decide +kernel, by decide +kernel, by decide +kernel, okVal_eq _ _⟩)⟩

/-- States and operands that meet the hypotheses of `RevivingASession`, clause by clause. -/
theorem witness_RevivingASession :
    (∃ (d : Desc) (y : Sess) (s : State), Admitted opSessionRevive true d s ∧ bodyReserved d [(32, 32)] = true ∧ descByte d 32 = 0 ∧ Leased d y s ∧ y.busy = false ∧ isParked y.record.state = true ∧ y.record.imagePoisoned = false) ∧
    (∃ (x : W64) (y : Sess) (r : Revive) (s : State), s.ready = true ∧ s.sess x = some y ∧ y.revive = some r ∧ reviveLeft s y r.groups.flatten = [] ∧ r.desc = none) ∧
    (∃ (x : W64) (y : Sess) (r : Revive) (s : State), s.ready = true ∧ s.sess x = some y ∧ y.revive = some r ∧ reviveLeft s y r.groups.flatten = [] ∧ (∃ d, r.desc = some d ∧ ∀ e ∈ (s.fold y.fold).layersIn, e.1 = x → 255 ≤ e.2.2.2)) ∧
    (∃ (x : W64) (y : Sess) (r : Revive) (s : State), s.ready = true ∧ s.sess x = some y ∧ y.revive = some r ∧ r.turnOut = true ∧ r.layers + 1 < r.groups.length ∧ reviveLeft s y (r.groups.take (r.layers + 2)).flatten = []) ∧
    (∃ (f : Nat) (y : Sess) (s : State), s.isRoot f = true ∧ y.record.lease.holder = s.selfNo) :=
  ⟨(⟨ds [], sess1 (fun r => { r with state := parkedIn 3 }), withS (sess1 (fun r => { r with state := parkedIn 3 })) (dev), by unfold Admitted; decide +kernel, by decide +kernel, by decide +kernel, by unfold Leased; decide +kernel, by decide +kernel, by decide +kernel, by decide +kernel⟩),
   (⟨1, { sess1 (fun r => { r with state := parkedIn 3 }) with revive := some { groups := [[], []], layers := 0, desc := none, turnOut := true, source := 4 } }, { groups := [[], []], layers := 0, desc := none, turnOut := true, source := 4 }, withS ({ sess1 (fun r => { r with state := parkedIn 3 }) with revive := some { groups := [[], []], layers := 0, desc := none, turnOut := true, source := 4 } }) (dev), by decide +kernel, by decide +kernel, by decide +kernel, by decide +kernel, by decide +kernel⟩),
   (⟨1, { sess1 (fun r => { r with state := parkedIn 3 }) with revive := some { groups := [[], []], layers := 0, desc := some (dr []), turnOut := false, source := 4 } }, { groups := [[], []], layers := 0, desc := some (dr []), turnOut := false, source := 4 }, withS ({ sess1 (fun r => { r with state := parkedIn 3 }) with revive := some { groups := [[], []], layers := 0, desc := some (dr []), turnOut := false, source := 4 } }) (dev), by decide +kernel, by decide +kernel, by decide +kernel, by decide +kernel, ⟨dr [], by decide +kernel⟩⟩),
   (⟨1, { sess1 (fun r => { r with state := parkedIn 3 }) with revive := some { groups := [[], []], layers := 0, desc := none, turnOut := true, source := 4 } }, { groups := [[], []], layers := 0, desc := none, turnOut := true, source := 4 }, withS ({ sess1 (fun r => { r with state := parkedIn 3 }) with revive := some { groups := [[], []], layers := 0, desc := none, turnOut := true, source := 4 } }) (dev), by decide +kernel, by decide +kernel, by decide +kernel, by decide +kernel, by decide +kernel, by decide +kernel⟩),
   (⟨0, sess1 id, dev, by decide +kernel, by decide +kernel⟩)⟩

/-- States and operands that meet the hypotheses of `MovesAndRecovery`, clause by clause. -/
theorem witness_MovesAndRecovery :
    (∃ (x : W64) (y : Sess) (s : State), s.sess x = some y ∧ y.isHome = true) ∧
    (∃ (d : Desc) (y : Sess) (s : State), Admitted opSessionMove true d s ∧ bodyReserved d [(32, 32), (36, 40)] = true ∧ descByte d 32 = 0 ∧ descNum d 36 4 < 2 ^ 18 ∧ descByte d 40 < 64 ∧ Leased d y s ∧ Resting y ∧ y.record.imagePoisoned = false) ∧
    (∃ (x : W64) (y : Sess) (s : State), s.sess x = some y ∧ y.isHome = true ∧ y.record.lease = ⟨s.selfNo, 0, y.record.lease.epoch⟩ ∧ y.record.lease.epoch < epochTop) ∧
    (∃ (d : Desc) (y : Sess) (s : State), Admitted opSessionMove true d s ∧ bodyReserved d [(16, 22), (24, 29), (32, 33)] = true ∧ descByte d 32 = 1 ∧ descByte d 33 < 2 ∧ streamBlock d (s.ringOwner d.ring) s = stOk ∧ s.sess d.session = some y ∧ y.isHome = true) ∧
    (∃ (d : Desc) (y : Sess) (s : State), Admitted opSessionRevive true d s ∧ bodyReserved d [(16, 22), (24, 29), (32, 32)] = true ∧ descByte d 32 = 1 ∧ streamBlock d (s.ringOwner d.ring) s = stOk ∧ s.sess d.session = some y ∧ (y.isHome = true ∨ y.isOwner = true ∨ y.move.isSome = true)) ∧
    (∃ (x : W64) (y : Sess) (m : Move) (s : State) (r : List Nat × State), s.ready = true ∧ s.sess x = some y ∧ y.move = some m ∧ m.stage = 3 ∧ s.pullWhole x y m = true ∧ rebuildImage y.fold y m s = .ok r ∧ y.isHome = true) ∧
    (∃ (x : W64) (y : Sess) (m : Move) (s : State), s.ready = true ∧ s.sess x = some y ∧ y.move = some m ∧ m.stage = 1 ∧ m.lastPoll + max 1 (s.act rSessPoll) ≤ s.now ∧ s.asking (.leasePoll x) = false ∧ y.isHome = true) ∧
    (∃ (x : W64) (y : Sess) (s : State), s.ready = true ∧ s.sess x = some y ∧ y.isHome = true ∧ (y.record.lease.lstate = 2 ∨ (y.record.lease.lstate = 1 ∧ y.record.lease.holder = s.selfNo)) ∧ y.record.offerDeadline < s.now ∧ s.asking (.examine x) = false) :=
  ⟨(⟨1, sess1 id, withS (sess1 id) (dev), by decide +kernel, by decide +kernel⟩),
   (⟨ds ([0, 0, 0, 0] ++ zerosB 12 ++ [0, 0, 0, 0] ++ leBytes 4 0x3FFFF ++ [63]), sess1 (fun r => { r with lease := ⟨0, 0, 1⟩ }), withS (sess1 (fun r => { r with lease := ⟨0, 0, 1⟩ })) (dev), by unfold Admitted; decide +kernel, by decide +kernel, by decide +kernel, by decide +kernel, by decide +kernel, by unfold Leased; decide +kernel, by unfold Resting; decide +kernel, by decide +kernel⟩),
   (⟨1, sess1 id, withS (sess1 id) (dev), by decide +kernel, by decide +kernel, by decide +kernel, by decide +kernel⟩),
   (⟨moveD, { sess1 (fun r => { r with lease := ⟨7, 1, 1⟩, peer := ⟨0, 0, 1⟩ }) with isOwner := false }, withS ({ sess1 (fun r => { r with lease := ⟨7, 1, 1⟩, peer := ⟨0, 0, 1⟩ }) with isOwner := false }) (dev), by unfold Admitted; decide +kernel, by decide +kernel, by decide +kernel, by decide +kernel, by decide +kernel, by decide +kernel, by decide +kernel⟩),
   (⟨moveD, { sess1 (fun r => { r with state := stateStranded }) with isOwner := false }, withS ({ sess1 (fun r => { r with state := stateStranded }) with isOwner := false }) (dev), by unfold Admitted; decide +kernel, by decide +kernel, by decide +kernel, by decide +kernel, by decide +kernel, by decide +kernel⟩),
   (⟨1, pulledY, pulledM, pulledS, okVal (rebuildImage (pulledY).fold (pulledY) (pulledM) (pulledS)) (by decide +kernel), by decide +kernel, by decide +kernel, by decide +kernel, by decide +kernel, by decide +kernel, okVal_eq _ _, by decide +kernel⟩),
   (⟨1, { sess1 (fun r => { r with lease := ⟨0, 1, 2⟩ }) with move := some { stage := 1, device := 7, fold := 0, epoch := 1, desc := none, continueTurn := false, lastPoll := 0, pulled := [] } }, { stage := 1, device := 7, fold := 0, epoch := 1, desc := none, continueTurn := false, lastPoll := 0, pulled := [] }, withS ({ sess1 (fun r => { r with lease := ⟨0, 1, 2⟩ }) with move := some { stage := 1, device := 7, fold := 0, epoch := 1, desc := none, continueTurn := false, lastPoll := 0, pulled := [] } }) (dev), by decide +kernel, by decide +kernel, by decide +kernel, by decide +kernel, by decide +kernel, by decide +kernel, by decide +kernel⟩),
   (⟨1, sess1 (fun r => { r with lease := ⟨0, 1, 2⟩, offerDeadline := 4999999 }), withS (sess1 (fun r => { r with lease := ⟨0, 1, 2⟩, offerDeadline := 4999999 })) (dev), by decide +kernel, by decide +kernel, by decide +kernel, by decide +kernel, by decide +kernel, by decide +kernel⟩)⟩

/-- States and operands that meet the hypotheses of `StreamQueues`, clause by clause. -/
theorem witness_StreamQueues :
    (∃ (n : Nat) (p : StreamPkt) (rest : List StreamPkt) (y : Sess) (s : State), s.ready = true ∧ (s.pen n).reread = none ∧ (s.pen n).draining.packets = p :: rest ∧ s.sess p.session = some y ∧ y.overflow = none ∧ y.resend = none) ∧
    (∃ (n : Nat) (p : StreamPkt) (y : Sess) (s : State) (u : State), s.ready = true ∧ (s.pen n).reread = some p ∧ u = rereadHead p.session (popPacket n (s.modPen n (fun x => { x with reread := none }))) ∧ u.sess p.session = some y) ∧
    (∃ (x : W64) (y : Sess) (s : State), s.ready = true ∧ s.sess x = some y ∧ (y.resend.isSome = true ∨ y.endWait ≠ []) ∧ pollDue y.headAt s.now = true) ∧
    (∃ (d : Desc) (y : Sess) (s : State), Admitted opStreamResend true d s ∧ bodyReserved d [(16, 23)] = true ∧ Leased d y s ∧ descNum d 16 8 ≤ y.record.textOffset ∧ resendFloor (beginDesc opStreamResend d s) y ≤ descNum d 16 8 ∧ y.resend = none ∧ haveEntries y = true) ∧
    (∃ (n : Nat) (s : State), s.ready = true ∧ (s.pen n).draining.packets = [] ∧ (s.pen n).reread = none ∧ (s.pen n).filling.packets ≠ [] ∧ (16 ≤ (s.pen n).filling.packets.length ∨ 256 ≤ bankWords (s.pen n).filling ∨ (s.pen n).filling.closed = true ∨ (∃ p l, (s.pen n).waiting = p :: l ∧ bankTakes (s.pen n).filling p = false) ∨ ∃ t, (s.pen n).filling.since = some t ∧ t * 1000 + s.act (rPenStreamSwapWait n) ≤ s.now * 1000)) :=
  ⟨(⟨0, pkt1, [], sess1 id, { withS (sess1 id) dev with pens := [(0, penDrain)] }, by decide +kernel, by decide +kernel, by decide +kernel, by decide +kernel, by decide +kernel, by decide +kernel⟩),
   (⟨0, pkt1, someVal ((rereadHead (pkt1).session (popPacket (0) (({ withS (sess1 id) dev with pens := [(0, { penDrain with reread := some pkt1 })] }).modPen (0) (fun x => { x with reread := none })))).sess (pkt1).session) (by decide +kernel), { withS (sess1 id) dev with pens := [(0, { penDrain with reread := some pkt1 })] }, rereadHead (pkt1).session (popPacket (0) (({ withS (sess1 id) dev with pens := [(0, { penDrain with reread := some pkt1 })] }).modPen (0) (fun x => { x with reread := none }))), by decide +kernel, by decide +kernel, rfl, someVal_eq _ _⟩),
   (⟨1, { sess1 id with resend := some 0 }, withS ({ sess1 id with resend := some 0 }) (dev), by decide +kernel, by decide +kernel, by decide +kernel, by decide +kernel⟩),
   (⟨ds [], sess1 id, withS (sess1 id) (dev), by unfold Admitted; decide +kernel, by decide +kernel, by unfold Leased; decide +kernel, by decide +kernel, by decide +kernel, by decide +kernel, by decide +kernel⟩),
   (⟨0, { dev with pens := [(0, penFill)] }, by decide +kernel, by decide +kernel, by decide +kernel, by decide +kernel, Or.inr (Or.inr (Or.inl (by decide +kernel)))⟩)⟩

/-- States and operands that meet the hypotheses of `DoorbellsAndRingStates`, clause by clause. -/
theorem witness_DoorbellsAndRingStates :
    (∃ (r : Nat) (req : Nat) (v : W32) (s : State), s.ready = true ∧ r < 4096 ∧ req = s.ringOwner r ∧ (req < 64 ∨ req = mgmtPath) ∧ (s.ring r).state = 1 ∧ (s.ring r).closing = false ∧ (v - (s.ring r).lastT).toNat ≤ 2 ^ s.ringLog2 r ∧ (v - (s.ring r).head).toNat ≤ 2 ^ s.ringLog2 r) ∧
    (∃ (r : Nat) (req : Nat) (v : W32) (s : State), s.ready = true ∧ r < 4096 ∧ req = s.ringOwner r ∧ (req < 64 ∨ req = mgmtPath) ∧ (s.ring r).state = 1 ∧ (s.ring r).closing = false ∧ (v - (s.ring r).lastT).toNat ≤ 2 ^ s.ringLog2 r ∧ (v - (s.ring r).head).toNat ≤ 2 ^ s.ringLog2 r) ∧
    (∃ (r : Nat) (req : Nat) (v : W32) (s : State), s.ready = true ∧ r < 4096 ∧ req = s.ringOwner r ∧ (req < 64 ∨ req = mgmtPath) ∧ (s.ring r).state = 1 ∧ (s.ring r).closing = false ∧ (2 ^ s.ringLog2 r < (v - (s.ring r).lastT).toNat ∨ 2 ^ s.ringLog2 r < (v - (s.ring r).head).toNat)) ∧
    (∃ (r : Nat) (req : Nat) (s : State), s.ready = true ∧ r < 4096 ∧ (req < 64 ∨ req = mgmtPath) ∧ (req ≠ s.ringOwner r ∨ (s.ring r).state ≠ 1 ∨ (s.ring r).closing = true)) ∧
    (∃ (r : Nat) (s : State), s.ready = true ∧ s.act (rRingCtrl r) = 1 ∧ (s.ring r).state = 0) ∧
    (∃ (r : Nat) (s : State), s.ready = true ∧ s.act (rRingCtrl r) = 2 ∧ (s.ring r).state = 1 ∧ (s.ring r).fetched = [] ∧ (s.ring r).inflight = [] ∧ (s.ring r).fence = none) ∧
    (∃ (r : Nat) (s : State), s.ready = true ∧ s.act (rRingCtrl r) = 3 ∧ (s.ring r).state = 2 ∧ (s.ring r).fetched = [] ∧ (s.ring r).inflight = [] ∧ (s.ring r).fence = none) :=
  ⟨(⟨0, 0, 16, dev, by decide +kernel, by decide +kernel, by decide +kernel, by decide +kernel, by decide +kernel, by decide +kernel, by decide +kernel, by decide +kernel⟩),
   (⟨1, 0x7F, 16, dev, by decide +kernel, by decide +kernel, by decide +kernel, by decide +kernel, by decide +kernel, by decide +kernel, by decide +kernel, by decide +kernel⟩),
   (⟨0, 0, 17, dev, by decide +kernel, by decide +kernel, by decide +kernel, by decide +kernel, by decide +kernel, by decide +kernel, by decide +kernel⟩),
   (⟨4095, 63, dev, by decide +kernel, by decide +kernel, by decide +kernel, by decide +kernel⟩),
   (⟨2, withR [(rRingCtrl 2, 1)] dev, by decide +kernel, by decide +kernel, by decide +kernel⟩),
   (⟨0, withR [(rRingCtrl 0, 2)] dev, by decide +kernel, by decide +kernel, by decide +kernel, by decide +kernel, by decide +kernel, by decide +kernel⟩),
   (⟨0, { withR [(rRingCtrl 0, 3)] dev with rings := [(0, { Ring.reset with state := 2 })] }, by decide +kernel, by decide +kernel, by decide +kernel, by decide +kernel, by decide +kernel, by decide +kernel⟩)⟩

/-- States and operands that meet the hypotheses of `FetchFenceAndPoll`, clause by clause. -/
theorem witness_FetchFenceAndPoll :
    (∃ (r : Nat) (l : List Byte) (s : State), s.ready = true ∧ s.mayFetch r = true ∧ s.fetchCount r ≠ 0 ∧ s.hostRead (s.ringOwner r) (s.act (rRingSqBase r) + (s.ring r).head.toNat % 2 ^ s.ringLog2 r * 64) (s.fetchCount r * 64) = .ok l) ∧
    (∃ (d : Desc) (s : State), Admitted opFence false d s ∧ bodyReserved d [] = true ∧ (s.ring d.ring).inflight = [] ∧ (s.ring d.ring).fetched = [(opFence, d)]) ∧
    (∃ (d : Desc) (e : Desc) (op : Nat) (s : State), Admitted opFence false d s ∧ bodyReserved d [] = true ∧ (s.ring d.ring).inflight = [(op, e)] ∧ op ≠ opFence) ∧
    (∃ (q : Nat) (l : List Byte) (s : State), s.ready = true ∧ s.eqOn q = true ∧ s.eqFull q = true ∧ pollDue (s.eq q).headAt s.now = true ∧ s.hostRead (s.eqOwner q) (s.act (rRingEqHeadAddr q)) 4 = .ok l) :=
  ⟨(⟨0, okVal (({ dev with rings := [(0, { Ring.reset with state := 1, lastT := 16 })] }).hostRead (({ dev with rings := [(0, { Ring.reset with state := 1, lastT := 16 })] }).ringOwner (0)) (({ dev with rings := [(0, { Ring.reset with state := 1, lastT := 16 })] }).act (rRingSqBase (0)) + (({ dev with rings := [(0, { Ring.reset with state := 1, lastT := 16 })] }).ring (0)).head.toNat % 2 ^ ({ dev with rings := [(0, { Ring.reset with state := 1, lastT := 16 })] }).ringLog2 (0) * 64) (({ dev with rings := [(0, { Ring.reset with state := 1, lastT := 16 })] }).fetchCount (0) * 64)) (by decide +kernel), { dev with rings := [(0, { Ring.reset with state := 1, lastT := 16 })] }, by decide +kernel, by decide +kernel, by decide +kernel, okVal_eq _ _⟩),
   (⟨dr [], { dev with rings := [(0, { Ring.reset with state := 1, fetched := [(opFence, dr [])] })] }, by unfold Admitted; decide +kernel, by decide +kernel, by decide +kernel, by decide +kernel⟩),
   (⟨dr [], ds [], opSessionClose, { dev with rings := [(0, { Ring.reset with state := 1, inflight := [(opSessionClose, ds [])] })] }, by unfold Admitted; decide +kernel, by decide +kernel, by decide +kernel, by decide +kernel⟩),
   (⟨0, okVal (({ dev with eqs := [(0, { EventQueue.reset with producer := 16 })] }).hostRead (({ dev with eqs := [(0, { EventQueue.reset with producer := 16 })] }).eqOwner (0)) (({ dev with eqs := [(0, { EventQueue.reset with producer := 16 })] }).act (rRingEqHeadAddr (0))) 4) (by decide +kernel), { dev with eqs := [(0, { EventQueue.reset with producer := 16 })] }, by decide +kernel, by decide +kernel, by decide +kernel, by decide +kernel, okVal_eq _ _⟩)⟩

/-- States and operands that meet the hypotheses of `TallyCountersCountAndWrap`, clause by clause. -/
theorem witness_TallyCountersCountAndWrap :
    (∃ (r : Nat) (s : State), s.tallyCounts (s.ringOwner r) = true ∧ s.ringOwner r ≠ mgmtPath ∧ (s.fold (s.ringOwner r)).penList ≠ []) ∧
    (∃ (r : Nat) (s : State), s.ringOwner r = mgmtPath) :=
  ⟨(⟨0, dev, by decide +kernel, by decide +kernel, by decide +kernel⟩),
   (⟨1, dev, by decide +kernel⟩)⟩

/-- States and operands that meet the hypotheses of `RegisteringAndActivatingImages`, clause by clause. -/
theorem witness_RegisteringAndActivatingImages :
    (∀ payload, Config.sha384 [] = sliceB regC 176 48 → Config.ecdsaOk [] (regC.take (sigOffset regC)) (sliceB regC (sigOffset regC) 96) = true →
      registerPayload 0 regC (imageOf regC 2) (regRun (imageOf regC 2) regB) = .ok payload → ∃ (d : Desc) (s : State) (b : State) (v : State) (f : Nat) (k : Nat) (c : List Byte) (payload : List Byte) (img : Image) (g : Registration) (own : List Nat × State) (under : List Nat × State), f = s.ringOwner d.ring ∧ k = descByte d 32 ∧ b = beginDesc opModelRegister d s ∧ Admitted opModelRegister false d s ∧ bodyReserved d [(16, 21), (24, 33)] = true ∧ k ≤ 31 ∧ descByte d 33 = 2 ∧ hasN (s.fold f).images k = false ∧ hasN (s.fold f).registering k = false ∧ s.hostRead f (descNum d 16 6) (descNum d 24 8) = .ok c ∧ registerChecks f 2 c b = .ok (img, false, b) ∧ img.store = 2 ∧ g = { desc := d, container := c, image := img, begun := false, left := [], total := 0 } ∧ v = (b.modFold f (fun x => { x with registering := setN x.registering k g })).modFold f (fun x => { x with registering := modN x.registering k (fun g => { g with begun := true }) }) ∧ registerPayload f c img v = .ok payload ∧ weightSheets f ((shareHeads img (ownShare v f img) k 0).zip (shareContents (ownShare v f img) payload)) v = .ok own ∧ weightSheets f ((shareHeads img (understudyShare v f img) k 1).zip (shareContents (understudyShare v f img) payload)) own.2 = .ok under) ∧
    (Config.sha384 [] = sliceB regC 176 48 → Config.ecdsaOk [] (regC.take (sigOffset regC)) (sliceB regC (sigOffset regC) 96) = true → ∃ (d : Desc) (s : State) (b : State) (f : Nat) (k : Nat) (c : List Byte) (img : Image), f = s.ringOwner d.ring ∧ k = descByte d 32 ∧ b = beginDesc opModelRegister d s ∧ Admitted opModelRegister false d s ∧ bodyReserved d [(16, 21), (24, 33)] = true ∧ k ≤ 31 ∧ descByte d 33 = 3 ∧ (s.fold f).ns.state = nsRebuilding ∧ hasN (s.fold f).images k = false ∧ hasN (s.fold f).registering k = false ∧ s.hostRead f (descNum d 16 6) (descNum d 24 8) = .ok c ∧ registerChecks f 3 c b = .ok (img, true, b)) ∧
    (∃ (d : Desc) (s : State) (b : State) (f : Nat) (img : Image), f = s.ringOwner d.ring ∧ b = takeDepth f (beginDesc opModelActivate d s) ∧ Admitted opModelActivate false d s ∧ bodyReserved d [(32, 32), (36, 39)] = true ∧ descByte d 32 < 32 ∧ s.image f (descByte d 32) = some img ∧ (s.fold f).drain = none ∧ s.isRoot f = true ∧ img.pinnedSlots (b.act (rScrWindowDepth f)) ≤ 96 ∧ poolExcess (s.fold f) (img.pinnedSlots (b.act (rScrWindowDepth f))) ≤ b.room f 2) ∧
    (∃ (f : Nat) (q : Drain) (img : Image) (s : State) (t : State), s.ready = true ∧ (s.fold f).drain = some q ∧ q.loading = true ∧ q.kind = 1 ∧ q.issuer = none ∧ s.image f q.arg = some img ∧ loadImage f q.arg q.depth img (s.modFold f (fun x => { x with drain := none })) = .ok t) ∧
    (∃ (f : Nat) (q : Drain) (img : Image) (st : W16) (s : State), s.ready = true ∧ (s.fold f).drain = some q ∧ q.loading = true ∧ q.kind = 1 ∧ s.image f q.arg = some img ∧ st ≠ stOk) ∧
    (∃ (d : Desc) (s : State) (f : Nat) (img : Image), f = s.ringOwner d.ring ∧ Admitted opModelRetire false d s ∧ bodyReserved d [(32, 32)] = true ∧ descByte d 32 < 32 ∧ s.image f (descByte d 32) = some img ∧ hasN (s.fold f).registering (descByte d 32) = false ∧ (s.fold f).active ≠ some (descByte d 32) ∧ (s.fold f).drain = none ∧ (∀ p ∈ s.sessions, p.2.fold = f → (p.2.isOwner = true ∨ p.2.record.state = stateStranded) → p.2.record.imageSlot = descByte d 32 → p.2.record.state = stateClosed)) :=
  ⟨(fun payload h1 h2 h3 => (regC_weights payload).elim fun own ho => ⟨regD, regS, regB, regRun (imageOf regC 2) regB, 0, 31, regC, payload, imageOf regC 2, regG (imageOf regC 2), own, ([], own.2), by decide +kernel, by decide +kernel, rfl, by unfold Admitted; decide +kernel, by decide +kernel, by decide +kernel, by decide +kernel, by decide +kernel, by decide +kernel, regC_read, regC_checks h1 h2, rfl, rfl, rfl, h3, ho, (by rw [show understudyShare (regRun (imageOf regC 2) regB) 0 (imageOf regC 2) = [] from (regRun_shares _ _ _).2.trans regC_heads.2.2]; rfl)⟩),
   (fun h1 h2 => ⟨regD3, regS3, regB3, 0, 31, regC, imageOf regC 3, by decide +kernel, by decide +kernel, rfl, by unfold Admitted; decide +kernel, by decide +kernel, by decide +kernel, by decide +kernel, by decide +kernel, by decide +kernel, by decide +kernel, regC_read3, regC_checks3 h1 h2⟩),
   (⟨dr [0, 0, 0, 0, 0, 0, 0, 0, 0, 0, 0, 0, 0, 0, 0, 0, 0, 0, 0, 0, 232, 3], devI [], takeDepth (0) (beginDesc opModelActivate (dr [0, 0, 0, 0, 0, 0, 0, 0, 0, 0, 0, 0, 0, 0, 0, 0, 0, 0, 0, 0, 232, 3]) (devI [])), 0, image1 [], by decide +kernel, rfl, by unfold Admitted; decide +kernel, by decide +kernel, by decide +kernel, by decide +kernel, by decide +kernel, by decide +kernel, by decide +kernel, by decide +kernel⟩),
   (⟨0, drain1, image1 [], actS, okVal (loadImage (0) (drain1).arg (drain1).depth (image1 []) ((actS).modFold (0) (fun x => { x with drain := none }))) (by decide +kernel), by decide +kernel, by decide +kernel, by decide +kernel, by decide +kernel, by decide +kernel, by decide +kernel, okVal_eq _ _⟩),
   (⟨0, drain1, image1 [], stPoison, actS, by decide +kernel, by decide +kernel, by decide +kernel, by decide +kernel, by decide +kernel, by decide +kernel⟩),
   (⟨dr [], devF (fun x => { x with images := [(0, image1 [])] }), 0, image1 [], by decide +kernel, by unfold Admitted; decide +kernel, by decide +kernel, by decide +kernel, by decide +kernel, by decide +kernel, by decide +kernel, by decide +kernel, by decide +kernel⟩)⟩

/-- States and operands that meet the hypotheses of `RecallIndexCommands`, clause by clause. -/
theorem witness_RecallIndexCommands :
    (∃ (d : Desc) (s : State) (f : Nat), f = s.ringOwner d.ring ∧ Admitted opRecallQuery false d s ∧ bodyReserved d [(16, 43)] = true ∧ (s.index f).isSome = true ∧ queryRanges d = true) ∧
    (∃ (d : Desc) (l : List Desc) (f : Nat) (at_ : Nat) (x : Index) (w : Place) (r : Place) (s : State), s.ready = true ∧ s.formed f = true ∧ (∀ p ∈ (s.fold f).seqs, p.2.phase = 0) ∧ (s.fold f).rcl.waiting = d :: l ∧ bitsOf (s.act (rRclQuery f)) 7 0 ≠ 0 ∧ s.index f = some x ∧ Calm f s ∧ (at_ = (if descNum d 36 6 = 0 then s.ixSeq x else descNum d 36 6)) ∧ at_ ≤ s.ixSeq x ∧ (descNum d 36 6 ≠ 0 → s.ixFloor x ≤ at_) ∧ s.place f (descNum d 16 6) (rclV x.dim) 0 = .ok w ∧ s.place f (descNum d 24 6) (descNum d 22 2 * 8) 0 = .ok r ∧ (∀ a, r = .cell a → a < 0x300000000000 → ∀ i ∈ spanSheets s f a (descNum d 22 2 * 8), (s.fold f).backed i = true)) ∧
    (∃ (d : Desc) (s : State) (f : Nat) (n : Nat) (x : Index) (w : Place) (data : List Byte) (ids : List Nat), f = s.ringOwner d.ring ∧ n = descNum d 24 4 ∧ Admitted opRecallInsert false d s ∧ bodyReserved d [(16, 21), (24, 27)] = true ∧ s.index f = some x ∧ 1 ≤ n ∧ n ≤ 65536 ∧ Calm f s ∧ AreaBacked x s ∧ s.place f (descNum d 16 6) (n * (8 + rclV x.dim)) 0 = .ok w ∧ data = (match w with | .cell a => s.read a (n * (8 + rclV x.dim)) | .host p => s.linkRead p (n * (8 + rclV x.dim))) ∧ ids = (List.range n).map (fun k => leAt data (k * (8 + rclV x.dim)) 4) ∧ badRecord s x ids = none ∧ sideSpan (s.ixSideStart x) (s.ixSideEnd x) + n ≤ sideRing ∧ s.ixUsed x + sideSpan (s.ixSideStart x) (s.ixSideEnd x) + n ≤ min (x.cap + sideRing) 4294967295 ∧ s.ixSeq x + n ≤ 2 ^ 48 - 1) ∧
    (∃ (d : Desc) (s : State) (f : Nat) (n : Nat) (x : Index) (w : Place) (data : List Byte), f = s.ringOwner d.ring ∧ n = descNum d 24 4 ∧ Admitted opRecallDelete false d s ∧ bodyReserved d [(16, 21), (24, 27)] = true ∧ s.index f = some x ∧ 1 ≤ n ∧ n ≤ 65536 ∧ Calm f s ∧ AreaBacked x s ∧ (∀ e, (s.mapEntry x e).2 < x.cap ∨ sideLoc ≤ (s.mapEntry x e).2) ∧ s.place f (descNum d 16 6) (n * 4) 0 = .ok w ∧ data = (match w with | .cell a => s.read a (n * 4) | .host p => s.linkRead p (n * 4)) ∧ (∀ k, k < n → leAt data (4 * k) 4 ≠ noSlot) ∧ s.ixSeq x + n ≤ 2 ^ 48 - 1) ∧
    (∃ (d : Desc) (s : State) (f : Nat) (x : Index), f = s.ringOwner d.ring ∧ Admitted opRecallMerge false d s ∧ bodyReserved d [(16, 19)] = true ∧ s.index f = some x ∧ (s.fold f).rcl.merge = none ∧ Calm f s) ∧
    (∃ (f : Nat) (x : Index) (m : Merge) (s : State), s.ready = true ∧ (s.fold f).rcl.merge = some m ∧ s.index f = some x ∧ Calm f s ∧ AreaBacked x s ∧ 1 ≤ m.left ∧ m.left ≤ sideSpan (s.ixSideStart x) (s.ixSideEnd x) ∧ s.ixEntries x = [] ∧ s.ixFree x = noSlot ∧ s.ixHigh x + min 256 m.left ≤ x.cap ∧ x.cap < noSlot) ∧
    (∃ (f : Nat) (x : Index) (m : Merge) (r : Merge × State) (s : State), s.ready = true ∧ (s.fold f).rcl.merge = some m ∧ s.index f = some x ∧ mergeRound x m s = .ok r) :=
  ⟨(⟨queryD, rclS, 0, by decide +kernel, by unfold Admitted; decide +kernel, by decide +kernel, by decide +kernel, by decide +kernel⟩),
   (⟨queryD, [], 0, (if descNum (queryD) 36 6 = 0 then (rclQ).ixSeq (someVal ((rclQ).index (0)) (by decide +kernel)) else descNum (queryD) 36 6), someVal ((rclQ).index (0)) (by decide +kernel), okVal ((rclQ).place (0) (descNum (queryD) 16 6) (rclV (someVal ((rclQ).index (0)) (by decide +kernel)).dim) 0) (by decide +kernel), .host 0x106000, rclQ, by decide +kernel, by decide +kernel, by decide +kernel, by decide +kernel, by decide +kernel, rclQ_index, by unfold Calm; decide +kernel, rfl, by decide +kernel, by decide +kernel, okVal_eq _ _, by rfl, (fun a h => by cases h)⟩),
   (⟨dr [0, 80, 16, 0, 0, 48, 0, 0, 1], rclA, 0, descNum (dr [0, 80, 16, 0, 0, 48, 0, 0, 1]) 24 4, rclX, okVal ((rclA).place (0) (descNum (dr [0, 80, 16, 0, 0, 48, 0, 0, 1]) 16 6) ((descNum (dr [0, 80, 16, 0, 0, 48, 0, 0, 1]) 24 4) * (8 + rclV (rclX).dim)) 0) (by decide +kernel), (match (okVal ((rclA).place (0) (descNum (dr [0, 80, 16, 0, 0, 48, 0, 0, 1]) 16 6) ((descNum (dr [0, 80, 16, 0, 0, 48, 0, 0, 1]) 24 4) * (8 + rclV (rclX).dim)) 0) (by decide +kernel)) with | .cell a => (rclA).read a ((descNum (dr [0, 80, 16, 0, 0, 48, 0, 0, 1]) 24 4) * (8 + rclV (rclX).dim)) | .host p => (rclA).linkRead p ((descNum (dr [0, 80, 16, 0, 0, 48, 0, 0, 1]) 24 4) * (8 + rclV (rclX).dim))), (List.range (descNum (dr [0, 80, 16, 0, 0, 48, 0, 0, 1]) 24 4)).map (fun k => leAt ((match (okVal ((rclA).place (0) (descNum (dr [0, 80, 16, 0, 0, 48, 0, 0, 1]) 16 6) ((descNum (dr [0, 80, 16, 0, 0, 48, 0, 0, 1]) 24 4) * (8 + rclV (rclX).dim)) 0) (by decide +kernel)) with | .cell a => (rclA).read a ((descNum (dr [0, 80, 16, 0, 0, 48, 0, 0, 1]) 24 4) * (8 + rclV (rclX).dim)) | .host p => (rclA).linkRead p ((descNum (dr [0, 80, 16, 0, 0, 48, 0, 0, 1]) 24 4) * (8 + rclV (rclX).dim)))) (k * (8 + rclV (rclX).dim)) 4), by decide +kernel, rfl, by unfold Admitted; decide +kernel, by decide +kernel, rclA_index, by decide +kernel, by decide +kernel, by unfold Calm; decide +kernel, rclA_area, okVal_eq _ _, rfl, rfl, by decide +kernel, by decide +kernel, by decide +kernel, by decide +kernel⟩),
   (⟨dr [0, 80, 16, 0, 0, 48, 0, 0, 1], rclA, 0, descNum (dr [0, 80, 16, 0, 0, 48, 0, 0, 1]) 24 4, rclX, okVal ((rclA).place (0) (descNum (dr [0, 80, 16, 0, 0, 48, 0, 0, 1]) 16 6) ((descNum (dr [0, 80, 16, 0, 0, 48, 0, 0, 1]) 24 4) * 4) 0) (by decide +kernel), (match (okVal ((rclA).place (0) (descNum (dr [0, 80, 16, 0, 0, 48, 0, 0, 1]) 16 6) ((descNum (dr [0, 80, 16, 0, 0, 48, 0, 0, 1]) 24 4) * 4) 0) (by decide +kernel)) with | .cell a => (rclA).read a ((descNum (dr [0, 80, 16, 0, 0, 48, 0, 0, 1]) 24 4) * 4) | .host p => (rclA).linkRead p ((descNum (dr [0, 80, 16, 0, 0, 48, 0, 0, 1]) 24 4) * 4)), by decide +kernel, rfl, by unfold Admitted; decide +kernel, by decide +kernel, rclA_index, by decide +kernel, by decide +kernel, by unfold Calm; decide +kernel, rclA_area, rclA_map, okVal_eq _ _, rfl, by decide +kernel, by decide +kernel⟩),
   (⟨dr [], rclA, 0, someVal ((rclA).index (0)) (by decide +kernel), by decide +kernel, by unfold Admitted; decide +kernel, by decide +kernel, someVal_eq _ _, by decide +kernel, by unfold Calm; decide +kernel⟩),
   (⟨0, rclX, { merge1 with left := 1 }, rclM, by decide +kernel, by decide +kernel, rclM_index, by unfold Calm; decide +kernel, rclM_area, by decide +kernel, by decide +kernel, by decide +kernel, by decide +kernel, by decide +kernel, by decide +kernel⟩),
   (⟨0, someVal ((rclS.modFold 0 (fun x => { x with rcl := { x.rcl with merge := some merge1 } })).index (0)) (by decide +kernel), merge1, okVal (mergeRound (someVal ((rclS.modFold 0 (fun x => { x with rcl := { x.rcl with merge := some merge1 } })).index (0)) (by decide +kernel)) (merge1) (rclS.modFold 0 (fun x => { x with rcl := { x.rcl with merge := some merge1 } }))) (by decide +kernel), rclS.modFold 0 (fun x => { x with rcl := { x.rcl with merge := some merge1 } }), by decide +kernel, by decide +kernel, someVal_eq _ _, okVal_eq _ _⟩)⟩

/-- States and operands that meet the hypotheses of `SnapshotsAndRestores`, clause by clause. -/
theorem witness_SnapshotsAndRestores :
    (∃ (d : Desc) (s : State) (f : Nat) (c : Nat), f = s.ringOwner d.ring ∧ Admitted opSnapshotCut false d s ∧ bodyReserved d [(16, 19)] = true ∧ descNum d 16 4 ≠ 1 ∧ descNum d 16 4 ≤ 1024 ∧ (s.fold f).ns.state ≠ nsAbsent ∧ s.snapSlots f ≠ 0 ∧ (s.fold f).snap.state = 0 ∧ (s.fold f).drain = none ∧ c = (s.fold f).stepNo + (if descNum d 16 4 = 0 then 2 else descNum d 16 4)) ∧
    (∃ (f : Nat) (q : Snap) (s : State) (t : State) (c : List Byte × State), s.ready = true ∧ q = (s.fold f).snap ∧ q.state = 2 ∧ q.fail = none ∧ q.digest = none ∧ q.reported = false ∧ s.act (rSnapDrainRate f) = 0 ∧ q.written < q.sheets ∧ (q.written = 0 → q.sheets + (if s.isRoot f then manifestSheets (s.contributors f).length else 0) ≤ s.act (rSnapSlotSheets f)) ∧ c = drainContent f q.written s ∧ storeSheet f q.slot q.written c.1 c.1 c.2 = .ok t) ∧
    (∃ (f : Nat) (i : Nat) (q : Snap) (s : State) (u : State), s.ready = true ∧ q = (s.fold f).snap ∧ q.state = 2 ∧ q.fail = none ∧ q.digest = none ∧ q.reported = false ∧ s.act (rSnapDrainRate f) = 0 ∧ q.written < q.sheets ∧ (q.written = 0 → q.sheets + (if s.isRoot f then manifestSheets (s.contributors f).length else 0) ≤ s.act (rSnapSlotSheets f)) ∧ (s.fold f).ns.state ≠ nsReadOnly ∧ i = s.slotBase f q.slot + q.written ∧ u = discardSheet f i (drainContent f q.written s).2 ∧ (u.fold f).ns.state ≠ nsReadOnly ∧ (drainContent f q.written s).2.slotBase f q.slot = s.slotBase f q.slot ∧ (u.fold f).use 2 < u.quota f 2 ∧ ((u.fold f).usedLocs 2).length < 131072 * (u.fold f).penList.length ∧ u.snapReplicate f = false) ∧
    (∃ (f : Nat) (s : State), s.ready = true ∧ (s.fold f).snap.state = 2 ∧ (s.fold f).snap.reported = false ∧ (s.fold f).snap.fail = none ∧ s.shardMoveFail f = none ∧ s.shardDurable f = true) ∧
    (∃ (f : Nat) (s : State), s.ready = true ∧ (s.fold f).snap.state = 2 ∧ (s.fold f).snap.reported = true ∧ s.isRoot f = false ∧ (s.fold f).snap.fail = none ∧ (s.fold f).snap.sessions = []) ∧
    (∃ (d : Desc) (s : State) (f : Nat) (p : Nat), f = s.ringOwner d.ring ∧ Admitted opSnapshotRestore true d s ∧ bodyReserved d [(16, 24), (32, 37), (40, 45)] = true ∧ descByte d 24 = 0 ∧ d.session ≠ 0 ∧ sidDevice d.session ≠ s.selfNo ∧ s.sess d.session = none ∧ hasN (s.fold f).snap.restores d.session.toNat = false ∧ s.hostPhys f (descNum d 40 6) 65536 0 = .ok p) :=
  ⟨(⟨dr [0, 4], snapS Snap.reset, 0, ((snapS Snap.reset).fold (0)).stepNo + (if descNum (dr [0, 4]) 16 4 = 0 then 2 else descNum (dr [0, 4]) 16 4), by decide +kernel, by unfold Admitted; decide +kernel, by decide +kernel, by decide +kernel, by decide +kernel, by decide +kernel, by decide +kernel, by decide +kernel, by decide +kernel, rfl⟩),
   (⟨0, snap2, snapS snap2, _, drainContent 0 snap2.written (snapS snap2), by decide +kernel, by decide +kernel, by decide +kernel, by decide +kernel, by decide +kernel, by decide +kernel, by decide +kernel, by decide +kernel, by decide +kernel, rfl, storeSheet_ok (by decide +kernel) (okVal_eq _ (by decide +kernel)) (by decide +kernel)⟩),
   (⟨0, (snapS snap2).slotBase (0) (snap2).slot + (snap2).written, snap2, snapS snap2, discardSheet (0) ((snapS snap2).slotBase (0) (snap2).slot + (snap2).written) (drainContent (0) (snap2).written (snapS snap2)).2, by decide +kernel, by decide +kernel, by decide +kernel, by decide +kernel, by decide +kernel, by decide +kernel, by decide +kernel, by decide +kernel, by decide +kernel, by decide +kernel, rfl, rfl, by decide +kernel, by decide +kernel, by decide +kernel, by decide +kernel, by decide +kernel⟩),
   (⟨0, (snapS { snap2 with written := 1, digest := some (zerosB 48) }).modFold 0 (fun x => { x with sheets := [(8192, { Sheet.unbacked with tier := 3, refs := 1 })] }), by decide +kernel, by decide +kernel, by decide +kernel, by decide +kernel, by decide +kernel, by decide +kernel⟩),
   (⟨0, withR [(rFabSelf, 2 ^ 31 + 7), (rFabFoldDrove 0, 2 ^ 32 + 9), (rFabFoldMember 0, 1 + 2 * 2 ^ 18 + 3 * 2 ^ 46)] (snapS { snap2 with reported := true }), by decide +kernel, by decide +kernel, by decide +kernel, by decide +kernel, by decide +kernel, by decide +kernel⟩),
   (⟨restD, snapS Snap.reset, 0, okVal ((snapS Snap.reset).hostPhys (0) (descNum (restD) 40 6) 65536 0) (by decide +kernel), by decide +kernel, by unfold Admitted; decide +kernel, by decide +kernel, by decide +kernel, by decide +kernel, by decide +kernel, by decide +kernel, by decide +kernel, okVal_eq _ _⟩)⟩

/-- States and operands that meet the hypotheses of `DrovesJoinLeaveAndShrink`, clause by clause. -/
theorem witness_DrovesJoinLeaveAndShrink :
    (∃ (d : Desc) (s : State) (f : Nat) (a : Nat) (h : List Byte) (b : List Byte) (j : Join), f = descByte d 16 ∧ a = descNum d 24 6 ∧ bitOf (descByte d 32) 0 = false ∧ Admitted opDroveJoin false d s ∧ joinReserved d = true ∧ s.formed f = true ∧ s.hostRead mgmtPath a 128 = .ok h ∧ s.hostRead mgmtPath a (128 + 4 * min 262144 (leAt h 16 4)) = .ok b ∧ joinListOk s f b = true ∧ joinBusy s f = false ∧ joinMismatch s f b = 0 ∧ j = { desc := d, drove := BitVec.ofNat 32 (leAt b 12 4), members := joinDevices b, index := (joinDevices b).findIdx (· == s.selfNo), deadline := s.now + descNum d 20 4, reports := [((joinDevices b).findIdx (· == s.selfNo), stOk)] }) ∧
    (∃ (f : Nat) (i : Nat) (j : Join) (k : Join) (s : State) (t : State), s.ready = true ∧ (s.fold f).join = some j ∧ j.index = 0 ∧ i < j.members.length ∧ k = { j with reports := setN j.reports i stOk } ∧ t = s.modFold f (fun x => { x with join := some k })) ∧
    (∃ (f : Nat) (i : Nat) (j : Join) (k : Join) (s : State) (t : State), s.ready = true ∧ (s.fold f).join = some j ∧ j.index = 0 ∧ i < j.members.length ∧ k = { j with reports := setN j.reports i stOk } ∧ t = s.modFold f (fun x => { x with join := some k })) ∧
    (∃ (f : Nat) (j : Join) (s : State), s.ready = true ∧ (s.fold f).join = some j ∧ (j.index ≠ 0 ∨ j.reports.length = j.members.length) ∧ j.index < 2 ^ 18 ∧ j.members.length ≤ 2 ^ 18 ∧ j.members.headD 0 < 2 ^ 18) ∧
    (∃ (f : Nat) (i : Nat) (j : Join) (s : State), s.ready = true ∧ (s.fold f).join = some j ∧ j.index = 0 ∧ j.deadline ≤ s.now ∧ j.reports.length ≠ j.members.length ∧ (List.range j.members.length).find? (fun i => !hasN j.reports i) = some i) ∧
    (∃ (d : Desc) (s : State) (f : Nat), f = descByte d 16 ∧ bitOf (descByte d 32) 0 = true ∧ Admitted opDroveJoin false d s ∧ joinReserved d = true ∧ s.formed f = true ∧ (s.drove f).isSome = true ∧ (s.fold f).drain = none ∧ s.isRoot f = true) ∧
    (∃ (d : Desc) (s : State) (f : Nat), f = descByte d 16 ∧ bitOf (descByte d 32) 0 = true ∧ Admitted opDroveJoin false d s ∧ joinReserved d = true ∧ s.formed f = true ∧ (s.drove f).isSome = true ∧ (s.fold f).drain = none ∧ s.isRoot f = false ∧ (∃ t, startDrain f 3 (descNum d 20 4) d 0 (beginDesc opDroveJoin d s) = .ok t)) ∧
    (∃ (d : Desc) (s : State) (f : Nat), f = descByte d 16 ∧ Admitted opDroveShrink false d s ∧ bodyReserved d [(16, 16), (20, 23)] = true ∧ descNum d 20 4 < 2 ^ 18 ∧ s.formed f = true ∧ s.shrinkable f (descNum d 20 4) = true ∧ s.predecessor f (descNum d 20 4) = s.memberIndex f ∧ (s.fold f).snap.state ≠ 4) ∧
    (∃ (f : Nat) (l : Nat) (s : State), s.ready = true ∧ (s.fold f).snap.lostMember = some l ∧ s.predecessor f l ≠ s.memberIndex f) ∧
    (∃ (f : Nat) (l : Nat) (s : State) (t : State) (u : State), s.ready = true ∧ (s.fold f).snap.lostMember = some l ∧ s.predecessor f l = s.memberIndex f ∧ (s.fold f).snap.state = 4 ∧ takeSlice f (s.modSnap f (fun q => { q with job := none, share := [] })) = .ok t ∧ takeShare f l t = .ok u) ∧
    (∃ (d : Desc) (s : State) (f : Nat) (img : Image) (u : _), f = descByte d 16 ∧ Admitted opDroveRebalance false d s ∧ bodyReserved d [(16, 17), (20, 23)] = true ∧ s.formed f = true ∧ descByte d 17 < 32 ∧ s.image f (descByte d 17) = some img ∧ img.members = s.droveSize f ∧ img.pinnedSlots (s.act (rScrWindowDepth f)) ≤ 96 ∧ (s.fold f).drain = none ∧ poolExcess (s.fold f) (img.pinnedSlots (s.act (rScrWindowDepth f))) ≤ (beginDesc opDroveRebalance d s).room f 2 ∧ u = (beginDesc opDroveRebalance d s).modSnap f (fun q => if q.halted && q.lostMember.isNone then { q with halted := false, state := 0 } else q) ∧ s.isRoot f = true) ∧
    (∃ (d : Desc) (s : State) (f : Nat) (img : Image) (u : _), f = descByte d 16 ∧ Admitted opDroveRebalance false d s ∧ bodyReserved d [(16, 17), (20, 23)] = true ∧ s.formed f = true ∧ descByte d 17 < 32 ∧ s.image f (descByte d 17) = some img ∧ img.members = s.droveSize f ∧ img.pinnedSlots (s.act (rScrWindowDepth f)) ≤ 96 ∧ (s.fold f).drain = none ∧ poolExcess (s.fold f) (img.pinnedSlots (s.act (rScrWindowDepth f))) ≤ (beginDesc opDroveRebalance d s).room f 2 ∧ u = (beginDesc opDroveRebalance d s).modSnap f (fun q => if q.halted && q.lostMember.isNone then { q with halted := false, state := 0 } else q) ∧ s.isRoot f = false ∧ (∃ t, startDrain f 2 (descNum d 20 4) d (descByte d 17) u = .ok t)) :=
  ⟨(⟨joinD, joinS, descByte (joinD) 16, descNum (joinD) 24 6, okVal ((joinS).hostRead mgmtPath (descNum (joinD) 24 6) 128) (by decide +kernel), okVal ((joinS).hostRead mgmtPath (descNum (joinD) 24 6) (128 + 4 * min 262144 (leAt (okVal ((joinS).hostRead mgmtPath (descNum (joinD) 24 6) 128) (by decide +kernel)) 16 4))) (by decide +kernel), { desc := (joinD), drove := BitVec.ofNat 32 (leAt (okVal ((joinS).hostRead mgmtPath (descNum (joinD) 24 6) (128 + 4 * min 262144 (leAt (okVal ((joinS).hostRead mgmtPath (descNum (joinD) 24 6) 128) (by decide +kernel)) 16 4))) (by decide +kernel)) 12 4), members := joinDevices (okVal ((joinS).hostRead mgmtPath (descNum (joinD) 24 6) (128 + 4 * min 262144 (leAt (okVal ((joinS).hostRead mgmtPath (descNum (joinD) 24 6) 128) (by decide +kernel)) 16 4))) (by decide +kernel)), index := (joinDevices (okVal ((joinS).hostRead mgmtPath (descNum (joinD) 24 6) (128 + 4 * min 262144 (leAt (okVal ((joinS).hostRead mgmtPath (descNum (joinD) 24 6) 128) (by decide +kernel)) 16 4))) (by decide +kernel))).findIdx (· == (joinS).selfNo), deadline := (joinS).now + descNum (joinD) 20 4, reports := [((joinDevices (okVal ((joinS).hostRead mgmtPath (descNum (joinD) 24 6) (128 + 4 * min 262144 (leAt (okVal ((joinS).hostRead mgmtPath (descNum (joinD) 24 6) 128) (by decide +kernel)) 16 4))) (by decide +kernel))).findIdx (· == (joinS).selfNo), stOk)] }, rfl, rfl, by decide +kernel, by unfold Admitted; decide +kernel, by decide +kernel, by decide +kernel, okVal_eq _ _, okVal_eq _ _, by decide +kernel, by decide +kernel, by decide +kernel, rfl⟩),
   (⟨0, 1, join1, { (join1) with reports := setN (join1).reports (1) stOk }, (withR [(rFabSelf, 2 ^ 31 + 7)] dev).modFold 0 (fun x => { x with join := some join1 }), ((withR [(rFabSelf, 2 ^ 31 + 7)] dev).modFold 0 (fun x => { x with join := some join1 })).modFold (0) (fun x => { x with join := some ({ (join1) with reports := setN (join1).reports (1) stOk }) }), by decide +kernel, by decide +kernel, by decide +kernel, by decide +kernel, rfl, rfl⟩),
   (⟨0, 0, join1, { (join1) with reports := setN (join1).reports (0) stOk }, (withR [(rFabSelf, 2 ^ 31 + 7)] dev).modFold 0 (fun x => { x with join := some join1 }), ((withR [(rFabSelf, 2 ^ 31 + 7)] dev).modFold 0 (fun x => { x with join := some join1 })).modFold (0) (fun x => { x with join := some ({ (join1) with reports := setN (join1).reports (0) stOk }) }), by decide +kernel, by decide +kernel, by decide +kernel, by decide +kernel, rfl, rfl⟩),
   (⟨0, { join1 with reports := [(0, stOk), (1, stOk)] }, (withR [(rFabSelf, 2 ^ 31 + 7)] dev).modFold 0 (fun x => { x with join := some { join1 with reports := [(0, stOk), (1, stOk)] } }), by decide +kernel, by decide +kernel, by decide +kernel, by decide +kernel, by decide +kernel, by decide +kernel⟩),
   (⟨0, 1, join1, (withR [(rFabSelf, 2 ^ 31 + 7)] dev).modFold 0 (fun x => { x with join := some join1 }), by decide +kernel, by decide +kernel, by decide +kernel, by decide +kernel, by decide +kernel, by decide +kernel⟩),
   (⟨dm [0, 0, 0, 0, 232, 3, 0, 0, 0, 0, 0, 0, 0, 0, 0, 0, 1], joined id, descByte (dm [0, 0, 0, 0, 232, 3, 0, 0, 0, 0, 0, 0, 0, 0, 0, 0, 1]) 16, rfl, by decide +kernel, by unfold Admitted; decide +kernel, by decide +kernel, by decide +kernel, by decide +kernel, by decide +kernel, by decide +kernel⟩),
   (⟨dm [0, 0, 0, 0, 232, 3, 0, 0, 0, 0, 0, 0, 0, 0, 0, 0, 1], memR dev, descByte (dm [0, 0, 0, 0, 232, 3, 0, 0, 0, 0, 0, 0, 0, 0, 0, 0, 1]) 16, rfl, by decide +kernel, by unfold Admitted; decide +kernel, by decide +kernel, by decide +kernel, by decide +kernel, by decide +kernel, by decide +kernel, ⟨_, okVal_eq _ (by decide +kernel)⟩⟩),
   (⟨dm [0, 0, 0, 0, 1], joined (fun x => { x with snap := { x.snap with lostMember := some 1 } }), descByte (dm [0, 0, 0, 0, 1]) 16, rfl, by unfold Admitted; decide +kernel, by decide +kernel, by decide +kernel, by decide +kernel, by decide +kernel, by decide +kernel, by decide +kernel⟩),
   (⟨0, 2, joined (fun x => { x with snap := { x.snap with lostMember := some 2 } }), by decide +kernel, by decide +kernel, by decide +kernel⟩),
   (⟨0, 1, joined (fun x => { x with snap := { x.snap with lostMember := some 1, state := 4 } }), okVal (takeSlice (0) ((joined (fun x => { x with snap := { x.snap with lostMember := some 1, state := 4 } })).modSnap (0) (fun q => { q with job := none, share := [] }))) (by decide +kernel), okVal (takeShare (0) (1) (okVal (takeSlice (0) ((joined (fun x => { x with snap := { x.snap with lostMember := some 1, state := 4 } })).modSnap (0) (fun q => { q with job := none, share := [] }))) (by decide +kernel))) (by decide +kernel), by decide +kernel, by decide +kernel, by decide +kernel, by decide +kernel, okVal_eq _ _, okVal_eq _ _⟩),
   (⟨dm [0, 0, 0, 0, 232, 3], devI [], descByte (dm [0, 0, 0, 0, 232, 3]) 16, image1 [], (beginDesc opDroveRebalance (dm [0, 0, 0, 0, 232, 3]) (devI [])).modSnap (descByte (dm [0, 0, 0, 0, 232, 3]) 16) (fun q => if q.halted && q.lostMember.isNone then { q with halted := false, state := 0 } else q), rfl, by unfold Admitted; decide +kernel, by decide +kernel, by decide +kernel, by decide +kernel, by decide +kernel, by decide +kernel, by decide +kernel, by decide +kernel, by decide +kernel, rfl, by decide +kernel⟩),
   (⟨dm [0, 0, 0, 0, 232, 3], memI, descByte (dm [0, 0, 0, 0, 232, 3]) 16, { image1 [] with members := 2 }, (beginDesc opDroveRebalance (dm [0, 0, 0, 0, 232, 3]) (memI)).modSnap (descByte (dm [0, 0, 0, 0, 232, 3]) 16) (fun q => if q.halted && q.lostMember.isNone then { q with halted := false, state := 0 } else q), rfl, by unfold Admitted; decide +kernel, by decide +kernel, by decide +kernel, by decide +kernel, by decide +kernel, by decide +kernel, by decide +kernel, by decide +kernel, by decide +kernel, rfl, by decide +kernel, ⟨_, okVal_eq _ (by decide +kernel)⟩⟩)⟩

/-- States and operands that meet the hypotheses of `InstallingAndRemovingKeys`, clause by clause. -/
theorem witness_InstallingAndRemovingKeys :
    ((Config.ecPointOk (okVal ((dev).hostRead (0) (descNum (keyD 0) 24 6) 97) (by decide +kernel)) = true) → ∃ (d : Desc) (s : State) (f : Nat) (pt : List Byte), f = s.ringOwner d.ring ∧ descByte d 16 = 0 ∧ Admitted opKeyInstall false d s ∧ bodyReserved d [(16, 16), (24, 29), (32, 47)] = true ∧ s.hostRead f (descNum d 24 6) 97 = .ok pt ∧ holdsKey (s.fold f).key.ownerKeys (descBytes d 32 16) = false ∧ (s.fold f).key.ownerKeys.length < 16 ∧ Config.ecPointOk pt = true) ∧
    (∀ (key : List Byte), (unwrapKey (eph1) (descBytes (keyD 1) 32 16) (okVal ((blobS).hostRead (0) (descNum (keyD 1) 24 6) 256) (by decide +kernel)) = some (key)) → ∃ (d : Desc) (s : State) (f : Nat) (b : List Byte) (key : List Byte) (e : Ephemeral), f = s.ringOwner d.ring ∧ descByte d 16 = 1 ∧ Admitted opKeyInstall false d s ∧ bodyReserved d [(16, 16), (24, 29), (32, 47)] = true ∧ s.hostRead f (descNum d 24 6) 256 = .ok b ∧ blobOk b = true ∧ holdsKey (s.fold f).key.imageKeys (descBytes d 32 16) = false ∧ (s.fold f).key.imageKeys.length < 32 ∧ (s.fold f).key.ephemeral = some e ∧ unwrapKey e (descBytes d 32 16) b = some key) ∧
    (∃ (d : Desc) (s : State) (f : Nat), f = s.ringOwner d.ring ∧ descByte d 16 = 2 ∧ Admitted opKeyInstall false d s ∧ bodyReserved d [(16, 16), (24, 29), (32, 47)] = true ∧ (holdsKey (s.fold f).key.imageKeys (descBytes d 32 16) = true ∨ holdsKey (s.fold f).key.ownerKeys (descBytes d 32 16) = true) ∧ s.keyInUse f (descBytes d 32 16) = false) :=
  ⟨(fun h7 => ⟨keyD 0, dev, 0, okVal ((dev).hostRead (0) (descNum (keyD 0) 24 6) 97) (by decide +kernel), by decide +kernel, by decide +kernel, by unfold Admitted; decide +kernel, by decide +kernel, okVal_eq _ _, by decide +kernel, by decide +kernel, h7⟩),
   (fun key h9 => ⟨keyD 1, blobS, 0, okVal ((blobS).hostRead (0) (descNum (keyD 1) 24 6) 256) (by decide +kernel), key, eph1, by decide +kernel, by decide +kernel, by unfold Admitted; decide +kernel, by decide +kernel, okVal_eq _ _, by decide +kernel, by decide +kernel, by decide +kernel, by decide +kernel, h9⟩),
   (⟨keyD 2, devF (fun x => { x with key := { x.key with imageKeys := [(List.replicate 16 5, [])] } }), 0, by decide +kernel, by decide +kernel, by unfold Admitted; decide +kernel, by decide +kernel, by decide +kernel, by decide +kernel⟩)⟩

/-- States and operands that meet the hypotheses of `RotatingKeys`, clause by clause. -/
theorem witness_RotatingKeys :
    (∃ (d : Desc) (s : State) (f : Nat) (r : List Byte × State), f = s.ringOwner d.ring ∧ Admitted opKeyRotate false d s ∧ bodyReserved d [] = true ∧ (s.fold f).key.state = 1 ∧ (s.fold f).key.next = none ∧ (s.fold f).key.g ≠ BitVec.allOnes 32 ∧ drbg 64 (beginDesc opKeyRotate d s) = some r ∧ (s.fold f).ns.state ≠ nsReadOnly) ∧
    (∃ (f : Nat) (key : List Byte) (d : Desc) (s : State), s.ready = true ∧ (s.fold f).key.next = some (key, d)) ∧
    (∃ (f : Nat) (s : State), s.ready = true ∧ (s.fold f).key.state = 2 ∧ (s.fold f).key.old ≠ [] ∧ (s.fold f).key.sweepLeft = 0 ∧ (s.fold f).ns.state = nsAbsent) ∧
    (∃ (f : Nat) (s : State), s.ready = true ∧ (s.fold f).key.state = 2 ∧ (s.fold f).key.old ≠ [] ∧ (s.fold f).key.sweepLeft ≠ 0 ∧ (s.fold f).key.passEnd = none ∧ s.act (rSecSweepRate f) = 0) ∧
    (∃ (f : Nat) (t : Nat) (s : State), s.ready = true ∧ (s.fold f).key.passEnd = some t ∧ t + 1000000 ≤ s.now) :=
  ⟨(⟨dr [], dev, 0, someVal (drbg 64 (beginDesc opKeyRotate (dr []) (dev))) (by decide +kernel), by decide +kernel, by unfold Admitted; decide +kernel, by decide +kernel, by decide +kernel, by decide +kernel, by decide +kernel, someVal_eq _ _, by decide +kernel⟩),
   (⟨0, [3], dr [], devF (fun x => { x with key := { x.key with next := some ([3], dr []) } }), by decide +kernel, by decide +kernel⟩),
   (⟨0, devF (fun x => { x with key := { x.key with state := 2, old := [4] } }), by decide +kernel, by decide +kernel, by decide +kernel, by decide +kernel, by decide +kernel⟩),
   (⟨0, withR [(rSecSweepRate 0, 0)] (devF (fun x => { x with key := { x.key with state := 2, old := [4], sweepLeft := 1 } })), by decide +kernel, by decide +kernel, by decide +kernel, by decide +kernel, by decide +kernel, by decide +kernel⟩),
   (⟨0, 4000000, devF (fun x => { x with key := { x.key with passEnd := some 4000000 } }), by decide +kernel, by decide +kernel, by decide +kernel⟩)⟩

/-- States and operands that meet the hypotheses of `AttestationAndEphemeralKeys`, clause by clause. -/
theorem witness_AttestationAndEphemeralKeys :
    (∃ (d : Desc) (s : State) (f : Nat) (p : Nat) (nonce : List Byte) (sig : List Byte × State) (b : State), f = s.ringOwner d.ring ∧ b = beginDesc opAttest d s ∧ Admitted opAttest false d s ∧ attestReserved d = true ∧ descByte d 32 = 0 ∧ s.evidenceLen ≤ descNum d 36 4 ∧ s.sec.tainted = false ∧ s.hostRead f (descNum d 16 6) 48 = .ok nonce ∧ s.hostPhys f (descNum d 24 6) s.evidenceLen 0 = .ok p ∧ signAk (evidenceBody b f nonce none) b = some sig ∧ (evidenceBody b f nonce none ++ sig.1).length = s.evidenceLen) ∧
    (∃ (d : Desc) (s : State) (f : Nat) (p : Nat) (nonce : List Byte) (k : List Byte × State) (sig : List Byte × State) (b : State), f = s.ringOwner d.ring ∧ b = beginDesc opAttest d s ∧ Admitted opAttest false d s ∧ attestReserved d = true ∧ descByte d 32 = 1 ∧ s.evidenceLen ≤ descNum d 36 4 ∧ s.sec.tainted = false ∧ s.hostRead f (descNum d 16 6) 48 = .ok nonce ∧ s.hostPhys f (descNum d 24 6) s.evidenceLen 0 = .ok p ∧ drbg 64 b = some k ∧ signAk (evidenceBody k.2 f nonce (some (Config.ecPublic (scalarOf k.1)))) k.2 = some sig ∧ (evidenceBody k.2 f nonce (some (Config.ecPublic (scalarOf k.1))) ++ sig.1).length = s.evidenceLen) ∧
    (∃ (d : Desc) (s : State) (f : Nat) (p : Nat) (l : List Byte), f = s.ringOwner d.ring ∧ Admitted opAttest false d s ∧ attestReserved d = true ∧ descByte d 32 = 2 ∧ l = leBytes 4 (s.sec.chain.length + 1) ++ (s.sec.chain ++ [s.sec.aliasCert]).flatMap (fun c => leBytes 4 c.length ++ c) ∧ l.length ≤ descNum d 36 4 ∧ s.sec.tainted = false ∧ s.hostPhys f (descNum d 24 6) l.length 0 = .ok p) ∧
    (∃ (f : Nat) (e : Ephemeral) (s : State), s.ready = true ∧ (s.fold f).key.ephemeral = some e ∧ e.created + max 1000000 (s.act rSecEphLife) ≤ s.now) :=
  ⟨(⟨evD 0, dev, 0, okVal ((dev).hostPhys (0) (descNum (evD 0) 24 6) (dev).evidenceLen 0) (by decide +kernel), okVal ((dev).hostRead (0) (descNum (evD 0) 16 6) 48) (by decide +kernel), someVal (signAk (evidenceBody (beginDesc opAttest (evD 0) (dev)) (0) (okVal ((dev).hostRead (0) (descNum (evD 0) 16 6) 48) (by decide +kernel)) none) (beginDesc opAttest (evD 0) (dev))) (by decide +kernel), beginDesc opAttest (evD 0) (dev), by decide +kernel, rfl, by unfold Admitted; decide +kernel, by decide +kernel, by decide +kernel, by decide +kernel, by decide +kernel, okVal_eq _ _, okVal_eq _ _, someVal_eq _ _, by decide +kernel⟩),
   (⟨evD 1, dev, 0, okVal ((dev).hostPhys (0) (descNum (evD 1) 24 6) (dev).evidenceLen 0) (by decide +kernel), okVal ((dev).hostRead (0) (descNum (evD 1) 16 6) 48) (by decide +kernel), someVal (drbg 64 (beginDesc opAttest (evD 1) (dev))) (by decide +kernel), someVal (signAk (evidenceBody (someVal (drbg 64 (beginDesc opAttest (evD 1) (dev))) (by decide +kernel)).2 (0) (okVal ((dev).hostRead (0) (descNum (evD 1) 16 6) 48) (by decide +kernel)) (some (Config.ecPublic (scalarOf (someVal (drbg 64 (beginDesc opAttest (evD 1) (dev))) (by decide +kernel)).1)))) (someVal (drbg 64 (beginDesc opAttest (evD 1) (dev))) (by decide +kernel)).2) (by decide +kernel), beginDesc opAttest (evD 1) (dev), by decide +kernel, rfl, by unfold Admitted; decide +kernel, by decide +kernel, by decide +kernel, by decide +kernel, by decide +kernel, okVal_eq _ _, okVal_eq _ _, someVal_eq _ _, someVal_eq _ _, by decide +kernel⟩),
   (⟨evD 2, dev, 0, okVal ((dev).hostPhys (0) (descNum (evD 2) 24 6) (leBytes 4 ((dev).sec.chain.length + 1) ++ ((dev).sec.chain ++ [(dev).sec.aliasCert]).flatMap (fun c => leBytes 4 c.length ++ c)).length 0) (by decide +kernel), leBytes 4 ((dev).sec.chain.length + 1) ++ ((dev).sec.chain ++ [(dev).sec.aliasCert]).flatMap (fun c => leBytes 4 c.length ++ c), by decide +kernel, by unfold Admitted; decide +kernel, by decide +kernel, by decide +kernel, rfl, by decide +kernel, by decide +kernel, okVal_eq _ _⟩),
   (⟨0, eph1, withR [(rSecEphLife, 0)] (devF (fun x => { x with key := { x.key with ephemeral := some eph1 } })), by decide +kernel, by decide +kernel, by decide +kernel⟩)⟩

/-- States and operands that meet the hypotheses of `QuotaRoleDiscardAndHealth`, clause by clause. -/
theorem witness_QuotaRoleDiscardAndHealth :
    (∃ (d : Desc) (s : State) (f : Nat) (t : Nat), f = descByte d 16 ∧ t = descByte d 17 ∧ Admitted opQuotaSet false d s ∧ bodyReserved d [(16, 17), (20, 23)] = true ∧ s.formed f = true ∧ 2 ≤ t ∧ t ≤ 4 ∧ descNum d 20 4 ≤ s.quotaBound f t) ∧
    (∃ (d : Desc) (s : State) (f : Nat) (t : Nat), f = descByte d 16 ∧ t = descByte d 17 ∧ Admitted opQuotaSet false d s ∧ bodyReserved d [(16, 17), (20, 23)] = true ∧ s.formed f = true ∧ 2 ≤ t ∧ t ≤ 4 ∧ descNum d 20 4 ≤ s.quotaBound f t) ∧
    (∃ (d : Desc) (s : State) (f : Nat), f = descByte d 16 ∧ Admitted opRoleSet false d s ∧ bodyReserved d [(16, 17), (20, 23)] = true ∧ s.formed f = true ∧ descByte d 17 ≤ 1 ∧ (s.fold f).drain = none ∧ (s.fold f).role ≠ descByte d 17 ∧ s.isRoot f = true) ∧
    (∃ (d : Desc) (s : State) (f : Nat), f = descByte d 16 ∧ Admitted opRoleSet false d s ∧ bodyReserved d [(16, 17), (20, 23)] = true ∧ s.formed f = true ∧ descByte d 17 ≤ 1 ∧ (s.fold f).drain = none ∧ (s.fold f).role ≠ descByte d 17 ∧ s.isRoot f = false ∧ (∃ t, startDrain f 0 (descNum d 20 4) d (descByte d 17) (beginDesc opRoleSet d s) = .ok t)) ∧
    (∃ (f : Nat) (q : Drain) (s : State), s.ready = true ∧ (s.fold f).drain = some q ∧ q.loading = false ∧ q.deadline ≤ s.now) ∧
    (∃ (d : Desc) (s : State) (f : Nat) (a : Nat) (n : Nat) (skip : List Nat) (drop : List Nat), f = s.ringOwner d.ring ∧ a = descNum d 16 6 ∧ n = descNum d 24 4 ∧ Admitted opFlashDiscard false d s ∧ bodyReserved d [(16, 21), (24, 27)] = true ∧ a % 65536 = 0 ∧ 1 ≤ n ∧ n ≤ 16777216 ∧ s.winBase f ≤ a ∧ a + n * 65536 ≤ s.winLimit f ∧ skip = ((keysN (s.fold f).sheets).filter (fun i => decide (s.mapIndex f a ≤ i) && decide (i < s.mapIndex f a + n))).filter (discardSkips s f) ∧ drop = ((keysN (s.fold f).sheets).filter (fun i => decide (s.mapIndex f a ≤ i) && decide (i < s.mapIndex f a + n))).filter (fun i => !discardSkips s f i) ∧ (∀ i ∈ drop, ((s.fold f).sheet i).tier ≠ 3)) ∧
    (∃ (d : Desc) (s : State) (t : State) (f : Nat), f = s.ringOwner d.ring ∧ Admitted opHealthRead false d s ∧ bodyReserved d [(16, 21), (24, 24)] = true ∧ descByte d 24 = 0 ∧ (s.fold f).ns.state ≠ nsAbsent ∧ writeLocal f (descNum d 16 6) (healthPage (beginDesc opHealthRead d s) f) (beginDesc opHealthRead d s) = .ok t) ∧
    (∃ (d : Desc) (s : State) (t : State) (f : Nat), f = s.ringOwner d.ring ∧ Admitted opHealthRead false d s ∧ bodyReserved d [(16, 21), (24, 24)] = true ∧ descByte d 24 = 1 ∧ (s.fold f).ns.state ≠ nsAbsent ∧ writeLocal f (descNum d 16 6) (grownBadLog (s.fold f).ns) (beginDesc opHealthRead d s) = .ok t) ∧
    (∃ (d : Desc) (row : Desc → Instr) (l : List Byte) (s : State) (b : State) (f : Nat) (p : Nat), f = s.ringOwner d.ring ∧ b = beginDesc opHealthRead d s ∧ Admitted opHealthRead false d s ∧ bodyReserved d [(16, 21), (24, 24)] = true ∧ ((row, descByte d 24, l) = (Instr.healthRead, 0, healthPage b f) ∨ (row, descByte d 24, l) = (Instr.healthReadGrownBad, 1, grownBadLog (s.fold f).ns)) ∧ (s.fold f).ns.state ≠ nsAbsent ∧ b.place f (descNum d 16 6) l.length 0 = .ok (.host p)) ∧
    (∃ (d : Desc) (row : Desc → Instr) (l : List Byte) (s : State) (b : State) (f : Nat) (p : Nat), f = s.ringOwner d.ring ∧ b = beginDesc opHealthRead d s ∧ Admitted opHealthRead false d s ∧ bodyReserved d [(16, 21), (24, 24)] = true ∧ ((row, descByte d 24, l) = (Instr.healthRead, 0, healthPage b f) ∨ (row, descByte d 24, l) = (Instr.healthReadGrownBad, 1, grownBadLog (s.fold f).ns)) ∧ (s.fold f).ns.state ≠ nsAbsent ∧ b.place f (descNum d 16 6) l.length 0 = .ok (.host p)) :=
  ⟨(⟨dm ([0, 2, 0, 0] ++ leBytes 4 (dev.quotaBound 0 2)), dev, descByte (dm ([0, 2, 0, 0] ++ leBytes 4 (dev.quotaBound 0 2))) 16, descByte (dm ([0, 2, 0, 0] ++ leBytes 4 (dev.quotaBound 0 2))) 17, rfl, rfl, by unfold Admitted; decide +kernel, by decide +kernel, by decide +kernel, by decide +kernel, by decide +kernel, by decide +kernel⟩),
   (⟨dm [0, 4], dev, descByte (dm [0, 4]) 16, descByte (dm [0, 4]) 17, rfl, rfl, by unfold Admitted; decide +kernel, by decide +kernel, by decide +kernel, by decide +kernel, by decide +kernel, by decide +kernel⟩),
   (⟨dm [0, 1, 0, 0, 1], dev, descByte (dm [0, 1, 0, 0, 1]) 16, rfl, by unfold Admitted; decide +kernel, by decide +kernel, by decide +kernel, by decide +kernel, by decide +kernel, by decide +kernel, by decide +kernel⟩),
   (⟨dm [0, 1, 0, 0, 1], memR dev, descByte (dm [0, 1, 0, 0, 1]) 16, rfl, by unfold Admitted; decide +kernel, by decide +kernel, by decide +kernel, by decide +kernel, by decide +kernel, by decide +kernel, by decide +kernel, ⟨_, okVal_eq _ (by decide +kernel)⟩⟩),
   (⟨0, { kind := 0, deadline := 5000000, desc := dm [], arg := 1, loading := false, boundary := 0 }, devF (fun x => { x with drain := some { kind := 0, deadline := 5000000, desc := dm [], arg := 1, loading := false, boundary := 0 } }), by decide +kernel, by decide +kernel, by decide +kernel, by decide +kernel⟩),
   (⟨discD, discS, 0, descNum (discD) 16 6, descNum (discD) 24 4, ((keysN ((discS).fold (0)).sheets).filter (fun i => decide ((discS).mapIndex (0) (descNum (discD) 16 6) ≤ i) && decide (i < (discS).mapIndex (0) (descNum (discD) 16 6) + (descNum (discD) 24 4)))).filter (discardSkips (discS) (0)), ((keysN ((discS).fold (0)).sheets).filter (fun i => decide ((discS).mapIndex (0) (descNum (discD) 16 6) ≤ i) && decide (i < (discS).mapIndex (0) (descNum (discD) 16 6) + (descNum (discD) 24 4)))).filter (fun i => !discardSkips (discS) (0) i), by decide +kernel, rfl, rfl, by unfold Admitted; decide +kernel, by decide +kernel, by decide +kernel, by decide +kernel, by decide +kernel, by decide +kernel, by decide +kernel, rfl, rfl, by decide +kernel⟩),
   (⟨healthD 0, devF (fun x => { x with ns := { x.ns with state := nsNormal } }), okVal (writeLocal (0) (descNum (healthD 0) 16 6) (healthPage (beginDesc opHealthRead (healthD 0) (devF (fun x => { x with ns := { x.ns with state := nsNormal } }))) (0)) (beginDesc opHealthRead (healthD 0) (devF (fun x => { x with ns := { x.ns with state := nsNormal } })))) (by decide +kernel), 0, by decide +kernel, by unfold Admitted; decide +kernel, by decide +kernel, by decide +kernel, by decide +kernel, okVal_eq _ _⟩),
   (⟨healthD 1, devF (fun x => { x with ns := { x.ns with state := nsNormal } }), okVal (writeLocal (0) (descNum (healthD 1) 16 6) (grownBadLog ((devF (fun x => { x with ns := { x.ns with state := nsNormal } })).fold (0)).ns) (beginDesc opHealthRead (healthD 1) (devF (fun x => { x with ns := { x.ns with state := nsNormal } })))) (by decide +kernel), 0, by decide +kernel, by unfold Admitted; decide +kernel, by decide +kernel, by decide +kernel, by decide +kernel, okVal_eq _ _⟩),
   (⟨healthD 0, Instr.healthRead, healthPage (beginDesc opHealthRead (healthD 0) (devF (fun x => { x with ns := { x.ns with state := nsNormal } }))) 0, devF (fun x => { x with ns := { x.ns with state := nsNormal } }), beginDesc opHealthRead (healthD 0) (devF (fun x => { x with ns := { x.ns with state := nsNormal } })), 0, 0x110000, by decide +kernel, rfl, by unfold Admitted; decide +kernel, by decide +kernel, Or.inl rfl, by decide +kernel, host_of (by decide +kernel)⟩),
   (⟨healthD 1, Instr.healthReadGrownBad, grownBadLog ((devF (fun x => { x with ns := { x.ns with state := nsNormal } })).fold 0).ns, devF (fun x => { x with ns := { x.ns with state := nsNormal } }), beginDesc opHealthRead (healthD 1) (devF (fun x => { x with ns := { x.ns with state := nsNormal } })), 0, 0x110000, by decide +kernel, rfl, by unfold Admitted; decide +kernel, by decide +kernel, Or.inr rfl, by decide +kernel, host_of (by decide +kernel)⟩)⟩

/-- States and operands that meet the hypotheses of `GateLists`, clause by clause. -/
theorem witness_GateLists :
    (∃ (d : Desc) (s : State) (b : List Byte) (ports : List Nat) (n : Nat) (start : Nat), ports = bitsSet 18 (descNum d 24 4) ∧ n = descByte d 28 ∧ start = descNum d 32 8 ∧ bitOf (descByte d 29) 0 = false ∧ Admitted opGateListLoad false d s ∧ gateReserved d = true ∧ 1 ≤ n ∧ n ≤ 64 ∧ ports ≠ [] ∧ s.hostRead mgmtPath (descNum d 16 6) (8 * n) = .ok b ∧ (∀ e ∈ gateEntries b, 20 ≤ e.ns) ∧ (∀ i < n, leAt b (8 * i + 2) 2 = 0) ∧ (∀ p ∈ ports, (s.port p).pendingGates = none)) ∧
    (∃ (d : Desc) (s : State) (ports : List Nat), ports = bitsSet 18 (descNum d 24 4) ∧ bitOf (descByte d 29) 0 = true ∧ Admitted opGateListLoad false d s ∧ gateReserved d = true ∧ descByte d 28 = 0 ∧ ports ≠ []) ∧
    (∃ (p : Nat) (start : Nat) (l : List GateEntry) (s : State), s.ready = true ∧ p < 18 ∧ (s.port p).pendingGates = some (l, start) ∧ start ≤ s.now) ∧
    (∃ (p : Nat) (l : List GateEntry) (s : State), s.ready = true ∧ p < 18 ∧ (s.port p).gates = some l ∧ l ≠ []) :=
  ⟨(⟨gateD, gateS, okVal ((gateS).hostRead mgmtPath (descNum (gateD) 16 6) (8 * (descByte (gateD) 28))) (by decide +kernel), bitsSet 18 (descNum (gateD) 24 4), descByte (gateD) 28, descNum (gateD) 32 8, rfl, rfl, rfl, by decide +kernel, by unfold Admitted; decide +kernel, by decide +kernel, by decide +kernel, by decide +kernel, by decide +kernel, okVal_eq _ _, by decide +kernel, by decide +kernel, by decide +kernel⟩),
   (⟨dm (zerosB 8 ++ leBytes 4 0x20001 ++ [0, 1]), dev, bitsSet 18 (descNum (dm (zerosB 8 ++ leBytes 4 0x20001 ++ [0, 1])) 24 4), rfl, by decide +kernel, by unfold Admitted; decide +kernel, by decide +kernel, by decide +kernel, by decide +kernel⟩),
   (⟨17, 5000000, [⟨1, 20⟩], gatePort (fun x => { x with pendingGates := some ([⟨1, 20⟩], 5000000) }), by decide +kernel, by decide +kernel, by decide +kernel, by decide +kernel⟩),
   (⟨17, [⟨1, 20⟩], gatePort (fun x => { x with gates := some [⟨1, 20⟩] }), by decide +kernel, by decide +kernel, by decide +kernel, by decide +kernel⟩)⟩

/-- States and operands that meet the hypotheses of `StepsRunAndCommit`, clause by clause. -/
theorem witness_StepsRunAndCommit :
    (∃ (f : Nat) (x : Image) (s : State) (b : State) (t : State), s.ready = true ∧ s.activeImage f = some x ∧ s.formed f = true ∧ (s.fold f).step = none ∧ (s.fold f).nextWork ≠ [] ∧ (s.fold f).snap.halted = false ∧ s.ackWaits f = false ∧ s.seated f = true ∧ b = admitQueries f (openStep f s) ∧ draftPhase f x ((List.range (bitsOf ((b.fold f).penList.foldl (fun s n => s.modPen n (fun p => { p with raccMark := p.raccCount })) b |>.act (rInkPrefetch f)) 3 0)).foldl (fun s j => prefetchLayer f j s) ((b.fold f).penList.foldl (fun s n => s.modPen n (fun p => { p with raccMark := p.raccCount })) b)) = .ok t) ∧
    (∃ (f : Nat) (x : Image) (s : State) (b : State) (u : State), s.ready = true ∧ s.activeImage f = some x ∧ s.formed f = true ∧ (s.fold f).step = none ∧ (s.fold f).nextWork ≠ [] ∧ (s.fold f).snap.halted = false ∧ s.ackWaits f = false ∧ s.seated f = true ∧ b = admitQueries f (openStep f s) ∧ u = (List.range (bitsOf ((b.fold f).penList.foldl (fun s n => s.modPen n (fun p => { p with raccMark := p.raccCount })) b |>.act (rInkPrefetch f)) 3 0)).foldl (fun s j => prefetchLayer f j s) ((b.fold f).penList.foldl (fun s n => s.modPen n (fun p => { p with raccMark := p.raccCount })) b) ∧ u.draftSource f ≠ 1) ∧
    (∃ (f : Nat) (s : State), s.ready = true ∧ s.formed f = true ∧ (s.fold f).step = none ∧ (s.fold f).nextWork = [] ∧ s.boundaryWaits f = true ∧ (s.fold f).snap.halted = false ∧ s.ackWaits f = false ∧ s.isRoot f = true ∧ (s.fold f).awaiting = false) ∧
    (∃ (f : Nat) (st : Step) (s : State), s.ready = true ∧ (s.fold f).step = some st ∧ st.verdicts = none ∧ s.isRoot f = true ∧ s.stepRun f = true ∧ s.slicesIn f = true ∧ (mergeSlices f s).logitsWhole f = true) ∧
    (∃ (f : Nat) (st : Step) (img : Image) (record : List SeqVerdict) (vs : List SeqVerdict) (s : State), s.ready = true ∧ (s.fold f).step = some st ∧ s.activeImage f = some img ∧ (s.isRoot f = true ∧ st.verdicts = some vs ∨ s.isRoot f = false ∧ s.stepRun f = true ∧ vs = st.verdicts.getD record)) ∧
    (∃ (f : Nat) (st : Step) (img : Image) (record : List SeqVerdict) (vs : List SeqVerdict) (s : State), s.ready = true ∧ (s.fold f).step = some st ∧ s.activeImage f = some img ∧ (s.isRoot f = true ∧ st.verdicts = some vs ∨ s.isRoot f = false ∧ s.stepRun f = true ∧ vs = st.verdicts.getD record)) ∧
    (∃ (f : Nat) (k : Nat) (s : State), s.ready = true ∧ s.formed f = true ∧ s.act (rSchAcctInterval f) ≠ 0 ∧ k = (s.fold f).acctPage + 1 ∧ (s.fold f).acctFrom + k * s.act (rSchAcctInterval f) ≤ s.now) ∧
    (∃ (x : W64) (y : Sess) (w : TxWait) (s : State), s.ready = true ∧ s.sess x = some y ∧ y.txWait = some w) :=
  ⟨(⟨0, image1 [], listS, admitQueries (0) (openStep (0) (listS)), okVal (draftPhase (0) (image1 []) ((List.range (bitsOf (((admitQueries (0) (openStep (0) (listS))).fold (0)).penList.foldl (fun (listS) n => (listS).modPen n (fun p => { p with raccMark := p.raccCount })) (admitQueries (0) (openStep (0) (listS))) |>.act (rInkPrefetch (0))) 3 0)).foldl (fun (listS) j => prefetchLayer (0) j (listS)) (((admitQueries (0) (openStep (0) (listS))).fold (0)).penList.foldl (fun (listS) n => (listS).modPen n (fun p => { p with raccMark := p.raccCount })) (admitQueries (0) (openStep (0) (listS)))))) (by decide +kernel), by decide +kernel, by decide +kernel, by decide +kernel, by decide +kernel, by decide +kernel, by decide +kernel, by decide +kernel, by decide +kernel, rfl, okVal_eq _ _⟩),
   (⟨0, image1 [], listS, admitQueries (0) (openStep (0) (listS)), (List.range (bitsOf (((admitQueries (0) (openStep (0) (listS))).fold (0)).penList.foldl (fun (listS) n => (listS).modPen n (fun p => { p with raccMark := p.raccCount })) (admitQueries (0) (openStep (0) (listS))) |>.act (rInkPrefetch (0))) 3 0)).foldl (fun (listS) j => prefetchLayer (0) j (listS)) (((admitQueries (0) (openStep (0) (listS))).fold (0)).penList.foldl (fun (listS) n => (listS).modPen n (fun p => { p with raccMark := p.raccCount })) (admitQueries (0) (openStep (0) (listS)))), by decide +kernel, by decide +kernel, by decide +kernel, by decide +kernel, by decide +kernel, by decide +kernel, by decide +kernel, by decide +kernel, rfl, rfl, by decide +kernel⟩),
   (⟨0, (devI []).modFold 0 (fun x => { x with seqs := [(0, seq1)] }), by decide +kernel, by decide +kernel, by decide +kernel, by decide +kernel, by decide +kernel, by decide +kernel, by decide +kernel, by decide +kernel, by decide +kernel⟩),
   (⟨0, { step1 with rows := [] }, doneS none, by decide +kernel, by decide +kernel, by decide +kernel, by decide +kernel, by decide +kernel, by decide +kernel, by decide +kernel⟩),
   (⟨0, { step1 with rows := [], verdicts := some [] }, image1 [], [], [], doneS (some []), by decide +kernel, by decide +kernel, by decide +kernel, Or.inl (by decide +kernel)⟩),
   (⟨0, { step1 with rows := [] }, image1 [], [], [], withR [(rFabSelf, 2 ^ 31 + 7), (rFabFoldDrove 0, 2 ^ 32 + 9), (rFabFoldMember 0, 1 + 2 * 2 ^ 18 + 3 * 2 ^ 46)] (doneS none), by decide +kernel, by decide +kernel, by decide +kernel, Or.inr (by decide +kernel)⟩),
   (⟨0, 1, withR [(rSchAcctInterval 0, 5000000)] dev, by decide +kernel, by decide +kernel, by decide +kernel, by decide +kernel, by decide +kernel⟩),
   (⟨1, { sess1 id with txWait := some wait1 }, wait1, withS { sess1 id with txWait := some wait1 } dev, by decide +kernel, by decide +kernel, by decide +kernel⟩)⟩

/-- States and operands that meet the hypotheses of `VectorRows`, clause by clause. -/
theorem witness_VectorRows :
    ∀ p ∈ [(0x20, 0), (0x20, 1), (0x20, 2), (0x20, 3), (0x20, 4), (0x20, 5), (0x20, 6), (0x20, 7), (0x20, 8), (0x20, 9), (0x20, 10),
      (0x21, 0), (0x21, 1), (0x21, 2), (0x23, 0), (0x23, 1), (0x23, 2), (0x23, 3)], RowMet p.1 p.2 :=
  fun p hp => rowMet_of_meets (List.all_eq_true.mp
    (by decide +kernel : ([(0x20, 0), (0x20, 1), (0x20, 2), (0x20, 3), (0x20, 4), (0x20, 5), (0x20, 6), (0x20, 7), (0x20, 8), (0x20, 9), (0x20, 10),
      (0x21, 0), (0x21, 1), (0x21, 2), (0x23, 0), (0x23, 1), (0x23, 2), (0x23, 3)] : List (Nat × Nat)).all (fun p => meets p.1 p.2) = true) p hp)

/-- States and operands that meet the hypotheses of `NormRopeAndRouteRows`, clause by clause. -/
theorem witness_NormRopeAndRouteRows :
    (∃ (n : Nat) (op : OpWord) (f : Nat) (s : State) (a : Nat) (d : Nat) (c : Ctx), c = ⟨f, n, false⟩ ∧ Runs n op 0x21 (some 3) f s ∧ 1 ≤ opLen op ∧ c.operand s op 32 (opLen op) (opFa op) = .ok a ∧ c.operand s op 76 1 0 = .ok d ∧ (∀ r, ∀ v ∈ (vecAt s a (opFa op) (opLen op) r).1, fpIsNan v = false)) ∧
    (∃ (op : OpWord) (s t : State), Runs 0 op 0x21 (some 4) 0 s ∧ vredCombine op ⟨0, 0, false⟩ s = .ok t) ∧
    (∃ (n : Nat) (op : OpWord) (f : Nat) (s : State) (a : Nat) (d : Nat) (rt : Nat × Nat) (c : Ctx), c = ⟨f, n, false⟩ ∧ Runs n op 0x21 (some 4) f s ∧ (s.pen n).route = some rt ∧ 1 ≤ opLen op ∧ c.operand s op 32 (rt.2 * opLen op) (opFa op) = .ok a ∧ c.operand s op 76 (opLen op) (opFd op) = .ok d) ∧
    (∃ (n : Nat) (op : OpWord) (f : Nat) (s : State) (a : Nat) (d : Nat) (g : List W32 × Bool) (c : Ctx), c = ⟨f, n, false⟩ ∧ Runs n op 0x22 (some 0) f s ∧ 1 ≤ opLen op ∧ c.operand s op 32 (opLen op) (opFa op) = .ok a ∧ gainAt c s op (opLen op) 0 = .ok g ∧ c.operand s op 76 (opLen op) (opFd op) = .ok d) ∧
    (∃ (op : OpWord) (s t : State), Runs 0 op 0x22 (some 1) 0 s ∧ normLayer op ⟨0, 0, false⟩ s = .ok t) ∧
    (∃ (n : Nat) (op : OpWord) (f : Nat) (s : State) (a : Nat) (d : Nat) (g : List W32 × Bool) (b : List W32 × Bool) (c : Ctx), c = ⟨f, n, false⟩ ∧ Runs n op 0x22 (some 1) f s ∧ 1 ≤ opLen op ∧ c.operand s op 32 (opLen op) (opFa op) = .ok a ∧ gainAt c s op (opLen op) 0 = .ok g ∧ gainAt c s op (opLen op) (rowBytes (opFb op) (opLen op)) = .ok b ∧ c.operand s op 76 (opLen op) (opFd op) = .ok d) ∧
    (∃ (op : OpWord) (s : State) (a d : Nat), Runs 0 op 0x24 (some 0) 0 s ∧ opBits op 63 54 = 1 ∧ opBits op 72 64 = 64 ∧ opBits op 106 98 = 64 ∧
      (⟨0, 0, false⟩ : Ctx).operand s op 32 (1 * 64) (opFa op) = .ok a ∧ (⟨0, 0, false⟩ : Ctx).operand s op 76 (1 * 64) (opFd op) = .ok d) ∧
    (∃ (op : OpWord) (s : State) (a d : Nat), Runs 0 op 0x24 (some 1) 0 s ∧ opBits op 63 54 = 1 ∧ opBits op 72 64 = 64 ∧ opBits op 106 98 = 64 ∧
      (⟨0, 0, false⟩ : Ctx).operand s op 32 (1 * 64) (opFa op) = .ok a ∧ (⟨0, 0, false⟩ : Ctx).operand s op 76 (1 * 64) (opFd op) = .ok d) ∧
    (∃ (op : OpWord) (s : State) (a d : Nat), Runs 0 op 0x38 (some 0) 0 s ∧ opBits op 57 54 = 8 ∧ opLen op = 8 ∧
      (⟨0, 0, false⟩ : Ctx).operand s op 32 8 0 = .ok a ∧ (⟨0, 0, false⟩ : Ctx).oa s (opBits op 97 76) (((⟨0, 0, false⟩ : Ctx).rows s).length * 64) = .ok d) ∧
    (∃ (op : OpWord) (s : State) (a d : Nat), Runs 0 op 0x38 (some 1) 0 s ∧ opBits op 57 54 = 8 ∧ opLen op = 8 ∧
      (⟨0, 0, false⟩ : Ctx).operand s op 32 8 0 = .ok a ∧ (⟨0, 0, false⟩ : Ctx).oa s (opBits op 97 76) (((⟨0, 0, false⟩ : Ctx).rows s).length * 64) = .ok d) ∧
    (∃ (op : OpWord) (s : State) (a d : Nat), Runs 0 op 0x38 (some 2) 0 s ∧ opBits op 57 54 = 8 ∧ opLen op = 8 ∧
      (⟨0, 0, false⟩ : Ctx).operand s op 32 8 0 = .ok a ∧ (⟨0, 0, false⟩ : Ctx).oa s (opBits op 97 76) (((⟨0, 0, false⟩ : Ctx).rows s).length * 64) = .ok d) :=
  ⟨(⟨0, op3 0x21 3, 0, runs (op3 0x21 3), okVal (((⟨0, 0, false⟩ : Ctx)).operand (runs (op3 0x21 3)) (op3 0x21 3) 32 (opLen (op3 0x21 3)) (opFa (op3 0x21 3))) (by decide +kernel), okVal (((⟨0, 0, false⟩ : Ctx)).operand (runs (op3 0x21 3)) (op3 0x21 3) 76 1 0) (by decide +kernel), (⟨0, 0, false⟩ : Ctx), rfl, runs_of (by decide +kernel), by decide +kernel, okVal_eq _ _, okVal_eq _ _, fun r v hv => by
      have h : v ∈ ([0, 0] : List W32) := read_reset_vec r _ ▸ hv
      simp only [List.mem_cons, List.not_mem_nil, or_false, or_self] at h
      subst h; decide +kernel⟩),
   (⟨op3 0x21 4, runsRoute (op3 0x21 4), okVal (vredCombine (op3 0x21 4) ⟨0, 0, false⟩ (runsRoute (op3 0x21 4))) (by decide +kernel), runs_of (by decide +kernel), okVal_eq _ _⟩),
   (⟨0, op3 0x21 4, 0, runsRoute (op3 0x21 4), okVal (((⟨0, 0, false⟩ : Ctx)).operand (runsRoute (op3 0x21 4)) (op3 0x21 4) 32 (((slateAt 0 0x100000, 1)).2 * opLen (op3 0x21 4)) (opFa (op3 0x21 4))) (by decide +kernel), okVal (((⟨0, 0, false⟩ : Ctx)).operand (runsRoute (op3 0x21 4)) (op3 0x21 4) 76 (opLen (op3 0x21 4)) (opFd (op3 0x21 4))) (by decide +kernel), (slateAt 0 0x100000, 1), (⟨0, 0, false⟩ : Ctx), rfl, runs_of (by decide +kernel), by decide +kernel, by decide +kernel, okVal_eq _ _, okVal_eq _ _⟩),
   (⟨0, op3 0x22 0, 0, runs (op3 0x22 0), okVal (((⟨0, 0, false⟩ : Ctx)).operand (runs (op3 0x22 0)) (op3 0x22 0) 32 (opLen (op3 0x22 0)) (opFa (op3 0x22 0))) (by decide +kernel), okVal (((⟨0, 0, false⟩ : Ctx)).operand (runs (op3 0x22 0)) (op3 0x22 0) 76 (opLen (op3 0x22 0)) (opFd (op3 0x22 0))) (by decide +kernel), okVal (gainAt ((⟨0, 0, false⟩ : Ctx)) (runs (op3 0x22 0)) (op3 0x22 0) (opLen (op3 0x22 0)) 0) (by decide +kernel), (⟨0, 0, false⟩ : Ctx), rfl, runs_of (by decide +kernel), by decide +kernel, okVal_eq _ _, okVal_eq _ _, okVal_eq _ _⟩),
   (⟨op3 0x22 1, runs (op3 0x22 1), okVal (normLayer (op3 0x22 1) ⟨0, 0, false⟩ (runs (op3 0x22 1))) (by decide +kernel), runs_of (by decide +kernel), okVal_eq _ _⟩),
   (⟨0, op3 0x22 1, 0, runs (op3 0x22 1), okVal (((⟨0, 0, false⟩ : Ctx)).operand (runs (op3 0x22 1)) (op3 0x22 1) 32 (opLen (op3 0x22 1)) (opFa (op3 0x22 1))) (by decide +kernel), okVal (((⟨0, 0, false⟩ : Ctx)).operand (runs (op3 0x22 1)) (op3 0x22 1) 76 (opLen (op3 0x22 1)) (opFd (op3 0x22 1))) (by decide +kernel), okVal (gainAt ((⟨0, 0, false⟩ : Ctx)) (runs (op3 0x22 1)) (op3 0x22 1) (opLen (op3 0x22 1)) 0) (by decide +kernel), okVal (gainAt ((⟨0, 0, false⟩ : Ctx)) (runs (op3 0x22 1)) (op3 0x22 1) (opLen (op3 0x22 1)) (rowBytes (opFb (op3 0x22 1)) (opLen (op3 0x22 1)))) (by decide +kernel), (⟨0, 0, false⟩ : Ctx), rfl, runs_of (by decide +kernel), by decide +kernel, okVal_eq _ _, okVal_eq _ _, okVal_eq _ _, okVal_eq _ _⟩),
   (⟨ropeOp 0, runs (ropeOp 0), okVal ((⟨0, 0, false⟩ : Ctx).operand (runs (ropeOp 0)) (ropeOp 0) 32 (1 * 64) (opFa (ropeOp 0))) (by decide +kernel), okVal ((⟨0, 0, false⟩ : Ctx).operand (runs (ropeOp 0)) (ropeOp 0) 76 (1 * 64) (opFd (ropeOp 0))) (by decide +kernel), runs_of (by decide +kernel), by decide +kernel, by decide +kernel, by decide +kernel, okVal_eq ((⟨0, 0, false⟩ : Ctx).operand (runs (ropeOp 0)) (ropeOp 0) 32 (1 * 64) (opFa (ropeOp 0))) _, okVal_eq ((⟨0, 0, false⟩ : Ctx).operand (runs (ropeOp 0)) (ropeOp 0) 76 (1 * 64) (opFd (ropeOp 0))) _⟩),
   (⟨ropeOp 1, runs (ropeOp 1), okVal ((⟨0, 0, false⟩ : Ctx).operand (runs (ropeOp 1)) (ropeOp 1) 32 (1 * 64) (opFa (ropeOp 1))) (by decide +kernel), okVal ((⟨0, 0, false⟩ : Ctx).operand (runs (ropeOp 1)) (ropeOp 1) 76 (1 * 64) (opFd (ropeOp 1))) (by decide +kernel), runs_of (by decide +kernel), by decide +kernel, by decide +kernel, by decide +kernel, okVal_eq ((⟨0, 0, false⟩ : Ctx).operand (runs (ropeOp 1)) (ropeOp 1) 32 (1 * 64) (opFa (ropeOp 1))) _, okVal_eq ((⟨0, 0, false⟩ : Ctx).operand (runs (ropeOp 1)) (ropeOp 1) 76 (1 * 64) (opFd (ropeOp 1))) _⟩),
   (⟨routeOp 0, runs (routeOp 0), okVal ((⟨0, 0, false⟩ : Ctx).operand (runs (routeOp 0)) (routeOp 0) 32 8 0) (by decide +kernel), okVal ((⟨0, 0, false⟩ : Ctx).oa (runs (routeOp 0)) (opBits (routeOp 0) 97 76) (((⟨0, 0, false⟩ : Ctx).rows (runs (routeOp 0))).length * 64)) (by decide +kernel), runs_of (by decide +kernel), by decide +kernel, by decide +kernel, okVal_eq ((⟨0, 0, false⟩ : Ctx).operand (runs (routeOp 0)) (routeOp 0) 32 8 0) _, okVal_eq ((⟨0, 0, false⟩ : Ctx).oa (runs (routeOp 0)) (opBits (routeOp 0) 97 76) (((⟨0, 0, false⟩ : Ctx).rows (runs (routeOp 0))).length * 64)) _⟩),
   (⟨routeOp 1, runs (routeOp 1), okVal ((⟨0, 0, false⟩ : Ctx).operand (runs (routeOp 1)) (routeOp 1) 32 8 0) (by decide +kernel), okVal ((⟨0, 0, false⟩ : Ctx).oa (runs (routeOp 1)) (opBits (routeOp 1) 97 76) (((⟨0, 0, false⟩ : Ctx).rows (runs (routeOp 1))).length * 64)) (by decide +kernel), runs_of (by decide +kernel), by decide +kernel, by decide +kernel, okVal_eq ((⟨0, 0, false⟩ : Ctx).operand (runs (routeOp 1)) (routeOp 1) 32 8 0) _, okVal_eq ((⟨0, 0, false⟩ : Ctx).oa (runs (routeOp 1)) (opBits (routeOp 1) 97 76) (((⟨0, 0, false⟩ : Ctx).rows (runs (routeOp 1))).length * 64)) _⟩),
   (⟨routeOp 2, runs (routeOp 2), okVal ((⟨0, 0, false⟩ : Ctx).operand (runs (routeOp 2)) (routeOp 2) 32 8 0) (by decide +kernel), okVal ((⟨0, 0, false⟩ : Ctx).oa (runs (routeOp 2)) (opBits (routeOp 2) 97 76) (((⟨0, 0, false⟩ : Ctx).rows (runs (routeOp 2))).length * 64)) (by decide +kernel), runs_of (by decide +kernel), by decide +kernel, by decide +kernel, okVal_eq ((⟨0, 0, false⟩ : Ctx).operand (runs (routeOp 2)) (routeOp 2) 32 8 0) _, okVal_eq ((⟨0, 0, false⟩ : Ctx).oa (runs (routeOp 2)) (opBits (routeOp 2) 97 76) (((⟨0, 0, false⟩ : Ctx).rows (runs (routeOp 2))).length * 64)) _⟩)⟩

/-- States and operands that meet the hypotheses of `MatrixCopyAndAttentionRows`, clause by clause. -/
theorem witness_MatrixCopyAndAttentionRows :
    (∃ (n : Nat) (op : OpWord) (f : Nat) (s : State) (a : Nat) (w : Nat) (d : Nat) (kt : Nat) (nt : Nat) (c : Ctx), c = ⟨f, n, false⟩ ∧ Runs n op 0x10 none f s ∧ kt = opBits op 107 98 ∧ nt = opBits op 117 108 ∧ bitOf op.toNat 10 = false ∧ fmtBits (opFa op) ≠ 0 ∧ fmtBits (opFb op) ≠ 0 ∧ opFd op ≤ 1 ∧ 1 ≤ kt ∧ 1 ≤ nt ∧ opBits op 119 118 ≤ 1 ∧ pairing (opFa op) (opFb op) = true ∧ c.operand s op 32 (kt * tileDepth (opFb op)) (opFa op) = .ok a ∧ c.oa s (opBits op 75 54) (kt * nt * 34816) = .ok w ∧ c.operand s op 76 (nt * 128) (opFd op) = .ok d) ∧
    (∃ (op : OpWord) (s t : State), Runs 0 op 0x10 none 0 s ∧ mmaOp op ⟨0, 0, false⟩ s = .ok t) ∧
    (∃ (op : OpWord) (s t : State), Runs 0 op 0x50 none 0 s ∧ gatherOp op ⟨0, 0, false⟩ s = .ok t) ∧
    (∃ (n : Nat) (op : OpWord) (f : Nat) (b : Nat) (d : Nat) (s : State) (c : Ctx), c = ⟨f, n, false⟩ ∧ Runs n op 0x50 none f s ∧ opLen op % 64 = 0 ∧ bindAddr s f n (opBits op 61 54) 0 = .ok b ∧ c.oa s (opBits op 97 76) ((c.rows s).length * opLen op) = .ok d ∧ Calm f s ∧ (∀ r ∈ c.live s, ∀ k, k = b + ((c.rows s)[r]?).elim 0 (·.token) * opLen op → (∃ w, s.place f k (opLen op) 0 = .ok w) ∧ (∀ i ∈ spanSheets s f k (opLen op), (s.fold f).backed i = true))) ∧
    (∃ (n : Nat) (op : OpWord) (f : Nat) (s : State) (a : Nat) (d : Nat) (c : Ctx), c = ⟨f, n, false⟩ ∧ Runs n op 0x51 none f s ∧ opLen op % 64 = 0 ∧ c.oa s (opBits op 53 32) ((c.rows s).length * opLen op) = .ok a ∧ c.oa s (opBits op 97 76) ((c.rows s).length * opLen op) = .ok d) ∧
    (∃ (n : Nat) (op : OpWord) (f : Nat) (s : State) (a : Nat) (c : Ctx), c = ⟨f, n, false⟩ ∧ Runs n op 0x60 none f s ∧ 1 ≤ opLen op ∧ c.operand s op 32 (opLen op) 0 = .ok a ∧ (∀ o ∈ otherSlices op c s, slicesMeet op o = false)) ∧
    (∃ (op : OpWord) (k : Nat) (s t : State), Runs 0 op 0x30 none 0 s ∧ (∀ m ∈ (s.fold 0).penList, (s.pen m).running = true ∧ (s.pen m).bar = none ∧
      (s.pen m).pass = (s.pen 0).pass ∧ (s.pen m).opIndex = (s.pen 0).opIndex) ∧ attnStart 0 false op s = .ok (k, t)) ∧
    (∃ (op : OpWord) (g : AttnArgs) (s : State) (c : Ctx), c = ⟨0, s.lowPen 0, false⟩ ∧ Runs 0 op 0x30 none 0 s ∧ (∀ m ∈ (s.fold 0).penList, (s.pen m).running = true ∧ (s.pen m).bar = none ∧
      (s.pen m).pass = (s.pen 0).pass ∧ (s.pen m).opIndex = (s.pen 0).opIndex) ∧ attnArgs 0 false op s = .ok g ∧
      ((attnReady c g (attnWrite c g s)).headGroup 0 g.kv).length ≤ 1) :=
  ⟨(⟨0, mmaW, 0, runs mmaW, okVal (((⟨0, 0, false⟩ : Ctx)).operand (runs mmaW) (mmaW) 32 ((opBits (mmaW) 107 98) * tileDepth (opFb (mmaW))) (opFa (mmaW))) (by decide +kernel), okVal (((⟨0, 0, false⟩ : Ctx)).oa (runs mmaW) (opBits (mmaW) 75 54) ((opBits (mmaW) 107 98) * (opBits (mmaW) 117 108) * 34816)) (by decide +kernel), okVal (((⟨0, 0, false⟩ : Ctx)).operand (runs mmaW) (mmaW) 76 ((opBits (mmaW) 117 108) * 128) (opFd (mmaW))) (by decide +kernel), opBits (mmaW) 107 98, opBits (mmaW) 117 108, (⟨0, 0, false⟩ : Ctx), rfl, runs_of (by decide +kernel), rfl, rfl, by decide +kernel, by decide +kernel, by decide +kernel, by decide +kernel, by decide +kernel, by decide +kernel, by decide +kernel, by decide +kernel, okVal_eq _ _, okVal_eq _ _, okVal_eq _ _⟩),
   (⟨mmaW, runs mmaW, okVal (mmaOp (mmaW) ⟨0, 0, false⟩ (runs mmaW)) (by decide +kernel), runs_of (by decide +kernel), okVal_eq _ _⟩),
   (⟨gatherW, runs gatherW, okVal (gatherOp (gatherW) ⟨0, 0, false⟩ (runs gatherW)) (by decide +kernel), runs_of (by decide +kernel), okVal_eq _ _⟩),
   (⟨0, gatherW, 0, okVal (bindAddr (gatherS) (0) (0) (opBits (gatherW) 61 54) 0) (by decide +kernel), okVal (((⟨0, 0, false⟩ : Ctx)).oa (gatherS) (opBits (gatherW) 97 76) ((((⟨0, 0, false⟩ : Ctx)).rows (gatherS)).length * opLen (gatherW))) (by decide +kernel), gatherS, (⟨0, 0, false⟩ : Ctx), rfl, runs_of (by decide +kernel), by decide +kernel, okVal_eq _ _, okVal_eq _ _, by unfold Calm; decide +kernel, (fun r hr k hk => hk ▸ ⟨⟨_, okVal_eq _ (gatherS_rows r hr).1⟩, (gatherS_rows r hr).2⟩)⟩),
   (⟨0, copyW, 0, runs copyW, okVal (((⟨0, 0, false⟩ : Ctx)).oa (runs copyW) (opBits (copyW) 53 32) ((((⟨0, 0, false⟩ : Ctx)).rows (runs copyW)).length * opLen (copyW))) (by decide +kernel), okVal (((⟨0, 0, false⟩ : Ctx)).oa (runs copyW) (opBits (copyW) 97 76) ((((⟨0, 0, false⟩ : Ctx)).rows (runs copyW)).length * opLen (copyW))) (by decide +kernel), (⟨0, 0, false⟩ : Ctx), rfl, runs_of (by decide +kernel), by decide +kernel, okVal_eq _ _, okVal_eq _ _⟩),
   (⟨0, logitsW, 0, runs logitsW, okVal (((⟨0, 0, false⟩ : Ctx)).operand (runs logitsW) (logitsW) 32 (opLen (logitsW)) 0) (by decide +kernel), (⟨0, 0, false⟩ : Ctx), rfl, runs_of (by decide +kernel), by decide +kernel, okVal_eq _ _, fun o ho => absurd ((by decide +kernel : otherSlices logitsW ⟨0, 0, false⟩ (runs logitsW) = []) ▸ ho) List.not_mem_nil⟩),
   (⟨attnW, _, attnS, _, runs_of (by decide +kernel), by decide +kernel, okVal_eq (attnStart 0 false attnW attnS) (by decide +kernel)⟩),
   (⟨attnW, _, attnS, ⟨0, attnS.lowPen 0, false⟩, rfl, runs_of (by decide +kernel), by decide +kernel, okVal_eq (attnArgs 0 false attnW attnS) (by decide +kernel), by decide +kernel⟩)⟩

/-- States and operands that meet the hypotheses of `LayerControlRows`, clause by clause. -/
theorem witness_LayerControlRows :
    (∃ (n : Nat) (op : OpWord) (f : Nat) (j : Nat) (s : State), Runs n op 0x01 none f s ∧ j = opBits op 39 32 ∧ j ≤ 159 ∧ (s.layerStreamed f j = false ∨ s.groupReady f n j = true)) ∧
    (∃ (n : Nat) (op : OpWord) (f : Nat) (j : Nat) (s : State), Runs n op 0x01 none f s ∧ j = opBits op 39 32 ∧ j ≤ 159 ∧ s.layerStreamed f j = true ∧ s.groupReady f n j = false ∧ (s.pen n).stallSince = none) ∧
    (∃ (n : Nat) (op : OpWord) (f : Nat) (s : State), Runs n op 0x02 none f s) ∧
    (∃ (op : OpWord) (s t : State), Runs 0 op 0x40 none 0 s ∧ raccOp op ⟨0, 0, false⟩ s = .ok t) ∧
    (∃ (n : Nat) (op : OpWord) (f : Nat) (a : Nat) (addr : Nat) (s : State) (c : Ctx), c = ⟨f, n, false⟩ ∧ Runs n op 0x40 none f s ∧ 1 ≤ opLen op ∧ opFd op ≤ 1 ∧ opBits op 68 67 ≠ 3 ∧ c.operand s op 32 (opLen op) (opFa op) = .ok a ∧ bindAddr s f n (opBits op 61 54) ((c.rows s).length * opLen op * 4) = .ok addr) ∧
    (∃ (op : OpWord) (s t : State), Runs 0 op 0x41 none 0 s ∧ notifyOp op ⟨0, 0, false⟩ s = .ok t) ∧
    (∃ (n : Nat) (op : OpWord) (f : Nat) (a : Nat) (off : Nat) (len : Nat) (s : State) (c : Ctx), c = ⟨f, n, false⟩ ∧ Runs n op 0x41 none f s ∧ opBits op 68 67 = 2 ∧ 1 ≤ opLen op ∧ c.operand s op 32 (opLen op) (opFa op) = .ok a ∧ len = (c.rows s).length * rowStride (opFa op) (opLen op) ∧ n < 64 ∧ (s.pen n).binding.getD (opBits op 61 54) none = some (slateAt n off) ∧ off + len ≤ 0x600000 ∧ s.pinnedOk f (slateAt n off) len = none) ∧
    (∃ (n : Nat) (op : OpWord) (f : Nat) (s : State), Runs n op 0x42 none f s ∧ opBits op 66 62 ∉ (s.pen n).saturated) ∧
    (∃ (n : Nat) (f : Nat) (b : BarWait) (s : State), s.ready = true ∧ s.penFold n = some f ∧ (s.pen n).bar = some b ∧ b.count ≤ (getND (s.pen n).notify b.ctr 0).toNat ∧ (s.pen n).word = none) ∧
    (∃ (n : Nat) (f : Nat) (b : BarWait) (s : State), s.ready = true ∧ s.penFold n = some f ∧ (s.pen n).bar = some b ∧ b.since + max 1 (s.act (rPenBarLimit n)) < s.now) ∧
    (∃ (n : Nat) (f : Nat) (g : Nat) (x : Image) (s : State), s.ready = true ∧ s.penFold n = some f ∧ s.activeImage f = some x ∧ (s.fold f).streamed = true ∧ s.mainLayers f ≠ 0 ∧ s.groupsOf f n ≠ [] ∧ ((s.pen n).dropped = false ∨ (s.fold f).step.isSome = true ∨ (s.fold f).nextWork ≠ []) ∧ g = (s.pen n).nextLayer % (s.groupsOf f n).length ∧ ((s.groupsOf f n)[g]?).any (fun g => g.layer.isNone) = true) :=
  ⟨(⟨0, layerW 159, 0, opBits (layerW 159) 39 32, runs (layerW 159), runs_of (by decide +kernel), rfl, by decide +kernel, by decide +kernel⟩),
   (⟨0, layerW 0, 0, opBits (layerW 0) 39 32, streamS, runs_of (by decide +kernel), rfl, by decide +kernel, by decide +kernel, by decide +kernel, by decide +kernel⟩),
   (⟨0, endW, 0, runs endW, runs_of (by decide +kernel)⟩),
   (⟨raccW, runs raccW, okVal (raccOp raccW ⟨0, 0, false⟩ (runs raccW)) (by decide +kernel), runs_of (by decide +kernel), okVal_eq _ _⟩),
   (⟨0, raccW, 0, okVal (((⟨0, 0, false⟩ : Ctx)).operand (runs raccW) (raccW) 32 (opLen (raccW)) (opFa (raccW))) (by decide +kernel), okVal (bindAddr (runs raccW) (0) (0) (opBits (raccW) 61 54) ((((⟨0, 0, false⟩ : Ctx)).rows (runs raccW)).length * opLen (raccW) * 4)) (by decide +kernel), runs raccW, (⟨0, 0, false⟩ : Ctx), rfl, runs_of (by decide +kernel), by decide +kernel, by decide +kernel, by decide +kernel, okVal_eq _ _, okVal_eq _ _⟩),
   (⟨notifyW, runs notifyW, okVal (notifyOp notifyW ⟨0, 0, false⟩ (runs notifyW)) (by decide +kernel), runs_of (by decide +kernel), okVal_eq _ _⟩),
   (⟨0, notifyW, 0, okVal (((⟨0, 0, false⟩ : Ctx)).operand (notifyS) (notifyW) 32 (opLen (notifyW)) (opFa (notifyW))) (by decide +kernel), 0x10000, (((⟨0, 0, false⟩ : Ctx)).rows (notifyS)).length * rowStride (opFa (notifyW)) (opLen (notifyW)), notifyS, (⟨0, 0, false⟩ : Ctx), rfl, runs_of (by decide +kernel), by decide +kernel, by decide +kernel, okVal_eq _ _, rfl, by decide +kernel, by decide +kernel, by decide +kernel, by decide +kernel⟩),
   (⟨0, barW, 0, runs barW, runs_of (by decide +kernel), by decide +kernel⟩),
   (⟨0, 0, bar1, penS { Pen.reset with running := true, bar := some bar1, notify := [(31, 65535)] }, by decide +kernel, by decide +kernel, by decide +kernel, by decide +kernel, by decide +kernel⟩),
   (⟨0, 0, { bar1 with since := 0 }, withR [(rPenBarLimit 0, 4999999)] (penS { Pen.reset with running := true, bar := some bar1 }), by decide +kernel, by decide +kernel, by decide +kernel, by decide +kernel⟩),
   (⟨0, 0, ((loadS).pen (0)).nextLayer % ((loadS).groupsOf (0) (0)).length, image1 [], loadS, by decide +kernel, by decide +kernel, by decide +kernel, by decide +kernel, by decide +kernel, by decide +kernel, by decide +kernel, rfl, by decide +kernel⟩)⟩

/-- States and operands that meet the hypotheses of `ResultRowsLandInTheirRows`, clause by clause. -/
theorem witness_ResultRowsLandInTheirRows :
    ∃ (c : Ctx) (base : Nat) (stride : Nat) (f : Nat → List Byte × Bool) (s : State) (t : State), (∀ r, (f r).1.length ≤ stride) ∧ t = c.putRows base stride f s :=
  ⟨(⟨0, 0, false⟩ : Ctx), 0, 64, fun _ => ([1], false), runs endW, ((⟨0, 0, false⟩ : Ctx)).putRows (0) (64) (fun _ => ([1], false)) (runs endW), fun r => by show 1 ≤ 64; decide, rfl⟩

/-- States and operands that meet the hypotheses of `RootOnlyAndReservedOperations`, clause by clause. -/
theorem witness_RootOnlyAndReservedOperations :
    (∃ (opcode : Nat) (row : Nat → OpWord → Instr) (n : Nat) (op : OpWord) (f : Nat) (s : State), (opcode, row) ∈ [(0x01, Instr.opLayer), (0x02, .opEnd), (0x10, .opMma), (0x20, .vewAdd), (0x21, .vredSum), (0x22, .normRmsnorm), (0x23, .actSilu), (0x24, .ropeHalfPairs), (0x30, .opAttn), (0x38, .routeTopkSoftmax), (0x40, .opRacc), (0x41, .opNotify), (0x42, .opBar), (0x50, .opGather), (0x51, .opCopy), (0x60, .opLogits)] ∧ s.ready = true ∧ s.nextOp n = some (f, op)) ∧
    (∃ (opcode : Nat) (row : Nat → OpWord → Instr) (n : Nat) (op : OpWord) (f : Nat) (s : State), (opcode, row) ∈ [(0x01, Instr.opLayer), (0x02, .opEnd), (0x10, .opMma), (0x20, .vewAdd), (0x21, .vredSum), (0x22, .normRmsnorm), (0x23, .actSilu), (0x24, .ropeHalfPairs), (0x30, .opAttn), (0x38, .routeTopkSoftmax), (0x40, .opRacc), (0x41, .opNotify), (0x42, .opBar), (0x50, .opGather), (0x51, .opCopy), (0x60, .opLogits)] ∧ s.ready = true ∧ s.nextOp n = some (f, op)) :=
  ⟨(⟨0x01, .opLayer, 0, layerW 0, 0, runs (layerW 0), List.mem_cons_self, by decide +kernel, by decide +kernel⟩),
   (⟨0x60, .opLogits, 0, logitsW, 0, runs logitsW, by simp, by decide +kernel, by decide +kernel⟩)⟩

/-- States and operands that meet the hypotheses of `FabricTransportReadsAndWrites`, clause by clause. -/
theorem witness_FabricTransportReadsAndWrites :
    (∃ (port : Nat) (s : State), s.ready = true ∧ (s.port port).state = 2) ∧
    (∃ (p : Packet) (y : Sess) (s : State), Delivered fabOpRead p s ∧ p.kindRecord = true ∧ p.addr + p.len ≤ 512 ∧ s.sess p.session = some y ∧ y.isHome = true) ∧
    (∃ (p : Packet) (f : Nat) (r : List Byte × State) (s : State), Delivered fabOpRead p s ∧ p.kindRecord = false ∧ requestCheck (taken p s) p = .ok f ∧ p.len ≠ 0 ∧ readLocal f p.addr p.len (taken p s) = .ok r) ∧
    (∃ (p : Packet) (f : Nat) (s : State) (t : State), Delivered fabOpWrite p s ∧ s.mailFold p = none ∧ p.kindRecord = false ∧ requestCheck (taken p s) p = .ok f ∧ putFragment f p (taken p s) = .ok t) ∧
    (∃ (p : Packet) (y : Sess) (new : Record) (s : State) (t : State), Delivered fabOpWrite p s ∧ s.mailFold p = none ∧ p.kindRecord = true ∧ p.addr + p.len ≤ 512 ∧ s.sess p.session = some y ∧ y.isHome = true ∧ y.record.lease.epoch = p.epoch.toNat ∧ y.record.lease.holder = p.src ∧ new = recordOf (patchB (recordBytes y.homeRecord) p.addr p.payload) ∧ t = (taken p s).modSess p.session (·.takeRecord { new with sessionId := y.record.sessionId, lease := y.record.lease, notReplayable := new.notReplayable || y.record.notReplayable || decide (0 < new.txFirst) })) ∧
    (∃ (p : Packet) (f : Nat) (s : State), Delivered fabOpFence p s ∧ p.kindRecord = false ∧ p.unordered = false ∧ requestCheck (taken p s) p = .ok f) :=
  ⟨(⟨17, fabS.modPort 17 (fun x => { x with state := 2 }), by decide +kernel, by decide +kernel⟩),
   (⟨({ pkt fabOpRead 0 512 [] with kindRecord := true, session := 1, epoch := 1 }), sess1 (fun r => { r with lease := ⟨9, 0, 1⟩ }), withS (sess1 (fun r => { r with lease := ⟨9, 0, 1⟩ })) fabS, by unfold Delivered; decide +kernel, by decide +kernel, by decide +kernel, by decide +kernel, by decide +kernel⟩),
   (⟨readP, okVal (requestCheck (taken (readP) (fabS)) (readP)) (by decide +kernel), okVal (readLocal (okVal (requestCheck (taken (readP) (fabS)) (readP)) (by decide +kernel)) (readP).addr (readP).len (taken (readP) (fabS))) (by decide +kernel), fabS, by unfold Delivered; decide +kernel, by decide +kernel, okVal_eq _ _, by decide +kernel, okVal_eq _ _⟩),
   (⟨{ pkt fabOpWrite 65528 8 [1, 2, 3, 4, 5, 6, 7, 8] with drove := 9 }, okVal (requestCheck (taken ({ pkt fabOpWrite 65528 8 [1, 2, 3, 4, 5, 6, 7, 8] with drove := 9 }) (fabS)) ({ pkt fabOpWrite 65528 8 [1, 2, 3, 4, 5, 6, 7, 8] with drove := 9 })) (by decide +kernel), fabS, okVal (putFragment (okVal (requestCheck (taken ({ pkt fabOpWrite 65528 8 [1, 2, 3, 4, 5, 6, 7, 8] with drove := 9 }) (fabS)) ({ pkt fabOpWrite 65528 8 [1, 2, 3, 4, 5, 6, 7, 8] with drove := 9 })) (by decide +kernel)) ({ pkt fabOpWrite 65528 8 [1, 2, 3, 4, 5, 6, 7, 8] with drove := 9 }) (taken ({ pkt fabOpWrite 65528 8 [1, 2, 3, 4, 5, 6, 7, 8] with drove := 9 }) (fabS))) (by decide +kernel), by unfold Delivered; decide +kernel, by decide +kernel, by decide +kernel, okVal_eq _ _, okVal_eq _ _⟩),
   (⟨recP, recY, recNew, recS, recT, by unfold Delivered; decide +kernel, by decide +kernel, by decide +kernel, by decide +kernel, by decide +kernel, by decide +kernel, by decide +kernel, by decide +kernel, rfl, rfl⟩),
   (⟨({ pkt fabOpFence 0 0 [] with drove := 9 }), okVal (requestCheck (taken (({ pkt fabOpFence 0 0 [] with drove := 9 })) (fabS)) (({ pkt fabOpFence 0 0 [] with drove := 9 }))) (by decide +kernel), fabS, by unfold Delivered; decide +kernel, by decide +kernel, by decide +kernel, okVal_eq _ _⟩)⟩

/-- States and operands that meet the hypotheses of `FabricAtomicsAndReductions`, clause by clause. -/
theorem witness_FabricAtomicsAndReductions :
    (∃ (p : Packet) (f : Nat) (r : List Byte × State) (s : State) (t : State), Delivered fabOpFadd p s ∧ p.kindRecord = false ∧ p.unordered = false ∧ p.len = 8 ∧ p.addr % 8 = 0 ∧ p.oparg ≠ 0 ∧ requestCheck (taken p s) p = .ok f ∧ readLocal f p.addr 8 (taken p s) = .ok r ∧ requestWrite f p.session p.addr (leBytes 8 ((ofLe r.1 + p.oparg.toNat) % 2 ^ 64)) r.2 = .ok t) ∧
    (∃ (p : Packet) (f : Nat) (s : State), Delivered fabOpFadd p s ∧ p.kindRecord = false ∧ p.unordered = false ∧ p.len = 8 ∧ p.addr % 8 = 0 ∧ p.oparg ≠ 0 ∧ requestCheck (taken p s) p = .ok f ∧ 0x380000000000 ≤ p.addr ∧ (taken p s).place f p.addr 8 0 = .ok (.cell p.addr)) ∧
    (∃ (p : Packet) (f : Nat) (r : List Byte × State) (s : State) (t : State), Delivered fabOpCas p s ∧ p.kindRecord = false ∧ p.unordered = false ∧ p.addr % 8 = 0 ∧ requestCheck (taken p s) p = .ok f ∧ readLocal f p.addr 8 (taken p s) = .ok r ∧ ofLe r.1 = leAt p.payload 0 8 ∧ leAt p.payload 8 8 ≠ leAt p.payload 0 8 ∧ requestWrite f p.session p.addr (leBytes 8 (leAt p.payload 8 8 % 2 ^ 64)) r.2 = .ok t) ∧
    (∃ (p : Packet) (f : Nat) (r : List Byte × State) (s : State), Delivered fabOpCas p s ∧ p.kindRecord = false ∧ p.unordered = false ∧ p.addr % 8 = 0 ∧ requestCheck (taken p s) p = .ok f ∧ readLocal f p.addr 8 (taken p s) = .ok r ∧ ofLe r.1 ≠ leAt p.payload 0 8) ∧
    (∃ (p : Packet) (y : Sess) (s : State), Delivered fabOpCas p s ∧ p.kindRecord = true ∧ p.unordered = false ∧ p.addr = 16 ∧ s.sess p.session = some y ∧ y.isHome = true ∧ y.record.lease.epoch = p.epoch.toNat ∧ (leaseOf (leAt p.payload 8 8)).lstate ≠ 3) ∧
    (∃ (p : Packet) (f : Nat) (y : Sess) (l : List Packet) (s : State) (t : State), Delivered fabOpAread p s ∧ p.kindRecord = false ∧ gathered p (taken p s) = (some l, t) ∧ requestCheck t p = .ok f ∧ t.sess p.session = some y ∧ t.mayAttend f y p = true) ∧
    (((taken (accP) (fabA)).inReduction (okVal (requestCheck (taken (accP) (fabA)) { (accP) with len := ((accP).len * (if accBf16 (accP) then 2 else 1)) }) (by decide +kernel)) (accP).addr ((accP).len * (if accBf16 (accP) then 2 else 1)) = true) → ∃ (p : Packet) (f : Nat) (n : Nat) (k : Nat) (s : State), Delivered fabOpAcc p s ∧ p.kindRecord = false ∧ p.unordered = false ∧ n = p.len * (if accBf16 p then 2 else 1) ∧ requestCheck (taken p s) { p with len := n } = .ok f ∧ (taken p s).inReduction f p.addr n = true ∧ s.penNamed f (bitsOf p.oparg.toNat 46 41) = some k ∧ accAttempt p = (s.fold f).attempts % 8 ∧ (accNext (taken p s) f ((p.addr - 0x380000000000) / 0x1000000) p = true ∨ (s.pen ((p.addr - 0x380000000000) / 0x1000000)).hold.length < 128)) ∧
    (((taken (accP) (fabS)).inReduction (okVal (requestCheck (taken (accP) (fabS)) { (accP) with len := ((accP).len * (if accBf16 (accP) then 2 else 1)) }) (by decide +kernel)) (accP).addr ((accP).len * (if accBf16 (accP) then 2 else 1)) = true) → ∃ (p : Packet) (f : Nat) (n : Nat) (k : Nat) (s : State), Delivered fabOpAcc p s ∧ p.kindRecord = false ∧ p.unordered = false ∧ n = p.len * (if accBf16 p then 2 else 1) ∧ requestCheck (taken p s) { p with len := n } = .ok f ∧ (taken p s).inReduction f p.addr n = true ∧ s.penNamed f (bitsOf p.oparg.toNat 46 41) = some k ∧ accAttempt p = (s.fold f).attempts % 8 ∧ (accNext (taken p s) f ((p.addr - 0x380000000000) / 0x1000000) p = true ∨ (s.pen ((p.addr - 0x380000000000) / 0x1000000)).hold.length < 128)) ∧
    (∃ (p : Packet) (f : Nat) (k : Nat) (s : State) (t : State), Delivered fabOpNotify p s ∧ s.mailFold p = none ∧ p.kindRecord = false ∧ p.unordered = false ∧ requestCheck (taken p s) p = .ok f ∧ s.penNamed f (bitsOf p.oparg.toNat 13 8) = some k ∧ s.rootNotify f p = false ∧ (if p.len = 0 then .ok (taken p s) else putFragment f p (taken p s) : Tried State) = .ok t) ∧
    (∃ (p : Packet) (f : Nat) (k : Nat) (l : List Packet) (data : List Byte) (w : StepWord) (s : State) (t : State) (u : State), Delivered fabOpNotify p s ∧ s.mailFold p = none ∧ p.kindRecord = false ∧ p.unordered = false ∧ requestCheck (taken p s) p = .ok f ∧ s.penNamed f (bitsOf p.oparg.toNat 13 8) = some k ∧ s.rootNotify f p = true ∧ gathered p (taken p s) = (some l, t) ∧ stripWord (l.flatMap (·.payload)) = some (data, w) ∧ (if data.isEmpty then .ok t else requestWrite f p.session p.addr data t : Tried State) = .ok u ∧ (∀ q ∈ l, q.pmask = 0)) :=
  ⟨(⟨faddP, okVal (requestCheck (taken (faddP) (fabS)) (faddP)) (by decide +kernel), okVal (readLocal (okVal (requestCheck (taken (faddP) (fabS)) (faddP)) (by decide +kernel)) (faddP).addr 8 (taken (faddP) (fabS))) (by decide +kernel), fabS, okVal (requestWrite (okVal (requestCheck (taken (faddP) (fabS)) (faddP)) (by decide +kernel)) (faddP).session (faddP).addr (leBytes 8 ((ofLe (okVal (readLocal (okVal (requestCheck (taken (faddP) (fabS)) (faddP)) (by decide +kernel)) (faddP).addr 8 (taken (faddP) (fabS))) (by decide +kernel)).1 + (faddP).oparg.toNat) % 2 ^ 64)) (okVal (readLocal (okVal (requestCheck (taken (faddP) (fabS)) (faddP)) (by decide +kernel)) (faddP).addr 8 (taken (faddP) (fabS))) (by decide +kernel)).2) (by decide +kernel), by unfold Delivered; decide +kernel, by decide +kernel, by decide +kernel, by decide +kernel, by decide +kernel, by decide +kernel, okVal_eq _ _, okVal_eq _ _, okVal_eq _ _⟩),
   (⟨{ faddP with addr := 0x380000000000 }, okVal (requestCheck (taken ({ faddP with addr := 0x380000000000 }) (fabS)) ({ faddP with addr := 0x380000000000 })) (by decide +kernel), fabS, by unfold Delivered; decide +kernel, by decide +kernel, by decide +kernel, by decide +kernel, by decide +kernel, by decide +kernel, okVal_eq _ _, by decide +kernel, cell_of (by decide +kernel)⟩),
   (⟨casP 0, okVal (requestCheck (taken (casP 0) (fabS)) (casP 0)) (by decide +kernel), okVal (readLocal (okVal (requestCheck (taken (casP 0) (fabS)) (casP 0)) (by decide +kernel)) (casP 0).addr 8 (taken (casP 0) (fabS))) (by decide +kernel), fabS, okVal (requestWrite (okVal (requestCheck (taken (casP 0) (fabS)) (casP 0)) (by decide +kernel)) (casP 0).session (casP 0).addr (leBytes 8 (leAt (casP 0).payload 8 8 % 2 ^ 64)) (okVal (readLocal (okVal (requestCheck (taken (casP 0) (fabS)) (casP 0)) (by decide +kernel)) (casP 0).addr 8 (taken (casP 0) (fabS))) (by decide +kernel)).2) (by decide +kernel), by unfold Delivered; decide +kernel, by decide +kernel, by decide +kernel, by decide +kernel, okVal_eq _ _, okVal_eq _ _, by decide +kernel, by decide +kernel, okVal_eq _ _⟩),
   (⟨casP 1, okVal (requestCheck (taken (casP 1) (fabS)) (casP 1)) (by decide +kernel), okVal (readLocal (okVal (requestCheck (taken (casP 1) (fabS)) (casP 1)) (by decide +kernel)) (casP 1).addr 8 (taken (casP 1) (fabS))) (by decide +kernel), fabS, by unfold Delivered; decide +kernel, by decide +kernel, by decide +kernel, by decide +kernel, okVal_eq _ _, okVal_eq _ _, by decide +kernel⟩),
   (⟨({ pkt fabOpCas 16 16 (leBytes 8 0 ++ leBytes 8 5) with kindRecord := true, session := 1, epoch := 1 }), sess1 (fun r => { r with lease := ⟨9, 0, 1⟩ }), withS (sess1 (fun r => { r with lease := ⟨9, 0, 1⟩ })) fabS, by unfold Delivered; decide +kernel, by decide +kernel, by decide +kernel, by decide +kernel, by decide +kernel, by decide +kernel, by decide +kernel, by decide +kernel⟩),
   (⟨areadP, okVal (requestCheck ((gathered areadP (taken areadP (withS (sess1 (fun r => { r with lease := ⟨9, 0, 1⟩ })) fabS))).2) (areadP)) (by decide +kernel), sess1 (fun r => { r with lease := ⟨9, 0, 1⟩ }), [areadP], withS (sess1 (fun r => { r with lease := ⟨9, 0, 1⟩ })) fabS, (gathered areadP (taken areadP (withS (sess1 (fun r => { r with lease := ⟨9, 0, 1⟩ })) fabS))).2, by unfold Delivered; decide +kernel, by decide +kernel, by decide +kernel, okVal_eq _ _, by decide +kernel, by decide +kernel⟩),
   (fun h5 => ⟨accP, okVal (requestCheck (taken (accP) (fabA)) { (accP) with len := ((accP).len * (if accBf16 (accP) then 2 else 1)) }) (by decide +kernel), (accP).len * (if accBf16 (accP) then 2 else 1), someVal ((fabA).penNamed (okVal (requestCheck (taken (accP) (fabA)) { (accP) with len := ((accP).len * (if accBf16 (accP) then 2 else 1)) }) (by decide +kernel)) (bitsOf (accP).oparg.toNat 46 41)) (by decide +kernel), fabA, by unfold Delivered; decide +kernel, by decide +kernel, by decide +kernel, rfl, okVal_eq _ _, h5, someVal_eq _ _, by decide +kernel, Or.inl (by decide +kernel)⟩),
   (fun h5 => ⟨accP, okVal (requestCheck (taken (accP) (fabS)) { (accP) with len := ((accP).len * (if accBf16 (accP) then 2 else 1)) }) (by decide +kernel), (accP).len * (if accBf16 (accP) then 2 else 1), someVal ((fabS).penNamed (okVal (requestCheck (taken (accP) (fabS)) { (accP) with len := ((accP).len * (if accBf16 (accP) then 2 else 1)) }) (by decide +kernel)) (bitsOf (accP).oparg.toNat 46 41)) (by decide +kernel), fabS, by unfold Delivered; decide +kernel, by decide +kernel, by decide +kernel, rfl, okVal_eq _ _, h5, someVal_eq _ _, by decide +kernel, Or.inr (by decide +kernel)⟩),
   (⟨{ pkt fabOpNotify 0 0 [] with drove := 9 }, okVal (requestCheck (taken ({ pkt fabOpNotify 0 0 [] with drove := 9 }) (fabS)) ({ pkt fabOpNotify 0 0 [] with drove := 9 })) (by decide +kernel), someVal ((fabS).penNamed (okVal (requestCheck (taken ({ pkt fabOpNotify 0 0 [] with drove := 9 }) (fabS)) ({ pkt fabOpNotify 0 0 [] with drove := 9 })) (by decide +kernel)) (bitsOf ({ pkt fabOpNotify 0 0 [] with drove := 9 }).oparg.toNat 13 8)) (by decide +kernel), fabS, okVal ((if ({ pkt fabOpNotify 0 0 [] with drove := 9 }).len = 0 then .ok (taken ({ pkt fabOpNotify 0 0 [] with drove := 9 }) (fabS)) else putFragment (okVal (requestCheck (taken ({ pkt fabOpNotify 0 0 [] with drove := 9 }) (fabS)) ({ pkt fabOpNotify 0 0 [] with drove := 9 })) (by decide +kernel)) ({ pkt fabOpNotify 0 0 [] with drove := 9 }) (taken ({ pkt fabOpNotify 0 0 [] with drove := 9 }) (fabS)) : Tried State)) (by decide +kernel), by unfold Delivered; decide +kernel, by decide +kernel, by decide +kernel, by decide +kernel, okVal_eq _ _, someVal_eq _ _, by decide +kernel, okVal_eq _ _⟩),
   (⟨rootP, okVal (requestCheck (taken (rootP) (rootS)) (rootP)) (by decide +kernel), someVal ((rootS).penNamed (okVal (requestCheck (taken (rootP) (rootS)) (rootP)) (by decide +kernel)) (bitsOf (rootP).oparg.toNat 13 8)) (by decide +kernel), [rootP], [], ⟨false, false, []⟩, rootS, (gathered rootP (taken rootP rootS)).2, okVal ((if ([]).isEmpty then .ok ((gathered rootP (taken rootP rootS)).2) else requestWrite (okVal (requestCheck (taken (rootP) (rootS)) (rootP)) (by decide +kernel)) (rootP).session (rootP).addr ([]) ((gathered rootP (taken rootP rootS)).2) : Tried State)) (by decide +kernel), by unfold Delivered; decide +kernel, by decide +kernel, by decide +kernel, by decide +kernel, okVal_eq _ _, someVal_eq _ _, by decide +kernel, by decide +kernel, by decide +kernel, okVal_eq _ _, by decide +kernel⟩)⟩

/-- States and operands that meet the hypotheses of `ResponsesMatchByTag`, clause by clause. -/
theorem witness_ResponsesMatchByTag :
    (∃ (p : Packet) (m : OutMsg) (s : State), s.ready = true ∧ getN s.fab.outstanding p.tag.toNat = some m ∧ p.ptype = 1 ∧ p.src = m.packet.dst ∧ p.op = m.packet.op ∧ p.src ∉ s.fab.lost ∧ turnedAway m p = false ∧ fragCount p.len ≤ (setN m.response p.frag p).length) ∧
    (∃ (p : Packet) (s : State), s.ready = true ∧ getN s.fab.outstanding p.tag.toNat = none) ∧
    (∃ (p : Packet) (m : OutMsg) (s : State), s.ready = true ∧ getN s.fab.outstanding p.tag.toNat = some m ∧ p.ptype = 1 ∧ p.src = m.packet.dst ∧ p.op = m.packet.op ∧ p.src ∉ s.fab.lost ∧ m.packet.unordered = false ∧ p.status = stBusy) :=
  ⟨(⟨({ pkt fabOpRead 0 8 [] with drove := 9, ptype := 1 }), msg1, outS msg1, by decide +kernel, by decide +kernel, by decide +kernel, by decide +kernel, by decide +kernel, by decide +kernel, by decide +kernel, by decide +kernel⟩),
   (⟨({ pkt fabOpRead 0 8 [] with drove := 9, ptype := 1, tag := 4 }), outS msg1, by decide +kernel, by decide +kernel⟩),
   (⟨({ pkt fabOpRead 0 8 [] with drove := 9, ptype := 1, status := stBusy }), msg1, outS msg1, by decide +kernel, by decide +kernel, by decide +kernel, by decide +kernel, by decide +kernel, by decide +kernel, by decide +kernel, by decide +kernel⟩)⟩

/-- States and operands that meet the hypotheses of `FabricAnswersRetriesAndLoss`, clause by clause. -/
theorem witness_FabricAnswersRetriesAndLoss :
    (∃ (p : Packet) (m : OutMsg) (s : State), s.ready = true ∧ p.ptype = 2 ∧ s.fab.outstanding = [(m.packet.tag.toNat, m)] ∧ m.sent = true ∧ m.packet.unordered = false ∧ m.packet.dst = p.src ∧ (∀ q ∈ fragmentsWith m.bad m.packet, (q.oseq - p.oseq).toNat < 32768)) ∧
    (∃ (tag : W32) (m : OutMsg) (s : State), s.ready = true ∧ getN s.fab.outstanding tag.toNat = some m ∧ m.sent = true ∧ (s.route m.packet).isSome = true ∧ m.lastSent + s.retryTime ≤ s.now ∧ s.now < m.firstSent + s.e2eLimit) ∧
    (∃ (tag : W32) (m : OutMsg) (s : State), s.ready = true ∧ getN s.fab.outstanding tag.toNat = some m ∧ m.sent = true ∧ (s.route m.packet).isSome = true ∧ m.lastSent + s.retryTime ≤ s.now ∧ m.firstSent + s.e2eLimit ≤ s.now ∧ m.packet.dst ∉ s.fab.lost) ∧
    (∃ (d : Nat) (s : State) (t : State), s.ready = true ∧ d ∈ s.watched ∧ d ∉ s.fab.lost ∧ getN s.fab.heard d = none ∧ getN s.fab.probed d = none ∧ t = { s with fab := { s.fab with probed := setN s.fab.probed d s.now, heard := setN s.fab.heard d s.now } } ∧ (t.route (t.requestPacket none issSys fabOpRead d 0 0 false false 0 0 0 [])).isSome = true) ∧
    (∃ (d : Nat) (since : Nat) (s : State), s.ready = true ∧ d ∈ s.watched ∧ getN s.fab.heard d = some since ∧ since + s.e2eLimit ≤ s.now) ∧
    (∃ (s : State), s.ready = true) ∧
    (∃ (tag : W32) (m : OutMsg) (s : State), s.ready = true ∧ getN s.fab.outstanding tag.toNat = some m ∧ m.sent = true ∧ s.route m.packet = none) :=
  ⟨(⟨({ pkt fabOpRead 0 8 [] with drove := 9, ptype := 2 }), msg1, outS msg1, by decide +kernel, by decide +kernel, by decide +kernel, by decide +kernel, by decide +kernel, by decide +kernel, by decide +kernel⟩),
   (⟨3, { msg1 with firstSent := 4999901, lastSent := 4999000 }, withR [(rFabE2eLimit, 100), (rFabRetry, 1000)] (outR { msg1 with firstSent := 4999901, lastSent := 4999000 }), by decide +kernel, by decide +kernel, by decide +kernel, by decide +kernel, by decide +kernel, by decide +kernel⟩),
   (⟨3, msg1, withR [(rFabE2eLimit, 1000000), (rFabRetry, 1000)] (outR msg1), by decide +kernel, by decide +kernel, by decide +kernel, by decide +kernel, by decide +kernel, by decide +kernel, by decide +kernel⟩),
   (⟨9, watchS, watchT, by decide +kernel, by decide +kernel, by decide +kernel, by decide +kernel, by decide +kernel, rfl, by decide +kernel⟩),
   (⟨9, 4000000, withR [(rFabE2eLimit, 1000000)] { watchS with fab := { watchS.fab with heard := [(9, 4000000)] } }, by decide +kernel, by decide +kernel, by decide +kernel, by decide +kernel⟩),
   (⟨fabS, by decide +kernel⟩),
   (⟨3, msg1, outS msg1, by decide +kernel, by decide +kernel, by decide +kernel, by decide +kernel⟩)⟩

/-- States and operands that meet the hypotheses of `PortsTrainReplayAndSelect`, clause by clause. -/
theorem witness_PortsTrainReplayAndSelect :
    (∃ (p : Nat) (s : State), s.ready = true ∧ s.mayTrain p = true ∧ (s.port p).state < 2 ∧ (s.port p).trainedAt = none) ∧
    (∃ (p : Nat) (since : Nat) (s : State), s.ready = true ∧ s.mayTrain p = true ∧ (s.port p).state = 1 ∧ (s.port p).trainedAt = some since ∧ since + 10000 ≤ s.now) ∧
    (∃ (now : Nat) (self : Nat) (t : PortTrain) (x : Port) (y : Port), y = trained now self t x ∧ portWidth t.lanes ≠ 0 ∧ t.device ≠ self ∧ max fabMinRev t.minRev ≤ min fabRev t.rev) ∧
    (∃ (now : Nat) (self : Nat) (t : PortTrain) (x : Port) (y : Port), y = trained now self t x ∧ portWidth t.lanes = 0) ∧
    (∃ (now : Nat) (self : Nat) (t : PortTrain) (x : Port) (y : Port), y = trained now self t x ∧ portWidth t.lanes ≠ 0 ∧ t.device = self) ∧
    (∃ (now : Nat) (self : Nat) (t : PortTrain) (x : Port) (y : Port), y = trained now self t x ∧ portWidth t.lanes ≠ 0 ∧ t.device ≠ self ∧ min fabRev t.rev < max fabMinRev t.minRev) ∧
    (∃ (p : Nat) (s : State), s.ready = true ∧ p < 18 ∧ (s.port p).state = 2) ∧
    (∃ (p : Nat) (s : State), s.ready = true ∧ p < 18 ∧ (s.port p).state = 2 ∧ (s.port p).failedReplays < 7) ∧
    (∃ (p : Nat) (s : State), s.ready = true ∧ p < 18 ∧ (s.port p).state = 2 ∧ 7 ≤ (s.port p).failedReplays) ∧
    (∃ (p : Nat) (s : State), s.ready = true ∧ p < 18 ∧ (s.port p).state = 2) ∧
    (∃ (p : Nat) (q : Nat) (v : Nat) (returned : List Nat) (x : Port) (e : Packet × Nat) (s : State), s.ready = true ∧ p < 18 ∧ (s.port p).state = 2 ∧ x = tagHeads s p ((s.port p).giveCredits returned) ∧ minOn (fun q => getND x.head q 0) x.ready = some q ∧ x.nextIn q = some e ∧ v = packetChannel e.1 ∧ (∀ w ∈ s.fab.withheld, w.out ≠ p ∨ w.packet.queue ≠ q)) ∧
    (∃ (p : Nat) (q : Nat) (returned : List Nat) (x : Port) (e : Packet × Nat) (w : Withheld) (s : State), s.ready = true ∧ p < 18 ∧ (s.port p).state = 2 ∧ x = tagHeads s p ((s.port p).giveCredits returned) ∧ minOn (fun q => getND x.head q 0) x.ready = some q ∧ x.nextIn q = some e ∧ s.fab.withheld.find? (fun w => w.out == p && w.packet.queue == q) = some w) ∧
    (∃ (p : Nat) (returned : List Nat) (x : Port) (s : State), s.ready = true ∧ p < 18 ∧ (s.port p).state = 2 ∧ x = tagHeads s p ((s.port p).giveCredits returned) ∧ x.ready = []) ∧
    (∃ (p : Nat) (s : State), s.ready = true ∧ p < 18) :=
  ⟨(⟨17, withR [(rFabPortCtrl 17, 1)] fabS, by decide +kernel, by decide +kernel, by decide +kernel, by decide +kernel⟩),
   (⟨17, 0, (withR [(rFabPortCtrl 17, 1)] fabS).modPort 17 (fun x => { x with state := 1, trainedAt := some 0 }), by decide +kernel, by decide +kernel, by decide +kernel, by decide +kernel, by decide +kernel⟩),
   (⟨5, 7, train1, Port.reset, trained (5) (7) (train1) (Port.reset), rfl, by decide +kernel, by decide +kernel, by decide +kernel⟩),
   (⟨5, 7, { train1 with lanes := 0 }, Port.reset, trained (5) (7) ({ train1 with lanes := 0 }) (Port.reset), rfl, by decide +kernel⟩),
   (⟨5, 9, train1, Port.reset, trained (5) (9) (train1) (Port.reset), rfl, by decide +kernel, by decide +kernel⟩),
   (⟨5, 7, { train1 with rev := 0 }, Port.reset, trained (5) (7) ({ train1 with rev := 0 }) (Port.reset), rfl, by decide +kernel, by decide +kernel, by decide +kernel⟩),
   (⟨17, fabS.modPort 17 (fun x => { x with state := 2 }), by decide +kernel, by decide +kernel, by decide +kernel⟩),
   (⟨17, fabS.modPort 17 (fun x => { x with state := 2 }), by decide +kernel, by decide +kernel, by decide +kernel, by decide +kernel⟩),
   (⟨17, fabS.modPort 17 (fun x => { x with state := 2, failedReplays := 7 }), by decide +kernel, by decide +kernel, by decide +kernel, by decide +kernel⟩),
   (⟨17, fabS.modPort 17 (fun x => { x with state := 2 }), by decide +kernel, by decide +kernel, by decide +kernel⟩),
   (⟨17, 15, packetChannel ((pkt 1 0 0 [], 0)).1, [0, 1], tagHeads (egressS) (17) (((egressS).port (17)).giveCredits ([0, 1])), (pkt 1 0 0 [], 0), egressS, by decide +kernel, by decide +kernel, by decide +kernel, rfl, by decide +kernel, by decide +kernel, rfl, by decide +kernel⟩),
   (⟨17, 15, [], tagHeads (egressW) (17) (((egressW).port (17)).giveCredits ([])), (pkt 1 0 0 [], 0), ⟨none, 17, { pkt 1 0 0 [] with queue := 15 }⟩, egressW, by decide +kernel, by decide +kernel, by decide +kernel, rfl, by decide +kernel, by decide +kernel, by decide +kernel⟩),
   (⟨17, [], tagHeads (fabS.modPort 17 (fun x => { x with state := 2 })) (17) (((fabS.modPort 17 (fun x => { x with state := 2 })).port (17)).giveCredits ([])), fabS.modPort 17 (fun x => { x with state := 2 }), by decide +kernel, by decide +kernel, by decide +kernel, rfl, by decide +kernel⟩),
   (⟨17, fabS, by decide +kernel, by decide +kernel⟩)⟩

/-- States and operands that meet the hypotheses of `HostLinkTrainsAndFails`, clause by clause. -/
theorem witness_HostLinkTrainsAndFails :
    (∃ (lanes : Byte) (s : State), (s.boot.status = 4 ∨ s.boot.status = 5) ∧ s.link.up = false ∧ s.link.trainedAt = none ∧ (linkWidth (s.boot.usableLanes lanes)).1 ≠ 0) ∧
    (∃ (since : Nat) (s : State), (s.boot.status = 4 ∨ s.boot.status = 5) ∧ s.link.up = false ∧ s.link.trainedAt = some since ∧ since + 10000 ≤ s.now) ∧
    (∃ (lanes : Byte) (s : State), (linkWidth (s.boot.usableLanes lanes)).1 = 0) ∧
    (∃ (s : State), s.link.up = true) ∧
    (∃ (s : State), s.link.up = true ∧ s.link.failedReplays < 7) ∧
    (∃ (s : State), s.link.up = true ∧ 7 ≤ s.link.failedReplays) ∧
    (∃ (s : State), s.link.up = true ∧ s.link.downSince = none) ∧
    (∃ (since : Nat) (s : State), s.link.downSince = some since ∧ (s.boot.status = 4 ∨ s.boot.status = 5) ∧ s.link.everUp = true ∧ s.link.up = false ∧ since + max 10000 (s.act rLnkDownLimit) ≤ s.now) :=
  ⟨(⟨0x0F, { dev with link := { dev.link with up := false } }, Or.inr (by decide +kernel), by decide +kernel, by decide +kernel, by decide +kernel⟩),
   (⟨0, { dev with link := { dev.link with up := false, training := true, trainedAt := some 0 } }, Or.inr (by decide +kernel), by decide +kernel, by decide +kernel, by decide +kernel⟩),
   (⟨0, dev, by decide +kernel⟩),
   (⟨dev, by decide +kernel⟩),
   (⟨dev, by decide +kernel, by decide +kernel⟩),
   (⟨{ dev with link := { dev.link with failedReplays := 7 } }, by decide +kernel, by decide +kernel⟩),
   (⟨dev, by decide +kernel, by decide +kernel⟩),
   (⟨0, withR [(rLnkDownLimit, 5000000)] { dev with link := { dev.link with up := false, downSince := some 0 } }, by decide +kernel, Or.inr (by decide +kernel), by decide +kernel, by decide +kernel, by decide +kernel⟩)⟩

/-- States and operands that meet the hypotheses of `FailStopEntry`, clause by clause. -/
theorem witness_FailStopEntry :
    (∃ (cause : Nat) (s : State), s.boot.status ≠ 15 ∧ 1 ≤ cause ∧ cause < 8) ∧
    (∃ (cause : Nat) (s : State), s.boot.status ≠ 15 ∧ 1 ≤ cause ∧ cause < 8) :=
  ⟨(⟨1, dev, by decide +kernel, by decide +kernel, by decide +kernel⟩),
   (⟨7, dev, by decide +kernel, by decide +kernel, by decide +kernel⟩)⟩

/-- States and operands that meet the hypotheses of `FailStopCausesAndScrub`, clause by clause. -/
theorem witness_FailStopCausesAndScrub :
    (∃ (sensor : Nat) (s : State), s.running = true ∧ sensor < 80) ∧
    (∃ (cpu : Nat) (s : State), s.running = true ∧ cpu < 8) ∧
    (∃ (pll : Nat) (s : State), s.running = true ∧ (pll = 8 ∨ pll = 19) ∧ bitOf s.power.pllLock pll = true) ∧
    (∃ (pll : Nat) (s : State), s.running = true ∧ pll < 21 ∧ pll ≠ 8 ∧ pll ≠ 19 ∧ bitOf s.power.pllLock pll = true) ∧
    (∃ (stack : Nat) (s : State), s.running = true ∧ stack < 8 ∧ s.stackBound stack = true) ∧
    (∃ (s : State), s.running = true) ∧
    (∃ (s : State) (b : State), s.ready = true ∧ s.act rHbmScrub ≠ 0 ∧ b = applyPend (fun k => k == rHbmScrub) s ∧ b.act rHbmScrub ≠ 0) :=
  ⟨(⟨79, dev, by decide +kernel, by decide +kernel⟩),
   (⟨7, dev, by decide +kernel, by decide +kernel⟩),
   (⟨19, { dev with power := { dev.power with pllLock := 2 ^ 21 - 1 } }, by decide +kernel, by decide +kernel, by decide +kernel⟩),
   (⟨20, { dev with power := { dev.power with pllLock := 2 ^ 21 - 1 } }, by decide +kernel, by decide +kernel, by decide +kernel, by decide +kernel, by decide +kernel⟩),
   (⟨0, dev, by decide +kernel, by decide +kernel, by decide +kernel⟩),
   (⟨dev, by decide +kernel⟩),
   (⟨withR [(rHbmScrub, 1000)] dev, applyPend (fun k => k == rHbmScrub) (withR [(rHbmScrub, 1000)] dev), by decide +kernel, by decide +kernel, rfl, by decide +kernel⟩)⟩

/-- States and operands that meet the hypotheses of `ResetsAndSelfTestReport`, clause by clause. -/
theorem witness_ResetsAndSelfTestReport :
    (∃ (b : BootInputs), b.comparatorHot = false ∧ b.testCode = none ∧ b.bootCode = none ∧ b.linkFences = 0 ∧ bitOf b.strap 4 = false ∧ linkWidth b.linkLanes = (8, 0)) ∧
    (∃ (w : Nat) (s : State), s.boot.status = 5 ∧ 1000 ≤ w) ∧
    (∃ (v : W64) (s : State), s.ready = true ∧ v.toNat % 65536 = 0x5752) ∧
    (∃ (s : State), s.boot.status = 6) ∧
    (∃ (k : Nat) (q : Nat) (s : State), s.ready = true ∧ s.boot.report = some k ∧ s.defaultQueue mgmtPath = some q) ∧
    (∃ (w : Nat) (s : State), s.boot.status = 5 ∧ 20 ≤ w ∧ w < 1000) ∧
    (∃ (w : Nat) (s : State), s.boot.status = 5 ∧ 20 ≤ w ∧ w < 1000) ∧
    (∃ (w : Nat), w < 20) :=
  ⟨(⟨cold1, by decide +kernel, by decide +kernel, by decide +kernel, by decide +kernel, by decide +kernel, by decide +kernel⟩),
   (⟨1000, dev, by decide +kernel, by decide +kernel⟩),
   (⟨0x5752, dev, by decide +kernel, by decide +kernel⟩),
   (⟨{ dev with boot := { dev.boot with status := 6 } }, by decide +kernel⟩),
   (⟨7, 1, { dev with boot := { dev.boot with report := some 7 } }, by decide +kernel, by decide +kernel, by decide +kernel⟩),
   (⟨20, dev, by decide +kernel, by decide +kernel, by decide +kernel⟩),
   (⟨999, dev, by decide +kernel, by decide +kernel, by decide +kernel⟩),
   (⟨19, by decide +kernel⟩)⟩

/-- States and operands that meet the hypotheses of `ColdResetAsserted`, clause by clause. -/
theorem witness_ColdResetAsserted :
    (∃ (w : Nat), 1000 ≤ w) ∧
    (∃ (w : Nat), 20 ≤ w ∧ w < 1000) ∧
    (∃ (w : Nat), 20 ≤ w ∧ w < 1000) ∧
    (∃ (w : Nat), w < 20) :=
  ⟨(⟨1000, by decide +kernel⟩),
   (⟨20, by decide +kernel, by decide +kernel⟩),
   (⟨999, by decide +kernel, by decide +kernel⟩),
   (⟨19, by decide +kernel⟩)⟩

/-- States and operands that meet the hypotheses of `RandomValuesAndScanAccess`, clause by clause. -/
theorem witness_RandomValuesAndScanAccess :
    (∃ (s : State), s.ready = true ∧ s.sec.drbgOk = true ∧ s.sec.entropyFail = false ∧ (65536 ≤ s.sec.requests ∨ s.sec.lastReseed + 1000000 ≤ s.now)) ∧
    (∃ (s : State), s.ready = true ∧ s.sec.drbgOk = true ∧ s.sec.entropyFail = false ∧ (65536 ≤ s.sec.requests ∨ s.sec.lastReseed + 1000000 ≤ s.now)) ∧
    (∃ (s : State), s.ready = true ∧ s.sec.entropyFail = false) ∧
    ((tokenOk (scanS) (tok1) = true) → ∃ (k : List Byte) (s : State), s.ready = true ∧ tokenOk s k = true) ∧
    (∃ (k : List Byte) (s : State), s.ready = true ∧ tokenOk s k = false) ∧
    (∃ (k : Nat) (s : State), s.ready = true ∧ s.sec.challengeRead = k ∧ k < 5) ∧
    (∃ (s : State), s.ready = true ∧ s.sec.challengeRead = 5 ∧ s.sec.drbgOk = true ∧ s.sec.entropyFail = false) :=
  ⟨(⟨{ dev with sec := { dev.sec with requests := 65536 } }, by decide +kernel, by decide +kernel, by decide +kernel, Or.inl (by decide +kernel)⟩),
   (⟨dev, by decide +kernel, by decide +kernel, by decide +kernel, Or.inr (by decide +kernel)⟩),
   (⟨dev, by decide +kernel, by decide +kernel⟩),
   (fun h1 => ⟨tok1, scanS, by decide +kernel, h1⟩),
   (⟨[], dev, by decide +kernel, by decide +kernel⟩),
   (⟨4, { dev with sec := { dev.sec with challengeRead := 4 } }, by decide +kernel, by decide +kernel, by decide +kernel⟩),
   (⟨{ dev with sec := { dev.sec with challengeRead := 5 } }, by decide +kernel, by decide +kernel, by decide +kernel, by decide +kernel⟩)⟩

/-- States and operands that meet the hypotheses of `MigratingSheets`, clause by clause. -/
theorem witness_MigratingSheets :
    (∃ (f : Nat) (i : Nat) (tier : Nat) (s : State), s.ready = true ∧ (s.fold f).requests = [(i, tier)] ∧ ((s.fold f).sheet i).migrating = false ∧ hasN (s.fold f).migs i = false ∧ (s.fold f).backed i = true ∧ ((s.fold f).sheet i).tier ≠ tier ∧ ((s.fold f).sheet i).wet = false ∧ (3 ≤ tier → s.sheetPoisoned f i = false) ∧ quotaMoveOver s f i = false) ∧
    (∃ (f : Nat) (i : Nat) (loc : Nat) (m : Mig) (s : State) (v : State) (u : State), s.ready = true ∧ getN (s.fold f).migs i = some m ∧ m.phase ≠ 7 ∧ m.target ≠ 3 ∧ readBack f i s = some v ∧ quotaMoveOver s f i = false ∧ s.room f m.target ≠ 0 ∧ chooseLoc f m.target m.targetPen v = some (loc, u)) ∧
    (∃ (f : Nat) (i : Nat) (m : Mig) (s : State) (v : State), s.ready = true ∧ getN (s.fold f).migs i = some m ∧ m.phase = 5 ∧ m.target = 3 ∧ (s.fold f).ns.writes.any (fun o => o.index == some i) = false ∧ readBack f i s = some v ∧ quotaMoveOver s f i = false ∧ s.room f 3 ≠ 0) ∧
    (∃ (f : Nat) (i : Nat) (m : Mig) (s : State), s.ready = true ∧ getN (s.fold f).migs i = some m ∧ m.phase ≠ 7 ∧ (m.oldTier = 3 ∨ m.oldTier = 4)) ∧
    (∃ (f : Nat) (i : Nat) (m : Mig) (s : State), s.ready = true ∧ getN (s.fold f).migs i = some m ∧ m.phase ≠ 7 ∧ (m.oldTier = 3 ∨ m.oldTier = 4) ∧ readBack f i s = none) ∧
    (∃ (f : Nat) (i : Nat) (m : Mig) (s : State), s.ready = true ∧ getN (s.fold f).migs i = some m ∧ m.phase ≠ 7 ∧ m.target = 3) ∧
    (∃ (f : Nat) (i : Nat) (m : Mig) (s : State), s.ready = true ∧ getN (s.fold f).migs i = some m ∧ m.phase = 7 ∧ m.oldTier ≠ 3) ∧
    (∃ (f : Nat) (i : Nat) (m : Mig) (s : State), s.ready = true ∧ getN (s.fold f).migs i = some m ∧ m.phase = 7 ∧ m.oldTier = 3) :=
  ⟨(⟨0, 5, 0, sheetS 2 [(5, 0)] [], by decide +kernel, by decide +kernel, by decide +kernel, by decide +kernel, by decide +kernel, by decide +kernel, by decide +kernel, by decide +kernel, by decide +kernel⟩),
   (⟨0, 5, moveTo.1, mig1 2 0 2, moveS, moveV, moveTo.2, by decide +kernel, by decide +kernel, by decide +kernel, by decide +kernel, someVal_eq (readBack 0 5 moveS) (by decide +kernel), by decide +kernel, by decide +kernel, someVal_eq (chooseLoc 0 (mig1 2 0 2).target (mig1 2 0 2).targetPen moveV) (by decide +kernel)⟩),
   (⟨0, 5, mig1 5 3 2, sheetS 2 [] [(5, mig1 5 3 2)], someVal (readBack (0) (5) (sheetS 2 [] [(5, mig1 5 3 2)])) (by decide +kernel), by decide +kernel, by decide +kernel, by decide +kernel, by decide +kernel, by decide +kernel, someVal_eq _ _, by decide +kernel, by decide +kernel⟩),
   (⟨0, 5, mig1 2 2 3, sheetS 3 [] [(5, mig1 2 2 3)], by decide +kernel, by decide +kernel, by decide +kernel, Or.inl rfl⟩),
   (⟨0, 5, mig1 2 2 4, sheetS 4 [] [(5, mig1 2 2 4)], by decide +kernel, by decide +kernel, by decide +kernel, Or.inr rfl, by decide +kernel⟩),
   (⟨0, 5, mig1 2 3 2, sheetS 2 [] [(5, mig1 2 3 2)], by decide +kernel, by decide +kernel, by decide +kernel, by decide +kernel⟩),
   (⟨0, 5, mig1 7 3 2, sheetS 3 [] [(5, mig1 7 3 2)], by decide +kernel, by decide +kernel, by decide +kernel, by decide +kernel⟩),
   (⟨0, 5, mig1 7 2 3, sheetS 2 [] [(5, mig1 7 2 3)], by decide +kernel, by decide +kernel, by decide +kernel, by decide +kernel⟩)⟩

/-- States and operands that meet the hypotheses of `CommitProtocol`, clause by clause. -/
theorem witness_CommitProtocol :
    (∃ (b : Nat) (s : State), s.ready = true ∧ hasCommit b = true ∧ ((s.commitOf b).state = 1 ∨ (s.commitOf b).state = 2)) ∧
    (∃ (b : Nat) (k : Check) (s : State), s.ready = true ∧ hasCommit b = true ∧ (s.commitOf b).state ≠ 1 ∧ (s.commitOf b).state ≠ 2 ∧ firstBad (blockChecks b s (s.withActive (s.changes b)) (s.changes b)) = some k) ∧
    (∃ (b : Nat) (s : State), s.ready = true ∧ hasCommit b = true ∧ (s.commitOf b).state ≠ 1 ∧ (s.commitOf b).state ≠ 2 ∧ firstBad (blockChecks b s (s.withActive (s.changes b)) (s.changes b)) = none) ∧
    (∃ (b : Nat) (s : State), s.ready = true ∧ (s.commitOf b).state = 2) ∧
    (∃ (b : Nat) (s : State), s.ready = true ∧ hasCommit b = true) :=
  ⟨(⟨16, dev.modCommit 16 (fun c => { c with state := 1 }), by decide +kernel, by decide +kernel, by decide +kernel⟩),
   (⟨7, someVal (firstBad (blockChecks (7) (badS) ((badS).withActive ((badS).changes (7))) ((badS).changes (7)))) (by decide +kernel), badS, by decide +kernel, by decide +kernel, by decide +kernel, by decide +kernel, someVal_eq _ _⟩),
   (⟨7, { dev with regs := { dev.regs with shadow := regs [(rHbmScrub, 1000)] } }, by decide +kernel, by decide +kernel, by decide +kernel, by decide +kernel, by decide +kernel⟩),
   (⟨17, dev.modCommit 17 (fun c => { c with state := 2 }), by decide +kernel, by decide +kernel⟩),
   (⟨20, dev, by decide +kernel, by decide +kernel⟩)⟩

/-- States and operands that meet the hypotheses of `CommitWritesOfGoAndDiscard`, clause by clause. -/
theorem witness_CommitWritesOfGoAndDiscard :
    ∃ (b : Nat) (s : State), s.ready = true ∧ b < 21 ∧ hasCommit b = true :=
  ⟨20, dev, by decide +kernel, by decide +kernel, by decide +kernel⟩

/-- States and operands that meet the hypotheses of `RegisterWritesAndShadows`, clause by clause. -/
theorem witness_RegisterWritesAndShadows :
    (∃ (o : Nat) (r : RegRow) (v : W64) (s : State), s.ready = true ∧ regRow o = some r ∧ r.kind = .sh ∧ o % 8 = 0 ∧ o < 0x150000 ∧ (o < 0x20100 ∨ 0x20138 ≤ o) ∧ (o % 65536 < 0xFE8 ∨ 0x1000 ≤ o % 65536) ∧ writeCommand o v.toNat s = none ∧ r.mask < 2 ^ 64) ∧
    (∃ (o : Nat) (r : RegRow) (v : W64) (s : State), s.ready = true ∧ regRow o = some r ∧ (r.kind = .rw ∨ r.kind = .live) ∧ o % 8 = 0 ∧ o < 0x2000000 ∧ (o < 0x20100 ∨ 0x20138 ≤ o) ∧ writeCommand o v.toNat s = none ∧ o ≠ rNfcService ∧ r.mask < 2 ^ 64) ∧
    (∃ (o : Nat) (r : RegRow) (v : W64) (s : State), s.ready = true ∧ regRow o = some r ∧ r.kind = .ro ∧ o % 8 = 0 ∧ o < 0x2000000 ∧ (o < 0x20100 ∨ 0x20138 ≤ o) ∧ writeCommand o v.toNat s = none) :=
  ⟨(⟨rHbmScrub, someVal (regRow (rHbmScrub)) (by decide +kernel), 1000, dev, by decide +kernel, someVal_eq _ _, by decide +kernel, by decide +kernel, by decide +kernel, by decide +kernel, by decide +kernel, by decide +kernel, by decide +kernel⟩),
   (⟨rTallySel, someVal (regRow (rTallySel)) (by decide +kernel), 31, dev, by decide +kernel, someVal_eq _ _, by decide +kernel, by decide +kernel, by decide +kernel, by decide +kernel, by decide +kernel, by decide +kernel, by decide +kernel⟩),
   (⟨rLnkReplayCount, someVal (regRow (rLnkReplayCount)) (by decide +kernel), 1, dev, by decide +kernel, someVal_eq _ _, by decide +kernel, by decide +kernel, by decide +kernel, by decide +kernel, by decide +kernel⟩)⟩

/-- States and operands that meet the hypotheses of `OtherRequestersAreRefused`, clause by clause. -/
theorem witness_OtherRequestersAreRefused :
    ∃ (req : Nat) (s : State), s.ready = true ∧ req ≠ mgmtPath :=
  ⟨63, dev, by decide +kernel, by decide +kernel⟩

/-- States and operands that meet the hypotheses of `FoldsFormChangeAndRelease`, clause by clause. -/
theorem witness_FoldsFormChangeAndRelease :
    (∃ (f : Nat) (s : State), s.ready = true ∧ (s.fold f).status = 1 ∧ (s.fold f).key.state = 0 ∧ (s.fold f).key.current ≠ []) ∧
    (∃ (f : Nat) (s : State), s.ready = true ∧ s.formed f = true ∧ s.sysDue f = true ∧ s.due (rSysFoldCtrl f) = 1) ∧
    (∃ (f : Nat) (gone : List Nat) (s : State) (u : State), s.ready = true ∧ s.formed f = true ∧ s.sysDue f = true ∧ s.due (rSysFoldCtrl f) = 1 ∧ gone = (s.fold f).wayList.filter (fun w => !(s.dueWays f).toNat.testBit w) ∧ gone ≠ [] ∧ (∀ w ∈ gone, w ∉ (s.fold f).pinnedWays) ∧ moveOut f (fun e => e.tier == 1 && gone.contains (e.loc % 64)) s = some u) ∧
    (∃ (f : Nat) (gone : List Nat) (s : State), s.ready = true ∧ s.formed f = true ∧ s.sysDue f = true ∧ s.due (rSysFoldCtrl f) = 1 ∧ gone = (s.fold f).wayList.filter (fun w => !(s.dueWays f).toNat.testBit w) ∧ gone ≠ [] ∧ (∀ w ∈ gone, w ∉ (s.fold f).pinnedWays) ∧ (∀ p ∈ (s.fold f).sheets, p.2.tier ≠ 1)) ∧
    (∃ (f : Nat) (gone : List Nat) (s : State) (u : State), s.ready = true ∧ s.formed f = true ∧ s.sysDue f = true ∧ s.due (rSysFoldCtrl f) = 1 ∧ gone = (s.fold f).penList.filter (fun n => !(s.duePens f).toNat.testBit n) ∧ gone ≠ [] ∧ (s.fold f).active = none ∧ (s.fold f).drain = none ∧ moveOut f (fun e => (e.tier == 0 && gone.contains (e.loc % 64)) || (e.tier == 2 && gone.contains (e.loc % 256 / 4))) (s.modFold f (fun x => { x with pens := x.pens &&& s.duePens f })) = some u) ∧
    (∃ (f : Nat) (gone : List Nat) (s : State), s.ready = true ∧ s.formed f = true ∧ s.sysDue f = true ∧ s.due (rSysFoldCtrl f) = 1 ∧ gone = (s.fold f).penList.filter (fun n => !(s.duePens f).toNat.testBit n) ∧ gone ≠ [] ∧ (s.fold f).active = none ∧ (s.fold f).drain = none ∧ (∀ p ∈ (s.fold f).sheets, p.2.tier ≠ 0 ∧ p.2.tier ≠ 2)) ∧
    (∃ (f : Nat) (s : State), s.ready = true ∧ s.formed f = true ∧ getN s.regs.pend (rSysFoldCtrl f) = some 0) ∧
    (∃ (f : Nat) (s : State), s.ready = true ∧ (s.fold f).status = 3 ∧ (s.fold f).ns.state = nsAbsent) :=
  ⟨(⟨1, dev.modFold 1 (fun x => { x with status := 1, pens := 4, key := { x.key with current := [1] } }), by decide +kernel, by decide +kernel, by decide +kernel, by decide +kernel⟩),
   (⟨0, { dev with regs := { (dev).regs with pend := regs [(rSysFoldPens 0, 7), (rSysFoldCtrl 0, 1)] } }, by decide +kernel, by decide +kernel, by decide +kernel, by decide +kernel⟩),
   (⟨0, ((wayS).fold (0)).wayList.filter (fun w => !((wayS).dueWays (0)).toNat.testBit w), wayS, someVal (moveOut (0) (fun e => e.tier == 1 && (((wayS).fold (0)).wayList.filter (fun w => !((wayS).dueWays (0)).toNat.testBit w)).contains (e.loc % 64)) (wayS)) (by decide +kernel), by decide +kernel, by decide +kernel, by decide +kernel, by decide +kernel, rfl, by decide +kernel, by decide +kernel, someVal_eq _ _⟩),
   (⟨0, (({ wayS with folds := dev.folds }).fold (0)).wayList.filter (fun w => !(({ wayS with folds := dev.folds }).dueWays (0)).toNat.testBit w), { wayS with folds := dev.folds }, by decide +kernel, by decide +kernel, by decide +kernel, by decide +kernel, rfl, by decide +kernel, by decide +kernel, by decide +kernel⟩),
   (⟨0, ((penRemS).fold (0)).penList.filter (fun n => !((penRemS).duePens (0)).toNat.testBit n), penRemS, someVal (moveOut (0) (fun e => (e.tier == 0 && (((penRemS).fold (0)).penList.filter (fun n => !((penRemS).duePens (0)).toNat.testBit n)).contains (e.loc % 64)) || (e.tier == 2 && (((penRemS).fold (0)).penList.filter (fun n => !((penRemS).duePens (0)).toNat.testBit n)).contains (e.loc % 256 / 4))) ((penRemS).modFold (0) (fun x => { x with pens := x.pens &&& (penRemS).duePens (0) }))) (by decide +kernel), by decide +kernel, by decide +kernel, by decide +kernel, by decide +kernel, rfl, by decide +kernel, by decide +kernel, by decide +kernel, someVal_eq _ _⟩),
   (⟨0, (({ penRemS with folds := dev.folds }).fold (0)).penList.filter (fun n => !(({ penRemS with folds := dev.folds }).duePens (0)).toNat.testBit n), { penRemS with folds := dev.folds }, by decide +kernel, by decide +kernel, by decide +kernel, by decide +kernel, rfl, by decide +kernel, by decide +kernel, by decide +kernel, by decide +kernel⟩),
   (⟨0, { dev with regs := { (dev).regs with pend := regs [(rSysFoldCtrl 0, 0)] } }, by decide +kernel, by decide +kernel, by decide +kernel⟩),
   (⟨0, devF (fun x => { x with status := 3 }), by decide +kernel, by decide +kernel, by decide +kernel⟩)⟩

/-- States and operands that meet the hypotheses of `NamespacesFormReleaseAndRebuild`, clause by clause. -/
theorem witness_NamespacesFormReleaseAndRebuild :
    (∃ (f : Nat) (s : State), s.ready = true ∧ s.maskDue f = true ∧ s.due (rNfcNsChannels f) ≠ 0 ∧ (s.fold f).ns.state = nsAbsent) ∧
    (∃ (f : Nat) (s : State), s.ready = true ∧ (s.fold f).ns.state = nsForming) ∧
    (∃ (f : Nat) (s : State), s.ready = true ∧ (s.fold f).status ≠ 3 ∧ s.maskDue f = true ∧ s.due (rNfcNsChannels f) = 0 ∧ ((s.fold f).ns.state = nsNormal ∨ (s.fold f).ns.state = nsReadOnly)) ∧
    (∃ (f : Nat) (s : State), s.ready = true ∧ (s.fold f).ns.state = nsReleasing) ∧
    (∃ (f : Nat) (s : State), s.ready = true ∧ (s.fold f).ns.state = nsRebuilding ∧ (s.fold f).ns.sealedState ≠ nsReadOnly ∧ (s.fold f).registering = []) ∧
    (∃ (s : State), s.ready = true) :=
  ⟨(⟨0, { dev with regs := { dev.regs with pend := regs [(rNfcNsChannels 0, 1)] } }, by decide +kernel, by decide +kernel, by decide +kernel, by decide +kernel⟩),
   (⟨0, nsS (fun x => { x with state := nsForming }), by decide +kernel, by decide +kernel⟩),
   (⟨0, { nsS (fun x => { x with state := nsReadOnly }) with regs := { dev.regs with pend := regs [(rNfcNsChannels 0, 0)] } }, by decide +kernel, by decide +kernel, by decide +kernel, by decide +kernel, Or.inr (by decide +kernel)⟩),
   (⟨0, nsS (fun x => { x with state := nsReleasing }), by decide +kernel, by decide +kernel⟩),
   (⟨0, nsS (fun x => { x with state := nsRebuilding, log := [⟨codewordInfo 0 0 1 0 false false false, 17, []⟩] }), by decide +kernel, by decide +kernel, by decide +kernel, by decide +kernel⟩),
   (⟨dev, by decide +kernel⟩)⟩

/-- States and operands that meet the hypotheses of `FlashProgramsReadsAndSamples`, clause by clause. -/
theorem witness_FlashProgramsReadsAndSamples :
    (∃ (f : Nat) (i : Nat) (k : Nat) (m : Mig) (s : State) (u : State) (content : List Byte) (len : Nat), s.ready = true ∧ getN (s.fold f).migs i = some m ∧ m.target = 3 ∧ m.phase < 5 ∧ (s.fold f).ns.state = nsNormal ∧ quotaMoveOver s f i = false ∧ (s.room f 3 ≠ 0 ∨ m.oldTier = 3) ∧ content = s.read (s.sheetOffset f i) 65536 ∧ len = s.lenIn f 3 ((s.fold f).sheet i) content ∧ storeForm s f len (some i) = some (u, k)) ∧
    (∃ (f : Nat) (o : FlashOp) (s : State), s.ready = true ∧ (s.fold f).ns.writes.find? (durableOp s.boot.firmware (s.fold f).ns) = some o ∧ (s.fold f).ns.discards = []) ∧
    (∃ (f : Nat) (g : GcCopy) (s : State), s.ready = true ∧ (s.fold f).ns.gc = some g) ∧
    (∃ (f : Nat) (b : Nat) (u : Nat) (g : GcCopy) (s : State), s.ready = true ∧ (s.fold f).ns.state ≠ nsAbsent ∧ u < (s.fold f).ns.units ∧ (s.fold f).ns.gc = some g ∧ g.target = b) ∧
    (∃ (f : Nat) (b : Nat) (u : Nat) (s : State), s.ready = true ∧ (s.fold f).ns.state ≠ nsAbsent ∧ u < (s.fold f).ns.units ∧ (∀ g, (s.fold f).ns.gc = some g → g.target ≠ b)) ∧
    (∃ (f : Nat) (lpn : Nat) (ppn : Nat) (s : State), s.ready = true ∧ getN (s.fold f).ns.map lpn = some ppn ∧ ppn ≠ lpnPoisoned) ∧
    (∃ (f : Nat) (lpn : Nat) (ppn : Nat) (s : State), s.ready = true ∧ getN (s.fold f).ns.map lpn = some ppn ∧ ppn ≠ lpnPoisoned) ∧
    (∃ (f : Nat) (s : State), s.ready = true ∧ (s.fold f).ns.state ≠ nsAbsent) :=
  ⟨(⟨0, 5, _, mig1 2 3 2, writeS, _, (writeS).read ((writeS).sheetOffset (0) (5)) 65536, (writeS).lenIn (0) 3 (((writeS).fold (0)).sheet (5)) ((writeS).read ((writeS).sheetOffset (0) (5)) 65536), by decide +kernel, by decide +kernel, by decide +kernel, by decide +kernel, by decide +kernel, by decide +kernel, by decide +kernel, rfl, rfl, writeS_val _ _⟩),
   (⟨0, someVal (((nsS (fun x => { x with writes := [⟨some 5, []⟩] })).fold (0)).ns.writes.find? (durableOp (nsS (fun x => { x with writes := [⟨some 5, []⟩] })).boot.firmware ((nsS (fun x => { x with writes := [⟨some 5, []⟩] })).fold (0)).ns)) (by decide +kernel), nsS (fun x => { x with writes := [⟨some 5, []⟩] }), by decide +kernel, someVal_eq _ _, by decide +kernel⟩),
   (⟨0, gc1, nsS (fun x => { x with gc := some gc1 }), by decide +kernel, by decide +kernel⟩),
   (⟨0, 1, 1, gc1, nsS (fun x => { x with gc := some gc1 }), by decide +kernel, by decide +kernel, by decide +kernel, by decide +kernel, by decide +kernel⟩),
   (⟨0, 99, 1, nsS id, by decide +kernel, by decide +kernel, by decide +kernel, by decide +kernel⟩),
   (⟨0, 0, 17, mapped, by decide +kernel, by decide +kernel, by decide +kernel⟩),
   (⟨0, 0, 17, mapped, by decide +kernel, by decide +kernel, by decide +kernel⟩),
   (⟨0, nsS id, by decide +kernel, by decide +kernel⟩)⟩

/-- States and operands that meet the hypotheses of `CollectionFoldingAndErasure`, clause by clause. -/
theorem witness_CollectionFoldingAndErasure :
    (∃ (f : Nat) (v : Nat) (s : State), s.ready = true ∧ (s.fold f).ns.state = nsNormal ∧ (s.fold f).ns.gc = none ∧ gcWanted s f = true ∧ gcVictim s f = some v) ∧
    (∃ (f : Nat) (g : GcCopy) (s : State), s.ready = true ∧ (s.fold f).ns.gc = some g ∧ (g.copied.map (·.1)).Nodup) ∧
    (∃ (f : Nat) (b : Nat) (s : State), s.ready = true ∧ (s.fold f).ns.state = nsNormal ∧ (s.fold f).ns.gc = none ∧ oldestBuffer (s.fold f).ns = some b) ∧
    (∃ (f : Nat) (b : Nat) (s : State), s.ready = true ∧ ((s.fold f).ns.sb b).mode = 5 ∧ (s.fold f).ns.gc = none ∧ ((s.fold f).ns.sb b).erases + 1 ≠ s.boot.firmware.endurance) :=
  ⟨(⟨0, someVal (gcVictim (nsS (fun x => { x with blocks := [(3, sb 3 64 true)] })) (0)) (by decide +kernel), nsS (fun x => { x with blocks := [(3, sb 3 64 true)] }), by decide +kernel, by decide +kernel, by decide +kernel, by decide +kernel, someVal_eq _ _⟩),
   (⟨0, gc1, nsS (fun x => { x with gc := some gc1, map := [(0, 17), (1, 19)] }), by decide +kernel, by decide +kernel, by decide +kernel⟩),
   (⟨0, someVal (oldestBuffer ((nsS (fun x => { x with blocks := (List.range 12).map (fun k => (k, sb 4 64 false)) })).fold (0)).ns) (by decide +kernel), nsS (fun x => { x with blocks := (List.range 12).map (fun k => (k, sb 4 64 false)) }), by decide +kernel, by decide +kernel, by decide +kernel, someVal_eq _ _⟩),
   (⟨0, 3, nsS (fun x => { x with blocks := [(3, sb 5 64 false)] }), by decide +kernel, by decide +kernel, by decide +kernel, by decide +kernel⟩)⟩

/-- States and operands that meet the hypotheses of `PowerLadder`, clause by clause. -/
theorem witness_PowerLadder :
    (∃ (b : Nat) (s : State), s.ready = true ∧ b < 106 ∧ (s.block b).level = 0 ∧ (b < 64 → (s.pen b).running = false)) ∧
    (∃ (b : Nat) (s : State), s.ready = true ∧ b < 106 ∧ (s.block b).level = 0 ∧ (b < 64 → (s.pen b).running = false)) ∧
    (∃ (b : Nat) (l : Nat) (s : State), s.ready = true ∧ b < 106 ∧ (s.block b).level ≠ 0 ∧ (s.block b).level ≠ 4 ∧ (b < 64 → (s.pen b).running = false) ∧ l = idleLevel (bitsOf (s.act (policyReg b)) 31 0) (bitsOf (s.act (policyReg b)) 63 32) (s.now - (s.block b).since) (s.block b).level (s.mayCollapse b)) ∧
    (∃ (b : Nat), b < 64) ∧
    (∃ (b : Nat) (s : State), s.ready = true ∧ b < 106 ∧ s.blockFenced b = false ∧ s.blockDisabled b = false) :=
  ⟨(⟨0, dev, by decide +kernel, by decide +kernel, by decide +kernel, by decide +kernel⟩),
   (⟨105, dev, by decide +kernel, by decide +kernel, by decide +kernel, by decide +kernel⟩),
   (⟨105, idleLevel (bitsOf (({ dev with power := { dev.power with ladder := [(105, ⟨1, 0⟩)] } }).act (policyReg (105))) 31 0) (bitsOf (({ dev with power := { dev.power with ladder := [(105, ⟨1, 0⟩)] } }).act (policyReg (105))) 63 32) (({ dev with power := { dev.power with ladder := [(105, ⟨1, 0⟩)] } }).now - (({ dev with power := { dev.power with ladder := [(105, ⟨1, 0⟩)] } }).block (105)).since) (({ dev with power := { dev.power with ladder := [(105, ⟨1, 0⟩)] } }).block (105)).level (({ dev with power := { dev.power with ladder := [(105, ⟨1, 0⟩)] } }).mayCollapse (105)), { dev with power := { dev.power with ladder := [(105, ⟨1, 0⟩)] } }, by decide +kernel, by decide +kernel, by decide +kernel, by decide +kernel, by decide +kernel, rfl⟩),
   (⟨63, by decide +kernel⟩),
   (⟨105, dev, by decide +kernel, by decide +kernel, by decide +kernel, by decide +kernel⟩)⟩

/-- States and operands that meet the hypotheses of `DutyAndCoreVoltage`, clause by clause. -/
theorem witness_DutyAndCoreVoltage :
    (∃ (s : State), s.ready = true ∧ getN s.regs.pend rPwrThermal = none ∧ s.power.undervolt = false ∧ 1 ≤ s.power.duty ∧ s.power.duty ≤ 8) ∧
    (∃ (s : State), s.ready = true ∧ getN s.regs.pend rPwrThermal = none ∧ s.power.undervolt = false ∧ 1 ≤ s.power.duty ∧ s.power.duty ≤ 8) ∧
    (∃ (s : State), s.ready = true ∧ getN s.regs.pend rPwrThermal = none ∧ s.power.undervolt = true) ∧
    (∃ (mv : Nat) (s : State), s.ready = true ∧ mv + 25 < s.power.coreTarget) ∧
    (∃ (mv : Nat) (s : State), s.ready = true ∧ s.power.coreTarget ≤ mv) ∧
    (∃ (s : State), s.ready = true) :=
  ⟨(⟨dev, by decide +kernel, by decide +kernel, by decide +kernel, by decide +kernel, by decide +kernel⟩),
   (⟨{ dev with power := { dev.power with duty := 1 } }, by decide +kernel, by decide +kernel, by decide +kernel, by decide +kernel, by decide +kernel⟩),
   (⟨{ dev with power := { dev.power with undervolt := true } }, by decide +kernel, by decide +kernel, by decide +kernel⟩),
   (⟨724, { dev with power := { dev.power with coreTarget := 750 } }, by decide +kernel, by decide +kernel⟩),
   (⟨750, { dev with power := { dev.power with coreTarget := 750 } }, by decide +kernel, by decide +kernel⟩),
   (⟨dev, by decide +kernel⟩)⟩

/-- States and operands that meet the hypotheses of `SensorsTelemetryAndTally`, clause by clause. -/
theorem witness_SensorsTelemetryAndTally :
    (∃ (s : State), s.ready = true) ∧
    (∃ (s : State), s.ready = true) ∧
    (∃ (s : State), s.ready = true) ∧
    (∃ (s : State), s.ready = true) ∧
    (∃ (s : State), s.ready = true) :=
  ⟨(⟨dev, by decide +kernel⟩),
   (⟨dev, by decide +kernel⟩),
   (⟨dev, by decide +kernel⟩),
   (⟨dev, by decide +kernel⟩),
   (⟨dev, by decide +kernel⟩)⟩

/-- States and operands that meet the hypotheses of `ManagementBusAndTap`, clause by clause. -/
theorem witness_ManagementBusAndTap :
    ∃ (s : State) (l m : List Byte) (r : FactoryRecord), s.boot.status ≠ 0 ∧ s.i3c.dynamic = none ∧ s.boot.factory = some r ∧ s.i3c.malformed = false ∧
      frameOk 13 1 l = true ∧ s.i3cOpen (frameOffset l) = true ∧ frameOk 5 2 m = true ∧ m ≠ [] ∧ s.i3cOpen (frameOffset m) = true ∧ frameOk 13 1 m = false :=
  ⟨dev, [1, 0, 0, 0, 0, 0, 0, 0, 0, 0, 0, 0, 0], [2, 0, 0, 0, 0], someVal dev.boot.factory (by decide +kernel), by decide +kernel, by decide +kernel, someVal_eq _ _, by decide +kernel, by decide +kernel, by decide +kernel, by decide +kernel, by decide +kernel, by decide +kernel, by decide +kernel⟩

/-- States and operands that meet the hypotheses of `ReservedFlagsAreRefused`, clause by clause. -/
theorem witness_ReservedFlagsAreRefused :
    (∃ (op : Nat) (row : Desc → Instr) (d : Desc) (s : State), (op, row) ∈ [(opSessionOpen, Instr.sessionOpen), (opTurnSubmit, .turnSubmit), (opToolResult, .toolResult), (opModelActivate, .modelActivate), (opModelRetire, .modelRetire), (opRecallQuery, .recallQuery), (opRecallInsert, .recallInsert), (opRecallDelete, .recallDelete), (opRecallMerge, .recallMerge), (opSnapshotCut, .snapshotCut), (opDroveShrink, .droveShrink), (opDroveRebalance, .droveRebalance), (opKeyRotate, .keyRotate), (opQuotaSet, .quotaSet), (opRoleSet, .roleSet), (opFlashDiscard, .flashDiscard), (opSessionClose, .sessionClose), (opTurnCancel, .turnCancel), (opSessionPark, .sessionPark)] ∧ s.ready = true ∧ s.inOrder op d = true ∧ flagsReserved d = false) ∧
    (∃ (op : Nat) (row : Desc → Instr) (d : Desc) (s : State), (op, row) ∈ [(opSessionOpen, Instr.sessionOpen), (opTurnSubmit, .turnSubmit), (opToolResult, .toolResult), (opModelActivate, .modelActivate), (opModelRetire, .modelRetire), (opRecallQuery, .recallQuery), (opRecallInsert, .recallInsert), (opRecallDelete, .recallDelete), (opRecallMerge, .recallMerge), (opSnapshotCut, .snapshotCut), (opDroveShrink, .droveShrink), (opDroveRebalance, .droveRebalance), (opKeyRotate, .keyRotate), (opQuotaSet, .quotaSet), (opRoleSet, .roleSet), (opFlashDiscard, .flashDiscard), (opSessionClose, .sessionClose), (opTurnCancel, .turnCancel), (opSessionPark, .sessionPark)] ∧ s.ready = true ∧ s.inOrder op d = true ∧ flagsReserved d = false) :=
  ⟨(⟨opSessionOpen, .sessionOpen, { dr [] with flags := 0x80 }, dev, List.mem_cons_self, by decide +kernel, by decide +kernel, by decide +kernel⟩),
   (⟨opSessionPark, .sessionPark, { dr [] with flags := 2 }, dev, by simp, by decide +kernel, by decide +kernel, by decide +kernel⟩)⟩

/-- States and operands that meet the hypotheses of `WrongRingsAreRefused`, clause by clause. -/
theorem witness_WrongRingsAreRefused :
    (∃ (op : Nat) (row : Desc → Instr) (d : Desc) (s : State), (op, row) ∈ [(opModelActivate, Instr.modelActivate), (opModelRetire, .modelRetire), (opRecallQuery, .recallQuery), (opRecallMerge, .recallMerge), (opSnapshotCut, .snapshotCut), (opDroveShrink, .droveShrink), (opDroveRebalance, .droveRebalance), (opKeyRotate, .keyRotate), (opQuotaSet, .quotaSet), (opRoleSet, .roleSet), (opFlashDiscard, .flashDiscard)] ∧ s.ready = true ∧ flagsReserved d = true ∧ noSession d = true ∧ d.body = List.replicate 48 0 ∧ ¬ (isManagementOp op = true ↔ s.ringOwner d.ring = mgmtPath)) ∧
    (∃ (op : Nat) (row : Desc → Instr) (d : Desc) (s : State), (op, row) ∈ [(opModelActivate, Instr.modelActivate), (opModelRetire, .modelRetire), (opRecallQuery, .recallQuery), (opRecallMerge, .recallMerge), (opSnapshotCut, .snapshotCut), (opDroveShrink, .droveShrink), (opDroveRebalance, .droveRebalance), (opKeyRotate, .keyRotate), (opQuotaSet, .quotaSet), (opRoleSet, .roleSet), (opFlashDiscard, .flashDiscard)] ∧ s.ready = true ∧ flagsReserved d = true ∧ noSession d = true ∧ d.body = List.replicate 48 0 ∧ ¬ (isManagementOp op = true ↔ s.ringOwner d.ring = mgmtPath)) :=
  ⟨(⟨opModelActivate, .modelActivate, dm (zerosB 48), dev, List.mem_cons_self, by decide +kernel, by decide +kernel, by decide +kernel, by decide +kernel, by decide +kernel⟩),
   (⟨opRoleSet, .roleSet, dr (zerosB 48), dev, by simp, by decide +kernel, by decide +kernel, by decide +kernel, by decide +kernel, by decide +kernel⟩)⟩

/-- States and operands that meet the hypotheses of `NothingRunsOutOfService`, clause by clause. -/
theorem witness_NothingRunsOutOfService :
    ∃ (s : State) (c : Instr), s.ready = false ∧ (match c with | .linkTraining _ | .linkTrainingRetry _ | .linkFlitNak _ | .linkDown | .linkDownLimitExpiry | .thermalTrip _ | .watchdogExpiry _ | .pllLockLoss _ | .hbmStackFailure _ | .secSelfCheckFailure | .coldReset _ | .coldResetAssert _ | .warmReset _ | .warmResetResume | .i3cPrivateWrite _ | .i3cPrivateRead _ | .i3cEntdaa _ | .i3cSetdasa _ _ | .i3cRstdaa | .i3cGetpid | .i3cGetbcr | .i3cGetdcr | .i3cGetstatus | .i3cEnecDisec _ | .tapInstruction _ => False | _ => True) :=
  ⟨State.reset, .parkAfterCheck, by decide +kernel, trivial⟩

/-- States and operands that meet the hypotheses of `MessagesBetweenMembers`, clause by clause. -/
theorem witness_MessagesBetweenMembers :
    (∃ (m : Mail), (∀ b, m = .seat b → b.record.inRange = true ∧ b.params.length = 65536 ∧ b.counts.length = 65536) ∧ (∀ n, m = .logits n → n.source = 0) ∧ (∀ c r, m = .shard c r → r.digest.length = 48)) ∧
    (∃ (m : Mail), (∀ b, m = .seat b → b.record.inRange = true ∧ b.params.length = 65536 ∧ b.counts.length = 65536) ∧ (∀ n, m = .logits n → n.source = 0) ∧ (∀ c r, m = .shard c r → r.digest.length = 48)) ∧
    (∃ (m : Mail), (∀ b, m = .seat b → b.record.inRange = true ∧ b.params.length = 65536 ∧ b.counts.length = 65536) ∧ (∀ n, m = .logits n → n.source = 0) ∧ (∀ c r, m = .shard c r → r.digest.length = 48)) ∧
    (∃ (m : Mail), (∀ b, m = .seat b → b.record.inRange = true ∧ b.params.length = 65536 ∧ b.counts.length = 65536) ∧ (∀ n, m = .logits n → n.source = 0) ∧ (∀ c r, m = .shard c r → r.digest.length = 48)) ∧
    (∃ (l : List Nat), (∀ v ∈ l, v < 2 ^ 64)) ∧
    (∃ (p : Packet) (f : Nat) (l : List Packet) (m : Mail) (s : State) (t : State) (r : _), s.mailFold p = some f ∧ gathered p (taken p s) = (some l, t) ∧ mailOf p (l.flatMap (·.payload)) = some m ∧ (r = (if p.issuer = issSys then heedJoin f p.src p.drove m t else heed f p.src m t)) ∧ Delivered fabOpWrite p s) ∧
    (∃ (p : Packet) (f : Nat) (l : List Packet) (m : Mail) (s : State) (t : State) (r : _), s.mailFold p = some f ∧ gathered p (taken p s) = (some l, t) ∧ mailOf p (l.flatMap (·.payload)) = some m ∧ (r = (if p.issuer = issSys then heedJoin f p.src p.drove m t else heed f p.src m t)) ∧ Delivered fabOpNotify p s) ∧
    (∃ (f : Nat) (s : State), s.isRoot f = false) ∧
    (∃ (f : Nat) (s : State), s.isRoot f = true ∧ (s.fold f).drain = none ∧ (s.fold f).hasSlot = true) ∧
    (∃ (f : Nat) (s : State), s.isRoot f = true ∧ (s.fold f).drain = none) ∧
    (∃ (f : Nat) (s : State), s.isRoot f = true ∧ (s.fold f).drain.isSome = true) ∧
    (∃ (f : Nat) (src : Nat) (s : State), src ≠ s.rootOf f) ∧
    (∃ (f : Nat) (src : Nat) (p : Posting) (s : State), src = s.rootOf f ∧ p.empty = true ∧ p.number < (s.fold f).stepNo) ∧
    (∃ (f : Nat) (src : Nat) (p : Posting) (s : State), src = s.rootOf f ∧ p.empty = true ∧ p.number = (s.fold f).stepNo ∧ s.betweenSteps f = true) ∧
    (∃ (src : Nat) (b : Seat), b.record.lease.holder ≠ src) ∧
    (∃ (f : Nat) (s : State), (s.fold f).cutAt = none ∧ (s.fold f).snap.state = 0) ∧
    (∃ (f : Nat) (s : State), s.isRoot f = true) ∧
    (∃ (f : Nat) (s : State), s.isRoot f = false) ∧
    (∃ (f : Nat) (src : Nat) (st : Step) (s : State), (s.fold f).step = some st ∧ src ≠ s.rootOf f) ∧
    (∃ (f : Nat) (src : Nat) (st : Step) (s : State), (s.fold f).step = some st ∧ src = s.rootOf f) ∧
    (∃ (f : Nat) (c : Nat) (s : State), s.isRoot f = true ∧ (s.fold f).snap.step = c ∧ (s.fold f).snap.state = 2) ∧
    (∃ (f : Nat) (src : Nat) (drove : W32) (j : Join) (s : State), (s.fold f).join = some j ∧ j.index ≠ 0 ∧ j.drove = drove ∧ j.members.head? = some src) :=
  ⟨(⟨.leave 1, fun b h => by (cases h), fun n h => by (cases h), fun c r h => by (cases h)⟩),
   (⟨.logits ⟨0, 1, 2, [(3, 4, true, [5, 6])]⟩, fun b h => by (cases h), fun n h => by (cases h; rfl), fun c r h => by (cases h)⟩),
   (⟨.shard 5 ⟨0, 7, 2, zerosB 48, stOk⟩, fun b h => by (cases h), fun n h => by (cases h), fun c r h => by (cases h; exact List.length_replicate)⟩),
   (⟨.seat seatB, fun b h => by (cases h; exact ⟨by decide +kernel, List.length_replicate, List.length_replicate⟩), fun n h => by (cases h), fun c r h => by (cases h)⟩),
   (⟨[1, 2 ^ 64 - 1], by decide +kernel⟩),
   (⟨mailP fabOpWrite, 0, [mailP fabOpWrite], .askSlot 1 true, fabS, (gathered (mailP fabOpWrite) (taken (mailP fabOpWrite) fabS)).2, (if (mailP fabOpWrite).issuer = issSys then heedJoin (0) (mailP fabOpWrite).src (mailP fabOpWrite).drove (.askSlot 1 true) ((gathered (mailP fabOpWrite) (taken (mailP fabOpWrite) fabS)).2) else heed (0) (mailP fabOpWrite).src (.askSlot 1 true) ((gathered (mailP fabOpWrite) (taken (mailP fabOpWrite) fabS)).2)), by decide +kernel, by decide +kernel, by decide +kernel, rfl, by unfold Delivered; decide +kernel⟩),
   (⟨mailP fabOpNotify, 0, [mailP fabOpNotify], .askSlot 1 true, fabS, (gathered (mailP fabOpNotify) (taken (mailP fabOpNotify) fabS)).2, (if (mailP fabOpNotify).issuer = issSys then heedJoin (0) (mailP fabOpNotify).src (mailP fabOpNotify).drove (.askSlot 1 true) ((gathered (mailP fabOpNotify) (taken (mailP fabOpNotify) fabS)).2) else heed (0) (mailP fabOpNotify).src (.askSlot 1 true) ((gathered (mailP fabOpNotify) (taken (mailP fabOpNotify) fabS)).2)), by decide +kernel, by decide +kernel, by decide +kernel, rfl, by unfold Delivered; decide +kernel⟩),
   (⟨0, memR dev, by decide +kernel⟩),
   (⟨0, rootR dev, by decide +kernel, by decide +kernel, by decide +kernel⟩),
   (⟨0, rootR dev, by decide +kernel, by decide +kernel⟩),
   (⟨0, (rootR dev).modFold 0 (fun x => { x with drain := some drain1 }), by decide +kernel, by decide +kernel⟩),
   (⟨0, 8, memR dev, by decide +kernel⟩),
   (⟨0, 9, ⟨0, 0, true, none, [], [], [], [], [], none⟩, (memR dev).modFold 0 (fun x => { x with stepNo := 1 }), by decide +kernel, by decide +kernel, by decide +kernel⟩),
   (⟨0, 9, ⟨1, 0, true, none, [], [], [], [], [], none⟩, (memR dev).modFold 0 (fun x => { x with stepNo := 1 }), by decide +kernel, by decide +kernel, by decide +kernel, by decide +kernel⟩),
   (⟨9, seatB, by decide +kernel⟩),
   (⟨0, dev, by decide +kernel, by decide +kernel⟩),
   (⟨0, rootR dev, by decide +kernel⟩),
   (⟨0, memR dev, by decide +kernel⟩),
   (⟨0, 8, step1, (memR dev).modFold 0 (fun x => { x with step := some step1 }), by decide +kernel, by decide +kernel⟩),
   (⟨0, 9, step1, (memR dev).modFold 0 (fun x => { x with step := some step1 }), by decide +kernel, by decide +kernel⟩),
   (⟨0, 5, (rootR dev).modFold 0 (fun x => { x with snap := { x.snap with state := 2, step := 5 } }), by decide +kernel, by decide +kernel, by decide +kernel⟩),
   (⟨0, 7, 9, { join1 with index := 1 }, dev.modFold 0 (fun x => { x with join := some { join1 with index := 1 } }), by decide +kernel, by decide +kernel, by decide +kernel, by decide +kernel⟩)⟩

end Sys2Proof.Tests
end

section
/-! SUPPORT. The Tally counters (05 R143 to R146): what an addition to a ring's counter does, when it counts, and what a fetch adds. -/
namespace Sys2Proof.Machine
open Sys2Proof.Safety

/-! ### The counter a ring selects (05 R143) -/

theorem bitsOf_lt (v hi lo : Nat) : bitsOf v hi lo < 2 ^ (hi + 1 - lo) :=
  Nat.mod_lt _ (Nat.two_pow_pos _)

theorem State.ringClient_lt (s : State) (r : Nat) : s.ringClient r < 256 := bitsOf_lt _ 31 24

theorem State.tallyOf_eq_ite (s : State) (r : Nat) : s.tallyOf r = if s.ringClient r ≤ 31 then s.ringClient r else 31 := by
  unfold State.tallyOf
  split <;> omega

/-! ### When a ring counts (05 R146) -/

theorem State.tallyCounts_mgmtPath (s : State) : s.tallyCounts mgmtPath = true := by simp [State.tallyCounts]

/-- A fold's power state is the shallowest one among its pens, so one pen above L3 lets its rings count. -/
theorem State.tallyCounts_iff {s : State} {f : Nat} (hf : f ≠ mgmtPath) (hp : (s.fold f).penList ≠ []) :
    s.tallyCounts f = true ↔ ∃ p ∈ (s.fold f).penList, s.level p < 3 := by
  simp [State.tallyCounts, hf, hp]

/-! ### An addition to a counter (05 R144, R145) -/

theorem tallyAdd_of_not_counts {s : State} {r : Nat} (n : Nat) (h : s.tallyCounts (s.ringOwner r) = false) : tallyAdd r n s = s := by
  simp [tallyAdd, h]

/-- The counters after an addition. An addition of 0 lists no counter that was not listed, so it is a case of its own. -/
theorem tallyAdd_tally (r n : Nat) (s : State) :
    (tallyAdd r n s).tally = if n = 0 || !s.tallyCounts (s.ringOwner r) then s.tally
      else setN s.tally (s.tallyOf r) (getND s.tally (s.tallyOf r) 0 + BitVec.ofNat 24 n) := by
  unfold tallyAdd
  split <;> rfl

theorem tallyAdd_frame (r n : Nat) (s : State) : tallyAdd r n s = { s with tally := (tallyAdd r n s).tally } := by
  unfold tallyAdd
  split <;> rfl

/-- The selected counter rises by `n` modulo 2^24: it wraps from 0xFFFFFF to 0. -/
theorem tallyAdd_selected {s : State} {r : Nat} (n : Nat) (h : s.tallyCounts (s.ringOwner r) = true) :
    (getND (tallyAdd r n s).tally (s.tallyOf r) 0).toNat = ((getND s.tally (s.tallyOf r) 0).toNat + n) % 2 ^ 24 := by
  have hsum : getND (tallyAdd r n s).tally (s.tallyOf r) 0 = getND s.tally (s.tallyOf r) 0 + BitVec.ofNat 24 n := by
    by_cases hn : n = 0 <;> simp [tallyAdd_tally, hn, h]
  rw [hsum, BitVec.toNat_add, BitVec.toNat_ofNat, Nat.add_mod_mod]

theorem tallyAdd_other (r n : Nat) (s : State) {c : Nat} (hc : c ≠ s.tallyOf r) :
    getND (tallyAdd r n s).tally c 0 = getND s.tally c 0 := by
  rw [tallyAdd_tally]
  split
  · rfl
  · exact getND_setN_ne _ _ _ hc

/-- What is added rests on the counters, the registers, the folds and the pens' ladders alone, none of which the rings, the queues or host memory
touch. -/
theorem tallyAdd_tally_of_completionsOnly {s t : State} (r n : Nat) (h : CompletionsOnly s t) : (tallyAdd r n t).tally = (tallyAdd r n s).tally := by
  rw [h, tallyAdd_tally, tallyAdd_tally]
  rfl

/-! ### A fetch (03 R67, R70, 05 R144) -/

/-- The COMPLETIONs posted for a list of entries change nothing but records. -/
theorem foldl_postCompletion_records (st fl : W16) (sp : List Byte) (es : List (Nat × Desc)) (s : State) :
    RecordsOnly s (es.foldl (fun s e => postCompletion e.1 e.2 st fl sp s) s) := by
  induction es generalizing s with
  | nil => exact RecordsOnly.refl s
  | cons e es ih => exact (postCompletion_records e.1 e.2 st fl sp s).trans (ih _)

theorem tally_eq_of_recordsOnly {s t : State} (h : RecordsOnly s t) : t.tally = s.tally := by rw [h]

/-- Of all that taking the entries in does, only the addition for its TURN_SUBMITs reaches the counters. -/
theorem takeEntries_tally (r : Nat) (es : List (Nat × Desc)) (s : State) :
    (takeEntries r es s).tally = (tallyAdd r (es.filter (fun e => e.1 == opTurnSubmit)).length s).tally := by
  have hring (g : Ring → Ring) : CompletionsOnly s (s.modRing r g) := rfl
  exact (tally_eq_of_recordsOnly (foldl_postCompletion_records _ _ _ _ _)).trans
    (tallyAdd_tally_of_completionsOnly r _ ((hring _).trans (hostWrite_records _ _ _ _).weaken))

/-- A fetch whose read is answered takes in the entries up to the first FENCE. -/
theorem exec_descriptorFetch_of_read {r : Nat} {s : State} {l : List Byte} (hready : s.ready = true) (hmay : s.mayFetch r = true)
    (hcount : s.fetchCount r ≠ 0)
    (hread : s.hostRead (s.ringOwner r) (s.act (rRingSqBase r) + (s.ring r).head.toNat % 2 ^ s.ringLog2 r * 64) (s.fetchCount r * 64) = .ok l) :
    exec (.descriptorFetch r) s =
      .next (takeEntries r (uptoFence ((List.range (s.fetchCount r)).map (fun i => parseDesc r (sliceB l (i * 64) 64)))) s) := by
  have hexec : exec (.descriptorFetch r) s = execDescriptorFetch r s := rfl
  rw [hexec, execDescriptorFetch, serve_ready _ hready]
  simp [hmay, hcount, hread]

/-- Settles O16: the clauses are the laws of `tallyAdd` and `tallyCounts` above, and a fetch reaches the counters through `tallyAdd` alone. -/
theorem tallyCountersCountAndWrap : Obligations.TallyCountersCountAndWrap := by
  unfold Obligations.TallyCountersCountAndWrap
  intro r n s
  refine ⟨s.tallyOf_eq_ite r, s.ringClient_lt r, fun hcounts => ?_, tallyAdd_of_not_counts n, fun hmgmt => ?_, State.tallyCounts_iff,
    fun l hready hmay hcount hread => ?_⟩
  · exact ⟨tallyAdd_selected n hcounts, fun c hc => tallyAdd_other r n s hc, tallyAdd_frame r n s⟩
  · rw [hmgmt]
    exact s.tallyCounts_mgmtPath
  · exact ⟨_, exec_descriptorFetch_of_read hready hmay hcount hread, takeEntries_tally r _ s⟩

end Sys2Proof.Machine
end

section
/-! SUPPORT. FAB_RESPONSE (13 R350, R352): what it does with a response that matches no outstanding message, and with one that matches. -/
namespace Sys2Proof.Machine
open Sys2Proof.Safety

/-- Every fragment of the response to message `m` received once `p` has come. -/
def received (m : OutMsg) (p : Packet) : NMap Packet := setN m.response p.frag p

/-- `m` put back under the TAG of response `p`, for what is still to come. -/
def keepOutstanding (m : OutMsg) (p : Packet) (s : State) : State :=
  { s with fab := { s.fab with outstanding := setN s.fab.outstanding p.tag.toNat m } }

/-- Response `p` comes from the destination of `m`, not declared lost, and answers its operation. -/
structure AnswersMessage (m : OutMsg) (p : Packet) (s : State) : Prop where
  isResponse : p.ptype = 1
  fromDestination : p.src = m.packet.dst
  sameOperation : p.op = m.packet.op
  notLost : p.src ∉ s.fab.lost

/-- A TAG with nothing outstanding: the response is taken off the inbox and that is all. -/
theorem exec_fabResponse_of_unmatched {p : Packet} {s : State} (hready : s.ready = true) (hnone : getN s.fab.outstanding p.tag.toNat = none) :
    exec (.fabResponse p) s = .next (taken p s) := by
  have hexec : exec (.fabResponse p) s = execFabResponse p s := rfl
  rw [hexec, execFabResponse, serve_ready _ hready]
  simp [taken, hnone]

/-- The three things a response can do to the message of its TAG: have it resent, wait for further fragments, or end it. -/
theorem exec_fabResponse_of_matched {p : Packet} {m : OutMsg} {s : State} (hready : s.ready = true)
    (hsome : getN s.fab.outstanding p.tag.toNat = some m) (hanswers : AnswersMessage m p s) :
    exec (.fabResponse p) s = .next (
      if turnedAway m p then keepOutstanding { m with lastSent := s.now } p (taken p s)
      else if (received m p).length < fragCount p.len then keepOutstanding { m with response := received m p } p (taken p s)
      else finishRequest p.tag.toNat p.status ((received m p).flatMap (fun q => q.2.payload))
        ((received m p).flatMap (fun q => (bitsSet 64 q.2.pmask.toNat).map (fun u => q.1 * 64 + u))) (taken p s)) := by
  obtain ⟨htype, hsrc, hop, hlost⟩ := hanswers
  have hexec : exec (.fabResponse p) s = execFabResponse p s := rfl
  have hheard : (p.ptype != 1 || p.src != m.packet.dst || p.op != m.packet.op || s.fab.lost.contains p.src) = false := by
    rw [hsrc] at hlost
    simp [htype, hsrc, hop, hlost]
  rw [hexec, execFabResponse, serve_ready _ hready]
  simp only [hsome, hheard]
  rfl

/-- ST_BUSY to an ordered request says that nothing was performed (13 R350). -/
theorem turnedAway_of_ordered_busy {m : OutMsg} {p : Packet} (hordered : m.packet.unordered = false) (hbusy : p.status = stBusy) :
    turnedAway m p = true := by
  simp [turnedAway, hordered, hbusy]

/-- Settles O35: an unmatched response is only taken, and a matched one that completes its message, or turns it away, is a branch of
`exec_fabResponse_of_matched`. -/
theorem responsesMatchByTag : Obligations.ResponsesMatchByTag := by
  unfold Obligations.ResponsesMatchByTag
  refine ⟨fun p m s hready hsome htype hsrc hop hlost hkept hcomplete => ?_, fun p s => exec_fabResponse_of_unmatched,
    fun p m s hready hsome htype hsrc hop hlost hordered hbusy => ?_⟩
  · have hall : ¬ (received m p).length < fragCount p.len := Nat.not_lt.mpr hcomplete
    rw [exec_fabResponse_of_matched hready hsome ⟨htype, hsrc, hop, hlost⟩, hkept, if_neg Bool.false_ne_true, if_neg hall]
    rfl
  · rw [exec_fabResponse_of_matched hready hsome ⟨htype, hsrc, hop, hlost⟩, if_pos (turnedAway_of_ordered_busy hordered hbusy)]
    rfl

end Sys2Proof.Machine
end

section
/-! SUPPORT. Writes of COMMIT (19 R473): the register write that reaches it, GO while a commit runs, and DISCARD. -/
namespace Sys2Proof.Machine

/-- Keeping the entries whose key satisfies `p` hides every other key and leaves these as they are. -/
theorem getN_filter_key {α : Type} (m : NMap α) (p : Nat → Bool) (k : Nat) :
    getN (m.filter (fun e => p e.1)) k = if p k then getN m k else none := by
  induction m with
  | nil => simp [getN]
  | cons e t ih =>
    obtain ⟨i, v⟩ := e
    by_cases hik : i = k
    · subst hik
      by_cases hp : p i <;> simp [getN, hp, ih]
    · by_cases hp : p i <;> simp [getN, hp, hik, ih]

@[simp] theorem State.commitOf_modCommit (s : State) (b : Nat) (g : CommitReg → CommitReg) : (s.modCommit b g).commitOf b = g (s.commitOf b) := by
  simp [State.modCommit, State.commitOf]

/-! ### The write that reaches COMMIT (19 Table 19-2) -/

/-- The register at block offset 0xFF0 is COMMIT: bit 0 is GO and bit 1 is DISCARD. -/
theorem writeCommand_commit {b : Nat} (v : Nat) (s : State) (hb : b < 21) (hcommit : hasCommit b = true) :
    writeCommand (b * 65536 + 0xFF0) v s =
      some (if bitOf v 0 && bitOf v 1 then s else if bitOf v 0 then commitGo b s else if bitOf v 1 then commitDiscard b s else s) := by
  have hblock : (b * 65536 + 0xFF0) / 65536 = b := by omega
  have hoffset : (b * 65536 + 0xFF0) % 65536 = 0xFF0 := by omega
  have hwindow : b * 65536 + 0xFF0 < 0x150000 := by omega
  simp [writeCommand, hblock, hoffset, hwindow, hcommit]

/-- An 8-byte write of COMMIT by the management path. -/
theorem exec_registerWrite_commit {b : Nat} {v : W64} {s : State} (hready : s.ready = true) (hb : b < 21) (hcommit : hasCommit b = true) :
    exec (.registerWrite mgmtPath (b * 65536 + 0xFF0) 8 v) s =
      .next (if bitOf v.toNat 0 && bitOf v.toNat 1 then s else if bitOf v.toNat 0 then commitGo b s
        else if bitOf v.toNat 1 then commitDiscard b s else s) := by
  have hexec : exec (.registerWrite mgmtPath (b * 65536 + 0xFF0) 8 v) s = execRegisterWrite mgmtPath (b * 65536 + 0xFF0) 8 v s := rfl
  have haligned : (b * 65536 + 0xFF0) % 8 = 0 := by omega
  have hwindow : ¬ 0x2000000 ≤ b * 65536 + 0xFF0 := by omega
  rw [hexec, execRegisterWrite, serve_ready _ hready]
  simp [writeWindow, haligned, hwindow, writeCommand_commit v.toNat s hb hcommit]

/-! ### GO while a commit runs -/

theorem commitGo_of_running {b : Nat} {s : State} (hcommit : hasCommit b = true) (hrun : (s.commitOf b).state = 1 ∨ (s.commitOf b).state = 2) :
    commitGo b s = s.modCommit b (fun c => { c with overrun := true }) := by
  simp [commitGo, hcommit, hrun]

/-! ### DISCARD -/

/-- A discard reloads the block's shadow; it touches the commit registers in STATE 3 or 4 alone. -/
theorem commitDiscard_eq {b : Nat} (s : State) (hcommit : hasCommit b = true) :
    commitDiscard b s = { s with regs := { s.regs with
      shadow := s.regs.shadow.filter (fun p => blockOf p.1 != b)
      commit := if (s.commitOf b).state = 3 ∨ (s.commitOf b).state = 4
        then setN s.regs.commit b { s.commitOf b with state := 0, reason := 0, offset := 0 } else s.regs.commit } } := by
  have hcase : ((s.commitOf b).state = 3 || (s.commitOf b).state = 4) = true ↔ (s.commitOf b).state = 3 ∨ (s.commitOf b).state = 4 := by simp
  rw [commitDiscard, if_neg (by simp [hcommit])]
  by_cases hended : (s.commitOf b).state = 3 ∨ (s.commitOf b).state = 4
  · rw [if_pos hended]
    exact if_pos (hcase.mpr hended)
  · rw [if_neg hended]
    exact if_neg (mt hcase.mp hended)

theorem commitDiscard_frame {b : Nat} (s : State) (hcommit : hasCommit b = true) : commitDiscard b s = { s with regs := (commitDiscard b s).regs } := by
  rw [commitDiscard_eq s hcommit]

theorem commitDiscard_pend {b : Nat} (s : State) (hcommit : hasCommit b = true) : (commitDiscard b s).regs.pend = s.regs.pend := by
  rw [commitDiscard_eq s hcommit]

theorem commitDiscard_act {b : Nat} (s : State) (hcommit : hasCommit b = true) (r : Nat) : (commitDiscard b s).act r = s.act r := by
  rw [commitDiscard_eq s hcommit]
  rfl

/-- No register of the block has a shadow value of its own left; the others keep theirs. -/
theorem commitDiscard_shadow {b : Nat} (s : State) (hcommit : hasCommit b = true) (r : Nat) :
    getN (commitDiscard b s).regs.shadow r = if blockOf r = b then none else getN s.regs.shadow r := by
  rw [commitDiscard_eq s hcommit]
  simpa using getN_filter_key s.regs.shadow (fun k => blockOf k != b) r

/-- The shadow reads as the active copy in the block, and as before elsewhere. -/
theorem commitDiscard_shadowOf {b : Nat} (s : State) (hcommit : hasCommit b = true) (r : Nat) :
    (commitDiscard b s).shadowOf r = if blockOf r = b then s.act r else s.shadowOf r := by
  rw [State.shadowOf, commitDiscard_shadow s hcommit, commitDiscard_act s hcommit]
  by_cases hr : blockOf r = b
  · simp [hr]
  · simp [hr, State.shadowOf]

theorem commitDiscard_state {b : Nat} (s : State) (hcommit : hasCommit b = true) :
    ((commitDiscard b s).commitOf b).state = if (s.commitOf b).state = 3 ∨ (s.commitOf b).state = 4 then 0 else (s.commitOf b).state := by
  rw [commitDiscard_eq s hcommit, State.commitOf]
  split
  · rw [getND_setN_self]
  · rfl

/-- Settles O46: each clause is the branch of `exec_registerWrite_commit` that its two bits select. -/
theorem commitWritesOfGoAndDiscard : Obligations.CommitWritesOfGoAndDiscard := by
  unfold Obligations.CommitWritesOfGoAndDiscard
  intro b v s hready hb hcommit
  refine ⟨fun hgo hdiscard hrun => ?_, fun hgo hdiscard => ⟨commitDiscard b s, ?_, fun r hr => ?_, fun r hr => ?_, commitDiscard_act s hcommit,
    commitDiscard_pend s hcommit, commitDiscard_state s hcommit, commitDiscard_frame s hcommit⟩, fun hgo hdiscard => ?_⟩
  · simp [exec_registerWrite_commit hready hb hcommit, hgo, hdiscard, commitGo_of_running hcommit hrun]
  · simp [exec_registerWrite_commit hready hb hcommit, hgo, hdiscard]
  · rw [commitDiscard_shadowOf s hcommit, if_pos hr]
  · rw [commitDiscard_shadowOf s hcommit, if_neg hr]
  · simp [exec_registerWrite_commit hready hb hcommit, hgo, hdiscard]

end Sys2Proof.Machine
end

section
/-! SUPPORT. Commands out of service (16 Table 16-5), and a device at a final code (16 R422). -/
namespace Sys2Proof.Machine
open Sys2Proof.Safety

/-! ### Out of service -/

/-- A row that leaves a form of its opcode to another row drops the command too, whichever form it is. -/
theorem ite_serve_not_ready {p : Prop} [Decidable p] {s : State} (f : State → State) (hdown : s.ready = false) :
    (if p then s else serve s f) = s := by
  rw [serve_not_ready f hdown, ite_self]

/-- Settles O59: every such row is `serve`, for some behind the choice of a form. -/
theorem nothingRunsOutOfService : Obligations.NothingRunsOutOfService := by
  unfold Obligations.NothingRunsOutOfService
  intro s hdown c hc
  cases c with
  | linkTraining | linkTrainingRetry | linkFlitNak | linkDown | linkDownLimitExpiry | thermalTrip | watchdogExpiry
  | pllLockLoss | hbmStackFailure | secSelfCheckFailure | coldReset | coldResetAssert | warmReset | warmResetResume
  | i3cPrivateWrite | i3cPrivateRead | i3cEntdaa | i3cSetdasa | i3cRstdaa | i3cGetpid | i3cGetbcr | i3cGetdcr | i3cGetstatus
  | i3cEnecDisec | tapInstruction => exact hc.elim
  | sessionRevive | sessionRecover | sessionMoveOffer | sessionMoveAccept | droveJoin | droveLeave | keyInstallOwner | keyInstallImage
  | keyRemove | attest | attestEphemeral | attestChain | gateListLoad | gateListCancel =>
    exact congrArg Host.Outcome.next (ite_serve_not_ready _ hdown)
  | _ => exact congrArg Host.Outcome.next (serve_not_ready _ hdown)

/-! ### What a device at a final code can still do (16 R422) -/

/-- `t` is `s` but for the queue of commands, the timer, the registers, the power state, THERM_TRIP_N, the I3C target, the TAP and the draws:
what a device at a final code can still change. -/
def FinalFrame (s t : State) : Prop :=
  t = { s with pending := t.pending, freeCount := t.freeCount, timer := t.timer, regs := t.regs, power := t.power, i3c := t.i3c, tap := t.tap
               boot := { s.boot with thermTripN := t.boot.thermTripN } }

theorem FinalFrame.refl (s : State) : FinalFrame s s := rfl

theorem FinalFrame.trans {s t u : State} (h : FinalFrame s t) (k : FinalFrame t u) : FinalFrame s u :=
  Eq.trans k (congrArg (fun x : State =>
    { x with pending := u.pending, freeCount := u.freeCount, timer := u.timer, regs := u.regs, power := u.power, i3c := u.i3c, tap := u.tap
             boot := { x.boot with thermTripN := u.boot.thermTripN } }) h)

theorem finalCode_of_frame {s t : State} (h : FinalCode s) (hframe : FinalFrame s t) : FinalCode t := by
  rw [hframe]
  exact h

theorem not_ready_of_finalCode {s : State} (h : FinalCode s) : s.ready = false := not_ready_of_final h.1

theorem not_running_of_finalCode {s : State} (h : FinalCode s) : s.running = false := by
  obtain ⟨hlow, -⟩ := h
  simp [State.running]
  omega

theorem not_linkAlive_of_finalCode {s : State} (h : FinalCode s) : s.linkAlive = false := by
  obtain ⟨hlow, -⟩ := h
  simp [State.linkAlive]
  omega

theorem onI3c_finalCode {s : State} (g : State → State) (h : FinalCode s) : onI3c s g = g s := by
  obtain ⟨hlow, -⟩ := h
  exact if_neg (by omega)

/-- A device at a final code opens to I3C only the registers that are always open (20 R499). -/
theorem i3cOpen_finalCode {s : State} (h : FinalCode s) (o : Nat) : s.i3cOpen o = alwaysOpen o := by
  simp [State.i3cOpen, not_ready_of_finalCode h]

theorem alwaysOpen_cases {o : Nat} (h : alwaysOpen o = true) :
    o ∈ [0x8, 0x400, 0x408, 0x410, 0x418] ∨ 0xF0000 ≤ o ∧ o < 0x100000 := by
  simpa [alwaysOpen, or_assoc] using h

/-- Of the registers that are always open only BIST_WARM is a command. -/
theorem writeCommand_alwaysOpen {o : Nat} (v : Nat) (s : State) (h : alwaysOpen o = true) :
    writeCommand o v s = if o = 0xF0030 then some (bistWarm v s) else none := by
  rcases alwaysOpen_cases h with hsys | ⟨hlow, hhigh⟩
  · simp only [List.mem_cons, List.not_mem_nil, or_false] at hsys
    rcases hsys with rfl | rfl | rfl | rfl | rfl <;> rfl
  · have hblock : o / 65536 = 15 := by omega
    have hlost : o ≠ 0x90030 := by omega
    have hmarks : ¬ o < 0x90580 := by omega
    have hhists : o ≠ 0x120018 := by omega
    have htlm : o ≠ 0x120030 := by omega
    simp [writeCommand, hblock, hasCommit, hlost, hmarks, hhists, htlm]

theorem bistWarm_finalCode {s : State} (v : Nat) (h : FinalCode s) : bistWarm v s = s := by
  obtain ⟨hlow, -⟩ := h
  have hstatus : (s.boot.status == 5) = false := by simp; omega
  simp [bistWarm, hstatus]

theorem writeReg_final (k v : Nat) (s : State) : FinalFrame s (writeReg k v s) := by
  unfold writeReg
  split
  · rfl
  · dsimp only
    split
    · rfl
    · split
      · rfl
      · split <;> rfl

theorem writeWindow_final {s : State} {o : Nat} (v : W64) (h : FinalCode s) (hopen : alwaysOpen o = true) (halign : o % 8 = 0) :
    FinalFrame s (writeWindow o 8 v s) := by
  have hwindow : ¬ 0x2000000 ≤ o := by
    rcases alwaysOpen_cases hopen with hsys | ⟨-, hhigh⟩
    · exact (by decide : ∀ o ∈ [0x8, 0x400, 0x408, 0x410, 0x418], ¬0x2000000 ≤ o) o hsys
    · omega
  simp only [writeWindow, hwindow, halign, writeCommand_alwaysOpen _ _ hopen]
  by_cases hwarm : o = 0xF0030
  · simp [hwarm, bistWarm_finalCode _ h, FinalFrame.refl]
  · simp [hwarm, writeReg_final]

/-- A write on the management bus reaches at most a register that is always open. -/
theorem execI3cPrivateWrite_final {s : State} (l : List Byte) (h : FinalCode s) :
    ∃ t, exec (.i3cPrivateWrite l) s = .next t ∧ FinalFrame s t := by
  refine ⟨_, congrArg Host.Outcome.next (onI3c_finalCode _ h), ?_⟩
  by_cases hframe : frameOk 13 1 l = true
  · simp only [hframe]
    have hheld : FinalFrame s { s with i3c := { s.i3c with result := none, out := [] } } := rfl
    have hcode := finalCode_of_frame h hheld
    rw [i3cOpen_finalCode hcode]
    by_cases hopen : alwaysOpen (frameOffset l) = true
    · have halign : frameOffset l % 8 = 0 := by simp [frameOk] at hframe; omega
      simpa [hopen] using hheld.trans (writeWindow_final _ hcode hopen halign)
    · simpa [hopen] using hheld
  · simp only [hframe]
    rfl

theorem readWindow_alwaysOpen {o : Nat} (s : State) (h : alwaysOpen o = true) : (readWindow o s).2 = s := by
  have htally : o ≠ 0x50008 := by rintro rfl; simp [alwaysOpen] at h
  have hchallenge : o ≠ 0xE0020 := by rintro rfl; simp [alwaysOpen] at h
  simp [readWindow, htally, hchallenge]

theorem i3cCommand_final {s : State} (l : List Byte) (h : FinalCode s) : FinalFrame s (i3cCommand l s) := by
  unfold i3cCommand
  split
  · rfl
  · rw [i3cOpen_finalCode h]
    split
    · dsimp only
      rename_i hopen
      rw [readWindow_alwaysOpen s hopen]
      rfl
    · rfl

theorem i3cAnswer_final (s : State) : FinalFrame s (i3cAnswer s) := by
  unfold i3cAnswer
  dsimp only
  split
  · rfl
  · split <;> rfl

theorem provisionalId_final (s : State) : FinalFrame s (provisionalId s).2 := by
  unfold provisionalId
  split <;> rfl

theorem i3cReturns_final (l : List Byte) (s : State) : FinalFrame s (i3cReturns l s) := rfl

/-- The one thing a thermal trip does at a final code: THERM_TRIP_N low and every block at L4. -/
theorem execThermalTrip_final {s : State} (sensor : Nat) (h : FinalCode s) : ∃ t, exec (.thermalTrip sensor) s = .next t ∧ FinalFrame s t := by
  refine ⟨_, rfl, ?_⟩
  dsimp only
  split
  · rfl
  · rw [not_running_of_finalCode h]
    rfl

/-- No command but COLD_RST_N does more to a device at a final code than `FinalFrame` allows, and none is turned away. -/
theorem exec_finalCode {s : State} (c : Instr) (h : FinalCode s) (hcold : ¬ ColdReset c) : ∃ t, exec c s = .next t ∧ FinalFrame s t := by
  have hlink := not_linkAlive_of_finalCode h
  have hrunning := not_running_of_finalCode h
  have hdown := not_ready_of_finalCode h
  obtain ⟨hlow, -, -, hup, -⟩ := id h
  have hkept : ∀ t, t = s → FinalFrame s t := fun t ht => ht ▸ FinalFrame.refl s
  cases c with
  | coldReset | coldResetAssert => exact absurd trivial hcold
  | linkTraining | linkTrainingRetry => exact ⟨_, rfl, hkept _ (by simp [hlink])⟩
  | linkFlitNak | linkDown => exact ⟨_, rfl, hkept _ (by simp [hup])⟩
  | linkDownLimitExpiry => exact ⟨_, rfl, hkept _ (by split <;> simp [hlink])⟩
  | thermalTrip sensor => exact execThermalTrip_final sensor h
  | watchdogExpiry | pllLockLoss | hbmStackFailure | secSelfCheckFailure => exact ⟨_, rfl, hkept _ (by simp [hrunning])⟩
  | warmReset => exact ⟨s, if_pos (by simp; omega), FinalFrame.refl s⟩
  | warmResetResume => exact ⟨_, rfl, hkept _ (if_pos (by simp; omega))⟩
  | i3cPrivateWrite l => exact execI3cPrivateWrite_final l h
  | i3cPrivateRead l =>
    refine ⟨_, congrArg Host.Outcome.next (onI3c_finalCode _ h), ?_⟩
    split
    · exact i3cAnswer_final s
    · exact (i3cCommand_final l h).trans (i3cAnswer_final _)
  | i3cEntdaa =>
    refine ⟨_, congrArg Host.Outcome.next (onI3c_finalCode _ h), ?_⟩
    dsimp only
    split
    · rfl
    · exact (provisionalId_final s).trans rfl
  | i3cGetpid => exact ⟨_, congrArg Host.Outcome.next (onI3c_finalCode _ h), (provisionalId_final s).trans rfl⟩
  | i3cSetdasa a b =>
    refine ⟨_, congrArg Host.Outcome.next (onI3c_finalCode _ h), ?_⟩
    unfold onlyIf
    split <;> rfl
  | i3cRstdaa | i3cGetbcr | i3cGetdcr | i3cGetstatus | i3cEnecDisec => exact ⟨_, congrArg Host.Outcome.next (onI3c_finalCode _ h), rfl⟩
  | tapInstruction => exact ⟨_, rfl, rfl⟩
  | _ => exact ⟨s, nothingRunsOutOfService s hdown _ trivial, FinalFrame.refl s⟩

/-- One step from a final code, whatever command is at the front but COLD_RST_N. -/
theorem step_finalCode {s : State} (h : FinalCode s) (hcold : ∀ c ∈ s.pending.head?, ¬ ColdReset c) : ∃ t, step s = .next t ∧ FinalFrame s t := by
  cases hqueue : s.pending with
  | nil =>
    refine ⟨s.tick, by simp [step, hqueue], ?_⟩
    unfold State.tick
    split <;> rfl
  | cons c rest =>
    have hfront : ¬ ColdReset c := hcold c (by simp [hqueue])
    have htaken : FinalFrame s { s with pending := rest } := rfl
    obtain ⟨t, hexec, hframe⟩ := exec_finalCode c (finalCode_of_frame h htaken) hfront
    exact ⟨t, by simp [step, hqueue, hexec], htaken.trans hframe⟩

/-- Settles O3: every field the statement names is outside `FinalFrame`. -/
theorem finalCodeHoldsUntilColdReset : Obligations.FinalCodeHoldsUntilColdReset := by
  unfold Obligations.FinalCodeHoldsUntilColdReset
  intro s t h hcold hstep
  obtain ⟨u, hnext, hframe⟩ := step_finalCode h hcold
  obtain rfl : u = t := by simpa [hstep] using hnext.symm
  refine ⟨finalCode_of_frame h hframe, ?_⟩
  rw [hframe]
  simp

/-- Settles O4: `step_finalCode` answers a next state. -/
theorem finalCodeStepsComplete : Obligations.FinalCodeStepsComplete := by
  unfold Obligations.FinalCodeStepsComplete
  intro s h hcold
  obtain ⟨t, hnext, -⟩ := step_finalCode h hcold
  exact ⟨t, hnext⟩

end Sys2Proof.Machine
end

section
/-! SUPPORT. Bytes of a layout: what a slice of joined parts is, and that the session record reads back from its bytes (04 R97). -/
namespace Sys2Proof.Machine

/-! ### Slices of joined parts -/

@[simp] theorem length_leBytes (n v : Nat) : (leBytes n v).length = n := by
  induction n generalizing v with
  | zero => rfl
  | succ n ih => simp [leBytes, ih]

@[simp] theorem length_sliceB (l : List Byte) (off n : Nat) : (sliceB l off n).length = n := by simp [sliceB]
@[simp] theorem length_padTo (n : Nat) (l : List Byte) : (padTo n l).length = n := length_sliceB l 0 n
@[simp] theorem length_zerosB (n : Nat) : (zerosB n).length = n := List.length_replicate

theorem getD_of_lt {α : Type} {l : List α} {i : Nat} (d : α) (h : i < l.length) : l.getD i d = l[i] := by
  rw [List.getD_eq_getElem?_getD, List.getElem?_eq_getElem h, Option.getD_some]

theorem getElem_sliceB {l : List Byte} {off n i : Nat} (h : i < (sliceB l off n).length) : (sliceB l off n)[i] = l.getD (off + i) 0 := by
  simp [sliceB]

/-- A slice that begins past the first part lies in the rest. -/
theorem sliceB_append_right {a : List Byte} (l : List Byte) {off : Nat} (n : Nat) (h : a.length ≤ off) :
    sliceB (a ++ l) off n = sliceB l (off - a.length) n := by
  refine List.map_congr_left fun i _ => ?_
  rw [List.getD_eq_getElem?_getD, List.getElem?_append_right (by omega), ← List.getD_eq_getElem?_getD, Nat.sub_add_comm h]

theorem sliceB_cons_right (b : Byte) (l : List Byte) {off : Nat} (n : Nat) (h : 1 ≤ off) : sliceB (b :: l) off n = sliceB l (off - 1) n :=
  sliceB_append_right (a := [b]) l n h

/-- A slice that ends within the first part lies in it. -/
theorem sliceB_append_left {a : List Byte} (l : List Byte) {off n : Nat} (h : off + n ≤ a.length) : sliceB (a ++ l) off n = sliceB a off n := by
  refine List.map_congr_left fun i hi => ?_
  have hlt : i < n := List.mem_range.mp hi
  rw [List.getD_eq_getElem?_getD, List.getElem?_append_left (by omega), ← List.getD_eq_getElem?_getD]

theorem sliceB_eq_self {l : List Byte} {n : Nat} (h : l.length = n) : sliceB l 0 n = l := by
  subst h
  refine List.ext_getElem (length_sliceB l 0 _) fun i _ hi => ?_
  rw [getElem_sliceB, Nat.zero_add, getD_of_lt _ hi]

/-- A slice of a slice. -/
theorem sliceB_sliceB (l : List Byte) (o : Nat) {m off n : Nat} (h : off + n ≤ m) : sliceB (sliceB l o m) off n = sliceB l (o + off) n := by
  refine List.map_congr_left fun i hi => ?_
  have hlt : i < n := List.mem_range.mp hi
  have hin : off + i < (sliceB l o m).length := by rw [length_sliceB]; omega
  rw [getD_of_lt _ hin, getElem_sliceB, Nat.add_assoc]

/-- Padding leaves what it keeps. -/
theorem sliceB_padTo (l : List Byte) {m off n : Nat} (h : off + n ≤ m) : sliceB (padTo m l) off n = sliceB l off n := by
  rw [padTo, sliceB_sliceB l 0 h, Nat.zero_add]

theorem padTo_prefix {l : List Byte} {m : Nat} (h : l.length ≤ m) : sliceB (padTo m l) 0 l.length = l := by
  rw [sliceB_padTo l (by omega), sliceB_eq_self rfl]

/-! ### Numbers as bytes -/

theorem ofLe_leBytes {n v : Nat} (h : v < 256 ^ n) : ofLe (leBytes n v) = v := by
  induction n generalizing v with
  | zero => simp [leBytes, ofLe]; omega
  | succ n ih =>
    have hrest : v / 256 < 256 ^ n := by rw [Nat.pow_succ] at h; exact Nat.div_lt_of_lt_mul (by omega)
    rw [leBytes, ofLe, ih hrest, BitVec.toNat_ofNat]
    omega

theorem leAt_eq (l : List Byte) (off n : Nat) : leAt l off n = ofLe (sliceB l off n) := rfl

/-- Bits `lo` to `hi` of a number put together from a part below `lo`, the bits, and a part above. -/
theorem bitsOf_of_parts {v hi lo low mid high : Nat} (hv : v = low + 2 ^ lo * (mid + 2 ^ (hi + 1 - lo) * high)) (hlow : low < 2 ^ lo)
    (hmid : mid < 2 ^ (hi + 1 - lo)) : bitsOf v hi lo = mid := by
  rw [bitsOf, hv, Nat.add_mul_div_left _ _ (Nat.two_pow_pos lo), Nat.div_eq_of_lt hlow, Nat.zero_add, Nat.add_mul_mod_self_left,
    Nat.mod_eq_of_lt hmid]

/-! ### The words of a lease and of a peer (04 Table 4-5) -/

theorem leaseOf_word {l : Lease} (hholder : l.holder < 2 ^ 18) (hstate : l.lstate < 2 ^ 2) (hepoch : l.epoch < 2 ^ 32) : leaseOf l.word = l := by
  have h1 : bitsOf l.word 17 0 = l.holder :=
    bitsOf_of_parts (low := 0) (high := l.lstate + l.epoch * 2 ^ 14) (by simp only [Lease.word]; omega) (by omega) hholder
  have h2 : bitsOf l.word 19 18 = l.lstate :=
    bitsOf_of_parts (low := l.holder) (high := l.epoch * 2 ^ 12) (by simp only [Lease.word]; omega) hholder hstate
  have h3 : bitsOf l.word 63 32 = l.epoch :=
    bitsOf_of_parts (low := l.holder + l.lstate * 2 ^ 18) (high := 0) (by simp only [Lease.word]; omega) (by omega) hepoch
  rw [leaseOf, h1, h2, h3]

theorem peerOf_word {p : Peer} (hdevice : p.device < 2 ^ 18) (hfold : p.fold < 2 ^ 6) (hepoch : p.epoch < 2 ^ 32) : peerOf p.word = p := by
  have h1 : bitsOf p.word 17 0 = p.device :=
    bitsOf_of_parts (low := 0) (high := p.fold + p.epoch * 2 ^ 14) (by simp only [Peer.word]; omega) (by omega) hdevice
  have h2 : bitsOf p.word 23 18 = p.fold :=
    bitsOf_of_parts (low := p.device) (high := p.epoch * 2 ^ 8) (by simp only [Peer.word]; omega) hdevice hfold
  have h3 : bitsOf p.word 63 32 = p.epoch :=
    bitsOf_of_parts (low := p.device + p.fold * 2 ^ 18) (high := 0) (by simp only [Peer.word]; omega) (by omega) hepoch
  rw [peerOf, h1, h2, h3]

theorem Lease.word_lt {l : Lease} (hholder : l.holder < 2 ^ 18) (hstate : l.lstate < 2 ^ 2) (hepoch : l.epoch < 2 ^ 32) : l.word < 256 ^ 8 := by
  simp only [Lease.word]
  omega

theorem Peer.word_lt {p : Peer} (hdevice : p.device < 2 ^ 18) (hfold : p.fold < 2 ^ 6) (hepoch : p.epoch < 2 ^ 32) : p.word < 256 ^ 8 := by
  simp only [Peer.word]
  omega

/-! ### TEXT_STATE and DRAFT_STATE (10 Table 10-6, 09 Table 9-4) -/

/-- The fields of a text state fit their places. -/
structure TextState.Fits (x : TextState) : Prop where
  stops : x.stopMatch.length = 16
  stop : ∀ v ∈ x.stopMatch, v < 256 ^ 1
  banNode : x.banNode < 256 ^ 4
  forceSrc : x.forceSrc < 256 ^ 1
  forceIndex : x.forceIndex < 256 ^ 1
  forceNext : x.forceNext < 256 ^ 2
  scarry : x.scarry.length ≤ 3
  countUsed : x.countUsed < 256 ^ 2
  replayNext : x.replayNext < 256 ^ 8
  replayEnd : x.replayEnd < 256 ^ 8
  hold : x.hold.length ≤ 63

/-- Bytes of one number each, read back one by one. -/
theorem leAt_bytes {l : List Nat} {n i : Nat} (rest : List Byte) (hlen : l.length = n) (hbyte : ∀ v ∈ l, v < 256 ^ 1) (hi : i < n) :
    leAt ((List.range n).flatMap (fun i => leBytes 1 (l.getD i 0)) ++ rest) i 1 = l.getD i 0 := by
  have hmem : l.getD i 0 ∈ l := by
    rw [getD_of_lt _ (by omega)]
    exact List.getElem_mem _
  have hparts : (List.range n).flatMap (fun i => leBytes 1 (l.getD i 0)) = (List.range n).map (fun i => BitVec.ofNat 8 (l.getD i 0)) :=
    List.map_eq_flatMap.symm
  have hone : sliceB ((List.range n).map (fun i => BitVec.ofNat 8 (l.getD i 0))) i 1 = leBytes 1 (l.getD i 0) := by
    simp [sliceB, hi, leBytes]
  rw [hparts, leAt_eq, sliceB_append_left _ (by simp; omega), hone, ofLe_leBytes (hbyte _ hmem)]

theorem textOf_textBytes {x : TextState} (h : x.Fits) : textOf (textBytes x) = x := by
  obtain ⟨hstops, hstop, hban, hsrc, hindex, hnext, hscarry, hused, hrnext, hrend, hhold⟩ := h
  have hcarryLen : x.scarry.length < 256 ^ 1 := by omega
  have hholdLen : x.hold.length < 256 ^ 1 := by omega
  have hflags : b2n x.uncountedTurn + 2 * b2n x.paramArmed < 256 ^ 1 := by
    cases x.uncountedTurn <;> cases x.paramArmed <;> decide
  have hstopLen : ((List.range 16).flatMap (fun i => leBytes 1 (x.stopMatch.getD i 0))).length = 16 := by
    rw [List.length_flatMap]
    simp only [length_leBytes]
    decide
  have hread : (List.range 16).map (fun i => x.stopMatch.getD i 0) = x.stopMatch :=
    List.ext_getElem (by simp [hstops]) fun i _ hi => by simp [hi]
  have hstopsRead (rest : List Byte) (i : Nat) (hi : i ∈ List.range 16) :
      leAt (padTo 200 ((List.range 16).flatMap (fun i => leBytes 1 (x.stopMatch.getD i 0)) ++ rest)) i 1 = x.stopMatch.getD i 0 := by
    have hi := List.mem_range.mp hi
    rw [leAt_eq, sliceB_padTo _ (by omega), ← leAt_eq, leAt_bytes rest hstops hstop hi]
  have hflag0 : bitOf (b2n x.uncountedTurn + 2 * b2n x.paramArmed) 0 = x.uncountedTurn := by
    cases x.uncountedTurn <;> cases x.paramArmed <;> decide
  have hflag1 : bitOf (b2n x.uncountedTurn + 2 * b2n x.paramArmed) 1 = x.paramArmed := by
    cases x.uncountedTurn <;> cases x.paramArmed <;> decide
  unfold textOf textBytes
  simp only [List.append_assoc]
  rw [List.map_congr_left (hstopsRead _), hread]
  have hcarryIn : 25 + x.scarry.length ≤ 200 := by omega
  have hholdIn : 48 + x.hold.length ≤ 200 := by omega
  clear hstopsRead
  generalize (List.range 16).flatMap (fun i => leBytes 1 (x.stopMatch.getD i 0)) = stops at hstopLen ⊢
  simp [hstopLen, leAt_eq, sliceB_padTo, sliceB_append_right, sliceB_append_left, sliceB_eq_self, hscarry, hhold, hcarryIn, hholdIn,
    ofLe_leBytes hban, ofLe_leBytes hsrc, ofLe_leBytes hindex, ofLe_leBytes hnext, ofLe_leBytes hused, ofLe_leBytes hrnext, ofLe_leBytes hrend,
    ofLe_leBytes hcarryLen, ofLe_leBytes hholdLen, ofLe_leBytes hflags, hflag0, hflag1]

/-- The fields of a draft state fit their places. -/
structure DraftState.Fits (x : DraftState) : Prop where
  len : x.len < 256 ^ 1
  rejectRun : x.rejectRun < 256 ^ 1
  probeWait : x.probeWait < 256 ^ 2
  draftPos : x.draftPos < 256 ^ 4

theorem length_draftBytes (x : DraftState) : (draftBytes x).length = 32 := by simp [draftBytes]

theorem ofLe_leBytes_word (w : W64) : ofLe (leBytes 8 w.toNat) = w.toNat := ofLe_leBytes w.isLt

theorem draftOf_draftBytes {x : DraftState} (h : x.Fits) : draftOf (draftBytes x) = x := by
  obtain ⟨hlen, hreject, hwait, hpos⟩ := h
  have hflags : b2n x.probing < 256 ^ 1 := by cases x.probing <;> decide
  have hflag0 : bitOf (b2n x.probing) 0 = x.probing := by cases x.probing <;> decide
  unfold draftOf draftBytes
  simp only [List.append_assoc]
  simp [leAt_eq, sliceB_append_right, sliceB_append_left, sliceB_cons_right, sliceB_eq_self, ofLe_leBytes_word, ofLe_leBytes hlen, ofLe_leBytes hreject,
    ofLe_leBytes hwait, ofLe_leBytes hpos, ofLe_leBytes hflags, hflag0]

/-! ### The record (04 Table 4-1) -/

/-- The flags of byte 10. -/
def Record.flags (r : Record) : Nat :=
  b2n r.latencyCritical + 2 * b2n r.turnHeld + 4 * b2n r.turnCarried + 8 * b2n r.notReplayable + 16 * b2n r.imagePoisoned

theorem Record.flags_eq (r : Record) :
    b2n r.latencyCritical + 2 * b2n r.turnHeld + 4 * b2n r.turnCarried + 8 * b2n r.notReplayable + 16 * b2n r.imagePoisoned = r.flags := rfl

theorem Record.flags_lt (r : Record) : r.flags < 256 ^ 1 := by
  unfold Record.flags
  cases r.latencyCritical <;> cases r.turnHeld <;> cases r.turnCarried <;> cases r.notReplayable <;> cases r.imagePoisoned <;> decide

theorem bitOf_flags (r : Record) : bitOf r.flags 0 = r.latencyCritical ∧ bitOf r.flags 1 = r.turnHeld ∧ bitOf r.flags 2 = r.turnCarried ∧
    bitOf r.flags 3 = r.notReplayable ∧ bitOf r.flags 4 = r.imagePoisoned := by
  unfold Record.flags
  cases r.latencyCritical <;> cases r.turnHeld <;> cases r.turnCarried <;> cases r.notReplayable <;> cases r.imagePoisoned <;> decide

theorem length_textBytes (x : TextState) : (textBytes x).length = 200 := length_padTo _ _

theorem length_recordBytes (r : Record) : (recordBytes r).length = 512 := length_padTo _ _

/-- Settles O5: every field is its slice of the bytes, and fits it. -/
theorem sessionRecordBytesRoundTrip : Obligations.SessionRecordBytesRoundTrip := by
  unfold Obligations.SessionRecordBytesRoundTrip
  intro r h
  refine ⟨?_, length_recordBytes r⟩
  simp [Record.inRange, and_assoc] at h
  obtain ⟨hstate, hprior, hfmt, hholder, hlstate, hlepoch, hdevice, hfold, hpepoch, hdeadline, hlast, hafter, htier, hslot, howner, hsbase, hslog, hshead,
    hring, hturn, htext, hcontext, hstart, hgen, htxBase, htails, htxHead, htxFirst, hroot, hsheets, hparam, hcarry, hcreated, hstops, hstop, hban,
    hsrc, hindex, hnext, hscarry, hused, hrnext, hrend, hhold, hlen, hreject, hwait, hpos⟩ := h
  have hlease := ofLe_leBytes (Lease.word_lt hholder hlstate hlepoch)
  have hpeer := ofLe_leBytes (Peer.word_lt hdevice hfold hpepoch)
  have hflags := ofLe_leBytes r.flags_lt
  have hproducer := ofLe_leBytes (n := 4) r.streamProducer.isLt
  have hcarryLen : r.carry.length < 256 := by omega
  have hcarryIn : 169 + r.carry.length ≤ 512 := by omega
  have hring16 : r.sessionRing < 65536 := by omega
  have htextState := textOf_textBytes ⟨hstops, hstop, hban, hsrc, hindex, hnext, hscarry, hused, hrnext, hrend, hhold⟩
  have hdraftState := draftOf_draftBytes ⟨hlen, hreject, hwait, hpos⟩
  obtain ⟨hflag0, hflag1, hflag2, hflag3, hflag4⟩ := bitOf_flags r
  unfold recordOf recordBytes
  simp only [List.append_assoc, Record.flags_eq]
  simp [leAt_eq, sliceB_padTo, sliceB_append_right, sliceB_append_left, sliceB_cons_right, sliceB_eq_self, ofLe_leBytes_word, ofLe_leBytes,
    length_textBytes, length_draftBytes, leaseOf_word, peerOf_word, Nat.mod_eq_of_lt, *]

end Sys2Proof.Machine
end

section
/-! SUPPORT. A command on a device in service, a descriptor that passes the common checks (03 R70), maps whose values are all changed. -/
namespace Sys2Proof.Machine
open Sys2Proof.Safety

/-! ### Commands and descriptors in service -/

/-- In service a command has its own effect. -/
theorem next_serve {s t : State} {g : State → State} (hready : s.ready = true) (h : g s = t) :
    (Host.Outcome.next (serve s g) : Answer) = .next t := by
  rw [serve_ready g hready, h]

/-- A command left to no other row has its own effect. -/
theorem next_ite_serve {p : Prop} [Decidable p] {s t : State} {g : State → State} (hp : ¬ p) (hready : s.ready = true) (h : g s = t) :
    (Host.Outcome.next (if p then s else serve s g) : Answer) = .next t := by
  rw [if_neg hp, serve_ready g hready, h]

theorem descriptorAs_performed {op : Nat} {res ses : Bool} {d : Desc} {s t : State} {early : State → List Byte} {body : State → Tried State}
    (h : Admitted op ses d s) (hres : res = true) (hbody : body (beginDesc op d s) = .ok t) : descriptorAs op res ses early d body s = t := by
  subst hres
  exact descriptorAs_ok h early body hbody

theorem descriptor_performed {op : Nat} {res ses : Bool} {d : Desc} {s t : State} {body : State → Tried State}
    (h : Admitted op ses d s) (hres : res = true) (hbody : body (beginDesc op d s) = .ok t) : descriptor op res ses d body s = t := by
  unfold descriptor
  exact descriptorAs_performed h hres hbody

/-- A descriptor past the common checks is performed as its opcode's own part says. -/
theorem next_descriptorAs {op : Nat} {res ses : Bool} {d : Desc} {s t : State} {early : State → List Byte} {body : State → Tried State}
    (h : Admitted op ses d s) (hres : res = true) (hbody : body (beginDesc op d s) = .ok t) :
    (Host.Outcome.next (serve s (descriptorAs op res ses early d body)) : Answer) = .next t :=
  next_serve h.1 (descriptorAs_performed h hres hbody)

theorem next_descriptor {op : Nat} {res ses : Bool} {d : Desc} {s t : State} {body : State → Tried State}
    (h : Admitted op ses d s) (hres : res = true) (hbody : body (beginDesc op d s) = .ok t) :
    (Host.Outcome.next (serve s (descriptor op res ses d body)) : Answer) = .next t :=
  next_serve h.1 (descriptor_performed h hres hbody)

/-- The same of a row that leaves the other forms of its opcode to other rows. -/
theorem next_ite_descriptorAs {p : Prop} [Decidable p] {op : Nat} {res ses : Bool} {d : Desc} {s t : State} {early : State → List Byte}
    {body : State → Tried State} (hp : ¬ p) (h : Admitted op ses d s) (hres : res = true) (hbody : body (beginDesc op d s) = .ok t) :
    (Host.Outcome.next (if p then s else serve s (descriptorAs op res ses early d body)) : Answer) = .next t :=
  next_ite_serve hp h.1 (descriptorAs_performed h hres hbody)

theorem next_ite_descriptor {p : Prop} [Decidable p] {op : Nat} {res ses : Bool} {d : Desc} {s t : State}
    {body : State → Tried State} (hp : ¬ p) (h : Admitted op ses d s) (hres : res = true) (hbody : body (beginDesc op d s) = .ok t) :
    (Host.Outcome.next (if p then s else serve s (descriptor op res ses d body)) : Answer) = .next t :=
  next_ite_serve hp h.1 (descriptor_performed h hres hbody)

/-! ### What beginning a descriptor leaves: everything but its ring -/

@[simp] theorem beginDesc_hostRead (op : Nat) (d : Desc) (s : State) (o a n : Nat) : (beginDesc op d s).hostRead o a n = s.hostRead o a n := rfl
@[simp] theorem beginDesc_hostPhys (op : Nat) (d : Desc) (s : State) (o a n q : Nat) : (beginDesc op d s).hostPhys o a n q = s.hostPhys o a n q := rfl
@[simp] theorem beginDesc_descFold (op : Nat) (d e : Desc) (s : State) : (beginDesc op d s).descFold e = s.ringOwner e.ring := rfl
@[simp] theorem beginDesc_act (op : Nat) (d : Desc) (s : State) (k : Nat) : (beginDesc op d s).act k = s.act k := rfl
@[simp] theorem beginDesc_now (op : Nat) (d : Desc) (s : State) : (beginDesc op d s).now = s.now := rfl
@[simp] theorem beginDesc_sec (op : Nat) (d : Desc) (s : State) : (beginDesc op d s).sec = s.sec := rfl
@[simp] theorem beginDesc_folds (op : Nat) (d : Desc) (s : State) : (beginDesc op d s).folds = s.folds := rfl
@[simp] theorem beginDesc_isRoot (op : Nat) (d : Desc) (s : State) (f : Nat) : (beginDesc op d s).isRoot f = s.isRoot f := rfl
@[simp] theorem beginDesc_image (op : Nat) (d : Desc) (s : State) (f k : Nat) : (beginDesc op d s).image f k = s.image f k := rfl
@[simp] theorem beginDesc_port (op : Nat) (d : Desc) (s : State) (p : Nat) : (beginDesc op d s).port p = s.port p := rfl
@[simp] theorem beginDesc_fab (op : Nat) (d : Desc) (s : State) : (beginDesc op d s).fab = s.fab := rfl
@[simp] theorem beginDesc_regs (op : Nat) (d : Desc) (s : State) : (beginDesc op d s).regs = s.regs := rfl
@[simp] theorem beginDesc_mem (op : Nat) (d : Desc) (s : State) : (beginDesc op d s).mem = s.mem := rfl
@[simp] theorem beginDesc_sessions (op : Nat) (d : Desc) (s : State) : (beginDesc op d s).sessions = s.sessions := rfl

/-! ### Maps -/

/-- An entry of a map whose values are all changed. -/
theorem getN_map_values {α β : Type} (m : NMap α) (g : Nat → α → β) (k : Nat) :
    getN (m.map (fun p => (p.1, g p.1 p.2))) k = (getN m k).map (g k) := by
  induction m with
  | nil => rfl
  | cons p t ih =>
    obtain ⟨i, v⟩ := p
    by_cases hik : i = k
    · simp [getN, hik]
    · simp [getN, hik, ih]

/-- The same where a missing entry has a value that the change keeps. -/
theorem getND_map_values {α : Type} (m : NMap α) (g : Nat → α → α) (k : Nat) {d : α} (hd : g k d = d) :
    getND (m.map (fun p => (p.1, g p.1 p.2))) k d = g k (getND m k d) := by
  rw [getND, getN_map_values, getND]
  cases getN m k <;> simp [hd]

end Sys2Proof.Machine
end

section
/-! SUPPORT. SEC (15): keys, rotation, attestation, random values, scan access. -/
namespace Sys2Proof.Machine
open Sys2Proof.Safety

/-! ### KEY_INSTALL (15 R401) -/

/-- KEY_INSTALL in the form of a row whose OP the descriptor names. -/
theorem next_keyDescriptor {op : Nat} {d : Desc} {s t : State} {body : Nat → List Byte → State → Tried State} (hop : descByte d 16 = op) (hle : op ≤ 2)
    (h : Admitted opKeyInstall false d s) (hres : bodyReserved d [(16, 16), (24, 29), (32, 47)] = true)
    (hbody : body (s.ringOwner d.ring) (descBytes d 32 16) (beginDesc opKeyInstall d s) = .ok t) :
    (Host.Outcome.next (keyDescriptor op d body s) : Answer) = .next t := by
  refine next_ite_descriptor (by simp [hop]) h hres ?_
  rw [if_neg (by omega)]
  exact hbody

/-- Settles O21: each form is the last branch of its row. -/
theorem installingAndRemovingKeys : Obligations.InstallingAndRemovingKeys := by
  unfold Obligations.InstallingAndRemovingKeys
  refine ⟨?owner, ?image, ?remove⟩
  case owner =>
    intro d s f pt hf hop h hres hread hnew hroom hpoint
    subst hf
    refine next_keyDescriptor hop (by omega) h hres ?_
    simp [hread, hnew, hroom, hpoint]
  case image =>
    intro d s f b key e hf hop h hres hread hblob hnew hroom heph hkey
    subst hf
    refine next_keyDescriptor hop (by omega) h hres ?_
    simp [hread, hblob, hnew, hroom, heph, hkey]
  case remove =>
    intro d s f hf hop h hres hheld hunused
    subst hf
    refine next_keyDescriptor hop (by omega) h hres ?_
    have hunused : (beginDesc opKeyInstall d s).keyInUse (s.ringOwner d.ring) (descBytes d 32 16) = false := hunused
    rcases hheld with hheld | hheld <;> simp [hheld, hunused]

/-! ### KEY_ROTATE (15 R405 to R407) -/

/-- What the rotation keeps of a fold's key state: everything but the namespace's sealed record. -/
theorem sealRecord_key (f : Nat) (s : State) : ((sealRecord f s).fold f).key = (s.fold f).key := by
  unfold sealRecord
  dsimp only
  split
  · split
    · rfl
    · simp [State.modNs]
  · rfl

theorem sealRecord_frame (f : Nat) (s : State) : sealRecord f s = { s with folds := (sealRecord f s).folds } := by
  unfold sealRecord
  dsimp only
  split
  · split <;> rfl
  · rfl

@[simp] theorem sealRecord_mem (f : Nat) (s : State) : (sealRecord f s).mem = s.mem := by rw [sealRecord_frame]
@[simp] theorem sealRecord_sessions (f : Nat) (s : State) : (sealRecord f s).sessions = s.sessions := by rw [sealRecord_frame]

theorem fold_complete (op : Nat) (d : Desc) (st fl : W16) (sp : List Byte) (s : State) (f : Nat) : (complete op d st fl sp s).fold f = s.fold f := by
  simp [State.fold]

theorem fold_postFold (t g : Nat) (st fl : W16) (sp : List Byte) (s : State) (f : Nat) : (postFold t g st fl sp s).fold f = s.fold f := by
  simp [State.fold]

/-- The key state a rotation enters its sweep with. -/
theorem enterSweep_key (f : Nat) (key : List Byte) (d : Desc) (s : State) : ∃ left slots, ((enterSweep f key d s).fold f).key =
    { (s.fold f).key with state := 2, g := (s.fold f).key.g + 1, old := (s.fold f).key.current, current := key, next := none, sweepLeft := left
                          sweepAt := 0, passEnd := none, sweptMs := (0, 0), oldSlots := slots } := by
  rw [enterSweep, fold_complete, sealRecord_key, State.modKey, State.fold_modFold]
  exact ⟨_, _, rfl⟩

theorem enterSweep_mem (f : Nat) (key : List Byte) (d : Desc) (s : State) : (enterSweep f key d s).mem = s.mem := by simp [enterSweep]

/-- Settles O22: KEY_ROTATE and the record's end come to `enterSweep`, the others are branches of their rows. -/
theorem rotatingKeys : Obligations.RotatingKeys := by
  unfold Obligations.RotatingKeys
  refine ⟨?rotate, ?durable, ?close, ?step, ?retry⟩
  case rotate =>
    intro d s f r hf h hres hlive hnext hgen hdraw hwritable
    subst hf
    refine next_descriptor h hres ?_
    have hgen : (s.fold (s.ringOwner d.ring)).key.g ≠ 4294967295#32 := hgen
    by_cases habsent : (s.fold (s.ringOwner d.ring)).ns.state = nsAbsent
    · simp [hlive, hnext, hgen, hdraw, habsent, nsAbsent, nsReadOnly]
    · simp [hlive, hnext, hgen, hdraw, habsent, hwritable]
  case durable =>
    intro f key d s hready hnext
    refine ⟨enterSweep f key d s, next_serve hready (by simp [hnext]), ?_⟩
    obtain ⟨left, slots, hkey⟩ := enterSweep_key f key d s
    rw [hkey, enterSweep_mem]
    simp
  case close =>
    intro f s hready hstate hold hleft habsent
    refine ⟨closeSweep f s, next_serve hready (by simp [hstate, hold, hleft]), ?_⟩
    simp [closeSweep, endSweep, postSweepDone, State.modKey, habsent, fold_postFold, sealRecord_key]
  case step =>
    intro f s hready hstate hold hleft hpass hrate
    exact next_serve hready (by simp [hstate, hold, hleft, hpass, hrate, State.modKey, State.modFold])
  case retry =>
    intro f t s hready hpass hdue
    exact next_serve hready (by simp [hpass, hdue])

/-! ### ATTEST (15 R396 to R399) -/

/-- The output is written where its host range passes, and the descriptor completes with its length. -/
theorem attestOut_ok {d : Desc} {f p : Nat} {l : List Byte} {s : State} (hplace : s.hostPhys f (descNum d 24 6) l.length 0 = .ok p) :
    attestOut d f l s = .ok (complete opAttest d stOk 0 (leBytes 4 l.length ++ zerosB 7) (s.hostWrite f (descNum d 24 6) l)) := by
  rw [attestOut, hplace]

theorem drbg_frame {n : Nat} {s : State} {r : List Byte × State} (h : drbg n s = some r) :
    r.2 = { s with freeCount := s.freeCount + 1, sec := { s.sec with requests := s.sec.requests + 1 } } := by
  unfold drbg at h
  split at h
  · simp at h
  · obtain rfl := Option.some.inj h
    rfl

theorem signAk_frame {msg : List Byte} {s : State} {r : List Byte × State} (h : signAk msg s = some r) :
    r.2 = { s with freeCount := s.freeCount + 1, sec := { s.sec with requests := s.sec.requests + 1 } } := by
  unfold signAk at h
  split at h
  · rename_i hdraw
    have hframe := drbg_frame hdraw
    obtain rfl := Option.some.inj h
    exact hframe
  · simp at h

/-- Settles O23: the evidence is placed by `attestOut_ok`, which sees nothing of the draws for the key and the signature. -/
theorem attestationAndEphemeralKeys : Obligations.AttestationAndEphemeralKeys := by
  unfold Obligations.AttestationAndEphemeralKeys
  refine ⟨?plain, ?ephemeral, ?chain, ?expiry⟩
  case plain =>
    intro d s f p nonce sig b hf hb h hres hform hlen htaint hread hplace hsig hsigned
    subst hf hb
    refine next_ite_descriptor (by simp [hform]) h hres ?_
    have hout : sig.2.hostPhys (s.ringOwner d.ring) (descNum d 24 6)
        (evidenceBody (beginDesc opAttest d s) (s.ringOwner d.ring) nonce none ++ sig.1).length 0 = .ok p := by
      rw [hsigned, signAk_frame hsig]
      exact hplace
    have hlen : ¬ descNum d 36 4 < (beginDesc opAttest d s).evidenceLen := Nat.not_lt.mpr hlen
    have hplace : (beginDesc opAttest d s).hostPhys (s.ringOwner d.ring) (descNum d 24 6) (beginDesc opAttest d s).evidenceLen 0 = .ok p := hplace
    simp [attestBody, hform, hlen, htaint, hread, hplace, hsig, attestOut_ok hout, hsigned]
  case ephemeral =>
    intro d s f p nonce k sig b hf hb h hres hform hlen htaint hread hplace hkey hsig hsigned
    subst hf hb
    refine next_ite_descriptor (by simp [hform]) h hres ?_
    have hnow : sig.2.now = s.now := by
      rw [signAk_frame hsig, drbg_frame hkey]
      rfl
    have hout (g : FoldKey → FoldKey) : (sig.2.modKey (s.ringOwner d.ring) g).hostPhys (s.ringOwner d.ring) (descNum d 24 6)
        (evidenceBody k.2 (s.ringOwner d.ring) nonce (some (Config.ecPublic (scalarOf k.1))) ++ sig.1).length 0 = .ok p := by
      rw [hsigned, signAk_frame hsig, drbg_frame hkey]
      exact hplace
    have hlen : ¬ descNum d 36 4 < (beginDesc opAttest d s).evidenceLen := Nat.not_lt.mpr hlen
    have hplace : (beginDesc opAttest d s).hostPhys (s.ringOwner d.ring) (descNum d 24 6) (beginDesc opAttest d s).evidenceLen 0 = .ok p := hplace
    simp [attestBody, hform, hlen, htaint, hread, hplace, hkey, hsig, attestOut_ok (hout _), hsigned, hnow]
  case chain =>
    intro d s f p l hf h hres hform hl hlen htaint hplace
    subst hf
    refine next_ite_descriptor (by simp [hform]) h hres ?_
    have hplace : (beginDesc opAttest d s).hostPhys (s.ringOwner d.ring) (descNum d 24 6) l.length 0 = .ok p := hplace
    simp only [beginDesc_sec, beginDesc_descFold, ← hl]
    simp [hform, hlen, htaint, attestOut_ok hplace]
  case expiry =>
    intro f e s hready heph hdue
    exact next_serve hready (by simp [heph, hdue])

/-! ### Random values and scan access (15 R411, R412) -/

/-- An uncorrected error is counted and recorded; SEC, the folds, the sessions and memory are as they were. -/
theorem errorUncorrected_kept (f : Option Nat) (source unit detail sheet extra : Nat) (s : State) :
    (errorUncorrected f source unit detail sheet extra s).sec = s.sec ∧ (errorUncorrected f source unit detail sheet extra s).folds = s.folds ∧
    (errorUncorrected f source unit detail sheet extra s).sessions = s.sessions ∧ (errorUncorrected f source unit detail sheet extra s).mem = s.mem := by
  rw [errorUncorrected_errors f source unit detail sheet extra s]
  simp

/-- Settles O43: each clause is a branch of its row. -/
theorem randomValuesAndScanAccess : Obligations.RandomValuesAndScanAccess := by
  unfold Obligations.RandomValuesAndScanAccess
  refine ⟨?reseed, ?health, ?unlock, ?refuse, ?word, ?sixth⟩
  case reseed =>
    intro s hready hrun hhealthy hdue
    exact next_serve hready (by rcases hdue with hdue | hdue <;> simp [hrun, hhealthy, hdue])
  case health =>
    intro s hready hhealthy
    refine ⟨_, next_serve hready (by rw [if_neg (by simp [hhealthy])]), ?_⟩
    obtain ⟨hsec, hfolds, -, hmem⟩ := errorUncorrected_kept none 8 0 0 0xFFFFFFFF 0 { s with sec := { s.sec with entropyFail := true, drbgOk := false } }
    simp [hsec, hfolds, hmem]
  case unlock =>
    intro k s hready htoken
    refine ⟨_, next_serve hready (by rw [if_neg (by simp [htoken])]), ?_⟩
    obtain ⟨hsec, hfolds, hsessions, hmem⟩ := errorUncorrected_kept none 9 0 0 0xFFFFFFFF 0
      { s with sec := { s.sec with seed := none, ak := false, tainted := true }, folds := s.folds.map (fun p => (p.1, { p.2 with key := p.2.key.zeroed })) }
    simp [hsec, hfolds, hsessions, hmem]
  case refuse =>
    intro k s hready htoken
    exact next_serve hready (by simp [htoken])
  case word =>
    intro k s hready hread hk
    exact next_serve hready (by simp [readChallenge, hread, Nat.not_le.mpr hk])
  case sixth =>
    intro s hready hread hrun hhealthy
    refine ⟨_, next_serve hready (by rw [if_neg (by simp)]), ?_⟩
    simp [readChallenge, hread, drawChallenge, drbg, hrun, hhealthy, State.draw]

end Sys2Proof.Machine
end

section
/-! SUPPORT. What the operations on sheets, migrations and namespaces leave as it was (02, 12): the device's own state. -/
namespace Sys2Proof.Machine
open Sys2Proof.Safety

/-- `t` is `s` but for memory, folds, sessions, pens, registers, draws and records: what operations on sheets and namespaces can change. -/
def StorageOnly (s t : State) : Prop :=
  t = { s with freeCount := t.freeCount, regs := t.regs, mem := t.mem, hostMem := t.hostMem, poison := t.poison, eqs := t.eqs
               undelivered := t.undelivered, dropped := t.dropped, errors := t.errors, sessions := t.sessions, folds := t.folds, pens := t.pens }

theorem StorageOnly.refl (s : State) : StorageOnly s s := rfl

theorem StorageOnly.trans {s t u : State} (h : StorageOnly s t) (k : StorageOnly t u) : StorageOnly s u :=
  Eq.trans k (congrArg (fun x : State =>
    { x with freeCount := u.freeCount, regs := u.regs, mem := u.mem, hostMem := u.hostMem, poison := u.poison, eqs := u.eqs
             undelivered := u.undelivered, dropped := u.dropped, errors := u.errors, sessions := u.sessions, folds := u.folds, pens := u.pens }) h)

/-- The same, the later change given first. -/
theorem StorageOnly.after {s t u : State} (k : StorageOnly t u) (h : StorageOnly s t) : StorageOnly s u := h.trans k

theorem storageOnly_of_records {s t : State} (h : RecordsOnly s t) : StorageOnly s t := by
  rw [h]
  rfl

theorem storageOnly_of_errors {s t : State} (h : ErrorsOnly s t) : StorageOnly s t := by
  rw [h]
  rfl

theorem StorageOnly.ite {p : Prop} [Decidable p] {s t u : State} (ht : StorageOnly s t) (hu : StorageOnly s u) :
    StorageOnly s (if p then t else u) := by
  split
  · exact ht
  · exact hu

theorem StorageOnly.foldl {α : Type} {g : State → α → State} (hg : ∀ s a, StorageOnly s (g s a)) (l : List α) (s : State) :
    StorageOnly s (l.foldl g s) := by
  induction l generalizing s with
  | nil => exact StorageOnly.refl s
  | cons a l ih => exact (hg s a).trans (ih _)

theorem StorageOnly.boot {s t : State} (h : StorageOnly s t) : t.boot = s.boot := by rw [h]
theorem StorageOnly.timer {s t : State} (h : StorageOnly s t) : t.timer = s.timer := by rw [h]
theorem StorageOnly.sec {s t : State} (h : StorageOnly s t) : t.sec = s.sec := by rw [h]
theorem StorageOnly.link {s t : State} (h : StorageOnly s t) : t.link = s.link := by rw [h]

/-! ### Registers, folds and records -/

theorem modFold_storage (s : State) (f : Nat) (g : Fold → Fold) : StorageOnly s (s.modFold f g) := rfl
theorem modNs_storage (s : State) (f : Nat) (g : Namespace → Namespace) : StorageOnly s (s.modNs f g) := rfl
theorem putEntry_storage (f i : Nat) (e : Sheet) (s : State) : StorageOnly s (putEntry f i e s) := rfl
theorem draw_storage (s : State) : StorageOnly s s.draw.2 := rfl
theorem setMem_storage (s : State) (m : List Host.Cell) (p : List Nat) : StorageOnly s { s with mem := m, poison := p } := rfl
theorem setAct_storage (s : State) (k v : Nat) : StorageOnly s (s.setAct k v) := rfl

theorem count_storage (s : State) (k n : Nat) : StorageOnly s (s.count k n) := storageOnly_of_errors (count_errors s k n)
theorem postFold_storage (t f : Nat) (st fl : W16) (sp : List Byte) (s : State) : StorageOnly s (postFold t f st fl sp s) :=
  storageOnly_of_records (postFold_records t f st fl sp s)

theorem linkWrite_storage (p : Nat) (l : List Byte) (s : State) : StorageOnly s (s.linkWrite p l) := by
  rw [State.linkWrite_eq]
  exact StorageOnly.ite rfl rfl

theorem applyKey_storage (k : Nat) (v : W64) (s : State) : StorageOnly s (applyKey k v s) := rfl

theorem applyPend_storage (sel : Nat → Bool) (s : State) : StorageOnly s (applyPend sel s) :=
  (StorageOnly.foldl (fun s (p : Nat × W64) => applyKey_storage p.1 p.2 s) _ s).trans rfl

/-! ### Sheets (02) -/

theorem refuseQuota_storage (f t : Nat) (s : State) : StorageOnly s (refuseQuota f t s) := by
  unfold refuseQuota postQuota
  extract_lets due s₁
  have hcounted : StorageOnly s s₁ := StorageOnly.ite (count_storage s _ _) (StorageOnly.refl s)
  split
  · exact hcounted.trans ((postFold_storage _ _ _ _ _ _).after (modFold_storage _ _ _))
  · exact hcounted

theorem noteThresholds_storage (f : Nat) (s₀ s : State) : StorageOnly s (noteThresholds f s₀ s) :=
  StorageOnly.foldl (fun s _ => StorageOnly.ite (postFold_storage _ _ _ _ _ s) (StorageOnly.refl s)) _ s

/-- A choice that is made has the state it names. -/
theorem snd_of_ite {α β : Type} {p : Prop} [Decidable p] {a : α} {b : β} {r : α × β} (h : (if p then none else some (a, b)) = some r) : r.2 = b := by
  split at h
  · cases h
  · exact (congrArg Prod.snd (Option.some.inj h)).symm

theorem snd_of_ite_map {α β γ : Type} {p : Prop} [Decidable p] {o : Option γ} {g : γ → α} {b : β} {r : α × β}
    (h : (if p then none else o.map (fun k => (g k, b))) = some r) : r.2 = b := by
  split at h
  · cases h
  · obtain ⟨k, -, hk⟩ := Option.map_eq_some_iff.mp h
    exact (congrArg Prod.snd hk).symm

/-- A location chosen takes a free value, and nothing else. -/
theorem chooseLoc_draw {f t : Nat} {pen : Option Nat} {s : State} {r : Nat × State} (h : chooseLoc f t pen s = some r) : r.2 = s.draw.2 := by
  unfold chooseLoc at h
  dsimp only at h
  split at h
  · exact snd_of_ite h
  · split at h
    · exact snd_of_ite h
    · split at h
      · exact snd_of_ite_map h
      · split at h
        · exact snd_of_ite_map h
        · cases h

theorem chooseLoc_storage {f t : Nat} {pen : Option Nat} {s : State} {r : Nat × State} (h : chooseLoc f t pen s = some r) :
    StorageOnly s r.2 := by
  rw [chooseLoc_draw h]
  rfl

theorem sweptOne_storage (f : Nat) (e : Sheet) (s : State) : StorageOnly s (sweptOne f e s) := StorageOnly.ite rfl rfl
theorem freeStorage_storage (f : Nat) (e : Sheet) (s : State) : StorageOnly s (freeStorage f e s) := StorageOnly.ite rfl rfl

theorem abandonMig_storage (f i : Nat) (s : State) : StorageOnly s (abandonMig f i s) := by
  unfold abandonMig
  split
  · rfl
  · exact StorageOnly.ite rfl ((count_storage _ _ _).after (modFold_storage _ _ _))

theorem releaseMig_storage (f i : Nat) (s : State) : StorageOnly s (releaseMig f i s) := by
  unfold releaseMig
  split
  · rfl
  · exact StorageOnly.ite rfl (StorageOnly.ite rfl rfl)

theorem captureCopy_storage (f i : Nat) (s : State) : StorageOnly s (captureCopy f i s) := by
  unfold captureCopy
  split
  · split
    · exact (modFold_storage _ _ _).after ((count_storage _ _ _).after ((count_storage s.draw.2 _ _).after (draw_storage s)))
    · exact modFold_storage _ _ _
  · exact StorageOnly.refl s

theorem discardSheet_storage (f i : Nat) (s : State) : StorageOnly s (discardSheet f i s) := by
  unfold discardSheet
  split
  · exact StorageOnly.refl s
  · have hcopied := (captureCopy_storage f i _).after ((abandonMig_storage f i _).after (releaseMig_storage f i s))
    exact (setMem_storage _ _ _).after ((modFold_storage _ _ _).after ((freeStorage_storage f _ _).after ((sweptOne_storage f _ _).after hcopied)))

theorem discardAll_storage (f : Nat) (l : List Nat) (s : State) : StorageOnly s (discardAll f l s) :=
  StorageOnly.foldl (fun s i => discardSheet_storage f i s) l s

theorem readBack_storage {f i : Nat} {s t : State} (h : readBack f i s = some t) : StorageOnly s t := by
  unfold readBack at h
  dsimp only at h
  split at h
  · split at h
    · simp at h
    · obtain ⟨c, -, hc⟩ := Option.map_eq_some_iff.mp h
      rw [← hc]
      rfl
  · split at h
    · simp at h
    · rw [← Option.some.inj h]
      rfl

theorem commitMove_storage (f i t loc len : Nat) (s : State) : StorageOnly s (commitMove f i t loc len s) := by
  unfold commitMove
  extract_lets e a content fm s₀ s₁ stored s₂ s₃
  have h₁ : StorageOnly s s₁ := by
    unfold s₁
    split
    · exact StorageOnly.ite rfl rfl
    · rfl
  have h₂ : StorageOnly s₁ s₂ := by
    unfold s₂
    split
    · exact linkWrite_storage _ _ _
    · rfl
  exact h₁.trans (h₂.trans ((sweptOne_storage f e s₂).trans ((noteThresholds_storage f s₀ _).after (putEntry_storage _ _ _ _))))

theorem storeForm_storage {s : State} {f len : Nat} {index : Option Nat} {r : State × Nat} (h : storeForm s f len index = some r) :
    StorageOnly s r.1 := by
  unfold storeForm at h
  dsimp only at h
  split at h
  · simp at h
  · split at h
    · simp at h
    · rw [← Option.some.inj h]
      exact (count_storage _ _ _).after (modNs_storage _ _ _)

theorem moveNow_storage {f i t : Nat} {pen : Option Nat} {s u : State} (h : moveNow f i t pen s = some u) : StorageOnly s u := by
  unfold moveNow at h
  dsimp only at h
  split at h
  · split at h
    · simp at h
    · rename_i hstore
      rw [← Option.some.inj h]
      exact (freeStorage_storage _ _ _).after ((commitMove_storage _ _ _ _ _ _).after ((modNs_storage _ _ _).after (storeForm_storage hstore)))
  · split at h
    · simp at h
    · rename_i hloc
      rw [← Option.some.inj h]
      exact (freeStorage_storage _ _ _).after ((commitMove_storage _ _ _ _ _ _).after (chooseLoc_storage hloc))

theorem settleMig_storage (f i : Nat) (s : State) : StorageOnly s (settleMig f i s) := by
  unfold settleMig
  split
  · rfl
  · rename_i m hm
    refine StorageOnly.ite (releaseMig_storage f i s) ?_
    extract_lets bare
    have hbare : StorageOnly s bare := rfl
    split
    · exact hbare
    · rename_i t hback
      have ht : StorageOnly s t := hbare.trans (readBack_storage hback)
      split
      · rename_i u hu
        split at hu
        · simp at hu
        · split at hu
          · rw [← Option.some.inj hu]
            exact (freeStorage_storage _ _ _).after ((commitMove_storage _ _ _ _ _ _).after ((modNs_storage _ _ _).after ht))
          · exact ht.trans (moveNow_storage hu)
      · exact abandonMig_storage f i s

end Sys2Proof.Machine
end

section
/-! SUPPORT. The device as a whole: the step, the reset state, fail-stop and its causes, cold and warm reset (16, 18). -/
namespace Sys2Proof.Machine
open Sys2Proof.Safety

/-- Settles O1: `step` by the two forms of its queue. -/
theorem stepPerformsTheFrontCommand : Obligations.StepPerformsTheFrontCommand := by
  unfold Obligations.StepPerformsTheFrontCommand
  refine ⟨fun c rest s => rfl, fun s hempty => ?_⟩
  simp [step, hempty, State.tick]

/-- Settles O2: every table of the reset state is empty. -/
theorem resetState : Obligations.ResetState := by
  unfold Obligations.ResetState
  refine ⟨rfl, rfl, rfl, rfl, rfl, rfl, rfl, fun k => ⟨rfl, rfl⟩, fun r => ⟨rfl, rfl⟩, fun q => ⟨rfl, rfl⟩, fun f => ⟨rfl, rfl, rfl, rfl, rfl⟩,
    fun p => ⟨rfl, rfl⟩, fun x => rfl, reset_mem_wf⟩

/-! ### Fail-stop (18 R457) -/

/-- A port, and a fold, as fail-stop leaves it. -/
def Port.stopped (x : Port) : Port := { x with state := 0, wire := none }
def Fold.stopped (x : Fold) : Fold := { x with key := x.key.zeroed }

theorem failStop_port_state {cause : Nat} {s : State} (h : s.boot.status ≠ 15) (p : Nat) : ((failStop cause s).port p).state = 0 := by
  have hports : (failStop cause s).fab.ports = s.fab.ports.map (fun p => (p.1, p.2.stopped)) := by
    simp only [failStop, if_neg h]
    split <;> rfl
  rw [State.port, hports, getND, getN_map_values s.fab.ports (fun _ => Port.stopped)]
  cases getN s.fab.ports p <;> rfl

/-- What an entered fail-stop leaves, field by field. -/
theorem failStop_eq {cause : Nat} {s : State} (h : s.boot.status ≠ 15) : failStop cause s =
    { s with
      regs := if s.act rSysErrFatal = 0 then (s.setAct rSysErrFatal (cause + s.now % 2 ^ 32 * 2 ^ 32)).regs else s.regs
      link := { s.link with fatalFlits := if s.link.up then List.replicate 4 cause else [], up := false, training := false }
      boot := { s.boot with status := 15, faultN := false }
      fab := { s.fab with ports := s.fab.ports.map (fun p => (p.1, p.2.stopped)) }
      eqs := s.eqs.map (fun p => (p.1, { p.2 with backlog := [] }))
      pens := s.pens.map (fun p => (p.1, { p.2 with running := false, bank0 := StreamBank.reset, bank1 := StreamBank.reset, reread := none }))
      sec := { s.sec with ak := false }
      folds := s.folds.map (fun p => (p.1, p.2.stopped)) } := by
  unfold failStop
  rw [if_neg h]
  by_cases hfirst : s.act rSysErrFatal = 0
  · simp only [if_pos hfirst]
    rfl
  · simp only [if_neg hfirst]
    rfl

/-- Settles O39: read off `failStop_eq`. -/
theorem failStopEntry : Obligations.FailStopEntry := by
  unfold Obligations.FailStopEntry
  intro cause s hrun hlow hhigh
  have hports := fun p => failStop_port_state (cause := cause) hrun p
  have hrecord : cause + s.now % 2 ^ 32 * 2 ^ 32 < 2 ^ 64 := by omega
  have hregs : ∀ t : State, t.regs = (failStop cause s).regs → t.act rSysErrFatal = (failStop cause s).act rSysErrFatal :=
    fun t ht => State.act_congr _ _ _ ht
  rw [failStop_eq hrun] at hports hregs ⊢
  refine ⟨⟨by simp, by simp, rfl, rfl, hports⟩, rfl, ?_, fun hfirst => ?_, fun hlater => ?_, rfl, fun f => ?_, rfl, rfl, rfl, rfl⟩
  · by_cases hup : s.link.up = true <;> simp [hup]
  · rw [← hregs (s.setAct rSysErrFatal (cause + s.now % 2 ^ 32 * 2 ^ 32)) (by simp [hfirst])]
    exact State.act_setAct s _ _ hrecord
  · exact (hregs s (by simp [hlater])).symm
  · dsimp only [State.fold, getND]
    rw [getN_map_values s.folds (fun _ => Fold.stopped)]
    cases hfold : getN s.folds f with
    | none => exact .inr ⟨rfl, rfl⟩
    | some x => exact .inl rfl

/-- Settles O40: each cause is a branch of its row. -/
theorem failStopCausesAndScrub : Obligations.FailStopCausesAndScrub := by
  unfold Obligations.FailStopCausesAndScrub
  refine ⟨?thermal, ?watchdog, ?central, ?other, ?stack, ?self, ?scrub⟩
  case thermal =>
    intro sensor s hrun hsensor
    have hstatus : s.boot.status ≠ 0 := by
      simp [State.running] at hrun
      omega
    refine congrArg Host.Outcome.next ?_
    rw [if_neg (by simp [hstatus, hsensor]), if_pos hrun]
  case watchdog =>
    intro cpu s hrun hcpu
    exact congrArg Host.Outcome.next (by simp [hrun, hcpu])
  case central =>
    intro pll s hrun hcentral hlock
    refine congrArg Host.Outcome.next ?_
    rcases hcentral with rfl | rfl <;> simp [hrun, hlock, isCentralPll]
  case other =>
    intro pll s hrun hpll hne8 hne19 hlock
    have hside : isCentralPll pll = false := by simp [isCentralPll, hne8, hne19]
    exact congrArg Host.Outcome.next (by simp [hrun, hlock, hside, Nat.not_le.mpr hpll])
  case stack =>
    intro stack s hrun hstack hbound
    exact congrArg Host.Outcome.next (by simp [hrun, hstack, hbound])
  case self =>
    intro s hrun
    exact congrArg Host.Outcome.next (by simp [hrun])
  case scrub =>
    intro l s b hready hperiod hb hactive
    subst hb
    exact next_serve hready (by simp [hperiod, hactive])

/-! ### Cold reset (16 R423) -/

/-- Settles O42: the row's three widths, and `coldState` field by field. -/
theorem coldResetAsserted : Obligations.ColdResetAsserted := by
  unfold Obligations.ColdResetAsserted
  refine ⟨?_, ?_, ?_, fun s => ⟨rfl, rfl, rfl, rfl, rfl, rfl, rfl, rfl, rfl, rfl, rfl, rfl, ?_⟩⟩
  · intro w s h
    exact (if_neg (by omega)).trans (if_neg (by omega))
  · intro w s h k
    exact (if_neg (by omega)).trans (if_pos k)
  · intro w s h
    exact if_pos h
  · intro p hp
    simpa using (List.mem_filter.1 hp).2

end Sys2Proof.Machine
end

section
/-! SUPPORT. Ladder, duty, sensors and telemetry (17). -/
namespace Sys2Proof.Machine
open Sys2Proof.Safety

/-! ### Power alone -/

/-- `t` is `s` but for its power state (17). -/
def PowerOnly (s t : State) : Prop := t = { s with power := t.power }

theorem PowerOnly.refl (s : State) : PowerOnly s s := rfl
theorem PowerOnly.trans {s t u : State} (h : PowerOnly s t) (k : PowerOnly t u) : PowerOnly s u := by
  cases s; cases t; cases u; simp_all [PowerOnly]
theorem PowerOnly.foldl {α : Type} {g : State → α → State} (hg : ∀ s a, PowerOnly s (g s a)) (l : List α) (s : State) : PowerOnly s (l.foldl g s) := by
  induction l generalizing s with
  | nil => exact .refl s
  | cons a l ih => exact (hg s a).trans (ih _)

theorem markMax_power (k : Nat) (v : Int) (s : State) : PowerOnly s (markMax k v s) := by
  unfold markMax
  split
  · split <;> rfl
  · rfl
theorem markDuty_power (s : State) : PowerOnly s (markDuty s) := by
  unfold markDuty
  dsimp only
  split
  · split <;> rfl
  · rfl
theorem setDuty_power (d : Nat) (s : State) : PowerOnly s (setDuty d s) := by
  unfold setDuty
  split
  · rfl
  · exact PowerOnly.trans (t := { s with power := { s.power with duty := d, dutyAt := s.now } }) rfl (markDuty_power _)
theorem countThrottle_power (us : Nat) (s : State) : PowerOnly s (countThrottle us s) := by
  unfold countThrottle
  dsimp only
  split <;> rfl
theorem junctionSample_power (i : Nat) (c : Int) (s : State) : PowerOnly s (junctionSample i c s) := by
  unfold junctionSample
  dsimp only
  split
  · split <;> rfl
  · rfl
theorem stackSample_power (k : Nat) (c : Int) (s : State) : PowerOnly s (stackSample k c s) :=
  PowerOnly.trans (t := { s with power := _ }) rfl (markMax_power _ _ _)

/-! ### The ladder (17 R437 to R439) -/

theorem setLevel_block (s : State) (b l : Nat) : (s.setLevel b l).block b = { s.block b with level := l } := by
  simp [State.setLevel, State.block]

theorem collapse_pen {b : Nat} (s : State) (hb : b < 64) : collapse b s = collapsePen b s := if_pos hb

/-- What a count leaves of the power state, and that it is one of registers. -/
theorem count_regs_only (s : State) (k n : Nat) : s.count k n = { s with regs := (s.count k n).regs } := by
  unfold State.count
  split <;> rfl

theorem count_regs_congr {s t : State} (k n : Nat) (h : s.regs = t.regs) : (s.count k n).regs = (t.count k n).regs := by
  unfold State.count
  rw [State.act_congr t s k h]
  split <;> simp [State.setAct, h]

/-- Settles O53: each command is its own rule once the block is one that may move. -/
theorem powerLadder : Obligations.PowerLadder := by
  unfold Obligations.PowerLadder
  refine ⟨?idle, ?deeper, ?collapsed, ?woken⟩
  case idle =>
    intro b s hready hb hlevel hpen
    refine next_serve hready ?_
    by_cases hp : b < 64
    · simp [hb, hlevel, hpen hp]
    · simp [hb, hlevel, hp]
  case deeper =>
    intro b l s hready hb hawake hkept hpen hl
    subst hl
    refine next_serve hready (if_neg ?_)
    by_cases hp : b < 64
    · simp [hb, hawake, hkept, hpen hp]
    · simp [hb, hawake, hkept, hp]
  case collapsed =>
    intro b s hb
    rw [collapse_pen s hb]
    refine ⟨by rw [collapsePen, setLevel_block], ?_, fun a hlo hhi => memGet_memClear_in _ _ _ _ ⟨hlo, hhi⟩,
      fun a hout => memGet_memClear_out _ _ _ _ hout, fun n hn => ?_⟩
    · simp [collapsePen, State.setLevel, State.modPen, State.pen]
    · simp [collapsePen, State.setLevel, State.modPen, State.pen, getND_setN_ne _ _ _ hn]
  case woken =>
    intro b s hready hb hfence hdis
    refine ⟨_, next_serve hready (if_neg (by simp [hb, hfence, hdis])), ?_⟩
    have hwake : ∀ c, c ≠ b → getND (setN s.power.ladder b ⟨0, s.now⟩) c ⟨0, 0⟩ = s.block c := fun c hc => getND_setN_ne _ _ _ hc
    dsimp only
    by_cases hdeep : b < 64 ∧ 3 ≤ (s.block b).level
    · rw [if_pos (by simpa using hdeep), if_pos hdeep, count_regs_only]
      refine ⟨by simp [State.block], by simp [State.block], hwake, ?_, rfl⟩
      exact count_regs_congr rPwrPenWakes 1 rfl
    · rw [if_neg (by simpa using hdeep), if_neg hdeep]
      exact ⟨by simp [State.block], by simp [State.block], hwake, rfl, rfl⟩

/-! ### Duty and core voltage (17 R442, R445) -/

theorem markMax_eq (k : Nat) (v : Int) (s : State) :
    markMax k v s = { s with power := { s.power with marks := (markMax k v s).power.marks } } := by
  unfold markMax
  split
  · split <;> rfl
  · rfl
theorem markDuty_eq (s : State) : markDuty s = { s with power := { s.power with marks := (markDuty s).power.marks } } := by
  unfold markDuty
  dsimp only
  split
  · split <;> rfl
  · rfl
theorem countThrottle_eq (us : Nat) (s : State) :
    countThrottle us s = { s with power := { s.power with throttle := (countThrottle us s).power.throttle } } := by
  unfold countThrottle
  dsimp only
  split <;> rfl
theorem setDuty_eq (d : Nat) (s : State) : setDuty d s =
    { s with power := { s.power with duty := d, dutyAt := (setDuty d s).power.dutyAt, marks := (setDuty d s).power.marks } } := by
  unfold setDuty
  split
  next h => rw [h]
  · rw [markDuty_eq]

/-- Neither limit is passed downwards twice, and no duty leaves 1/8 to 8/8. -/
theorem nextDuty_bounds {s : State} (hlow : 1 ≤ s.power.duty) (hhigh : s.power.duty ≤ 8) :
    s.power.duty ≤ nextDuty s + 1 ∧ nextDuty s ≤ s.power.duty + 1 ∧ 1 ≤ nextDuty s ∧ nextDuty s ≤ 8 := by
  unfold nextDuty
  dsimp only
  split
  · omega
  · split
    · omega
    · split <;> omega

theorem nextDuty_of_hot {s : State} (h : (bitsOf (s.act rPwrThermal) 7 0 : Int) * 8 ≤ s.power.tmax ∨ bitsOf (s.act rPwrThermal) 26 16 < s.power.pest) :
    nextDuty s = max 1 (s.power.duty - 1) := by
  unfold nextDuty
  exact if_pos (by simpa using h)

/-- A missing entry is an entry of no pair. -/
theorem fst_ne_of_getN_none {α : Type} {m : NMap α} {k : Nat} (h : getN m k = none) : ∀ p ∈ m, p.1 ≠ k := by
  induction m with
  | nil => simp
  | cons p m ih =>
    obtain ⟨i, v⟩ := p
    by_cases hik : i = k
    · simp [getN, hik] at h
    · simp only [getN, if_neg hik] at h
      rintro q (_ | ⟨_, hq⟩)
      · exact hik
      · exact ih h q hq

/-- Where nothing chosen waits, a commit's application changes commit registers at most. -/
theorem applyPend_none {sel : Nat → Bool} {s : State} (h : ∀ p ∈ s.regs.pend, sel p.1 = false) :
    applyPend sel s = { s with regs := { s.regs with commit := (applyPend sel s).regs.commit } } := by
  have hnone : s.regs.pend.filter (fun p => sel p.1) = [] := List.filter_eq_nil_iff.2 fun p hp => by simp [h p hp]
  unfold applyPend
  simp only [hnone, List.foldl_nil]

/-- A duty evaluation's interval as it counts: the estimate taken in, and the time at this duty. -/
def evaluated (watts : Nat) (s : State) : State := markMax 9 watts (countThrottle 100 { s with power := { s.power with pest := watts } })

/-- The duty set from the interval, and the next interval begun. -/
def dutySet (s : State) : State :=
  let t := if s.power.undervolt then s else setDuty (nextDuty s) s
  { t with power := { t.power with tmax := noSample } }

/-- The interval's end, where no PWR_THERMAL waits: the estimate, its marks and times are all that it has changed, commit registers apart. -/
theorem evaluated_eq {watts : Nat} {s v : State} (hpend : getN s.regs.pend rPwrThermal = none)
    (hv : v = evaluated watts (applyPend (fun k => k == rPwrThermal) s)) :
    v = { s with power := { s.power with pest := watts, throttle := v.power.throttle, marks := v.power.marks }
                 regs := { s.regs with commit := v.regs.commit } } := by
  have hkept := applyPend_none (sel := fun k => k == rPwrThermal) (s := s) (fun p hp => by simpa using fst_ne_of_getN_none hpend p hp)
  rw [hv, evaluated, markMax_eq, countThrottle_eq, hkept]

theorem dutySet_running {s : State} (h : s.power.undervolt = false) : dutySet s = { s with power := { s.power with
    duty := nextDuty s, dutyAt := (dutySet s).power.dutyAt, marks := (dutySet s).power.marks, tmax := noSample } } := by
  unfold dutySet
  rw [h, if_neg Bool.false_ne_true, setDuty_eq]

theorem dutySet_held {s : State} (h : s.power.undervolt = true) : dutySet s = { s with power := { s.power with tmax := noSample } } := by
  unfold dutySet
  rw [if_pos h]

/-- Settles O54: the interval's bookkeeping leaves duty, Tmax and the limits as they were, so that the duty goes where `nextDuty` sends it. -/
theorem dutyAndCoreVoltage : Obligations.DutyAndCoreVoltage := by
  unfold Obligations.DutyAndCoreVoltage
  refine ⟨?steps, ?held, ?drop, ?risen, ?target⟩
  case steps =>
    intro watts s hready hpend hvolt hlow hhigh
    obtain ⟨v, hv⟩ : ∃ v, v = evaluated watts (applyPend (fun k => k == rPwrThermal) s) := ⟨_, rfl⟩
    have hkept := evaluated_eq hpend hv
    have hact : v.act rPwrThermal = s.act rPwrThermal := by rw [hkept]; rfl
    have hduty : v.power.duty = s.power.duty := by rw [hkept]
    have htmax : v.power.tmax = s.power.tmax := by rw [hkept]
    have hpest : v.power.pest = watts := by rw [hkept]
    have hrun := dutySet_running (s := v) (by rw [hkept]; exact hvolt)
    have hbounds := nextDuty_bounds (s := v) (hduty ▸ hlow) (hduty ▸ hhigh)
    refine ⟨dutySet v, next_serve hready (hv ▸ rfl), ?_, fun hover => ?_, fun hhot => ?_, ?_, ?_⟩
    · rw [hrun]
      exact hpest
    · rw [hrun]
      exact (nextDuty_of_hot (.inr (by rw [hact, hpest]; exact hover))).trans (by rw [hduty])
    · rw [hrun]
      exact (nextDuty_of_hot (.inl (by rw [hact, htmax]; exact_mod_cast hhot))).trans (by rw [hduty])
    · rw [hrun]
      exact hduty ▸ hbounds
    · rw [hrun, hkept]
  case held =>
    intro watts s hready hpend hvolt
    obtain ⟨v, hv⟩ : ∃ v, v = evaluated watts (applyPend (fun k => k == rPwrThermal) s) := ⟨_, rfl⟩
    have hkept := evaluated_eq hpend hv
    have hheld := dutySet_held (s := v) (by rw [hkept]; exact hvolt)
    refine ⟨dutySet v, next_serve hready (hv ▸ rfl), ?_, ?_⟩
    · rw [hheld, hkept]
    · rw [hheld, hkept]
  case drop =>
    intro mv s hready hlow
    refine ⟨_, next_serve hready (if_pos hlow), ?_, ?_, ?_⟩
    · rw [setDuty_eq]
    · rw [setDuty_eq]
    · rw [setDuty_eq]
  case risen =>
    intro mv s hready hhigh
    exact next_serve hready ((if_neg (by omega)).trans (if_pos hhigh))
  case target =>
    intro mv s hready
    refine next_serve hready ?_
    simp [onlyIf, Bool.and_eq_true, and_assoc]

/-! ### Sensors, histories and clears (17 R441, R444, R447 to R449) -/

theorem junctionSample_power_eq (i : Nat) (c : Int) (s : State) : ∃ m sensor, (junctionSample i c s).power =
    { s.power with samples := setN s.power.samples i c, tmax := max s.power.tmax c, marks := m, markSensor := sensor } ∧
    ∃ w, getN m 0 = some w ∧ c ≤ w := by
  unfold junctionSample
  dsimp only
  cases hmark : getN s.power.marks 0 with
  | none => exact ⟨_, _, rfl, c, getN_setN_self _ _ _, Int.le_refl c⟩
  | some w =>
    by_cases hw : w < c
    · exact ⟨setN s.power.marks 0 c, i, by simp [hw], c, getN_setN_self _ 0 c, Int.le_refl c⟩
    · exact ⟨s.power.marks, s.power.markSensor, by simp [hw], w, hmark, Int.not_lt.1 hw⟩

/-- What a stack reading makes of the doubled refresh and of the halved rate. -/
theorem stackSample_power_eq (k : Nat) (c : Int) (s : State) :
    (stackSample k c s).power.refresh2x = (if 680 ≤ c then s.power.refresh2x.filter (· != k) ++ [k] else s.power.refresh2x.filter (· != k)) ∧
    (stackSample k c s).power.halfRate = (if 760 ≤ c ∨ k ∈ s.power.halfRate ∧ 736 < c then s.power.halfRate.filter (· != k) ++ [k]
      else s.power.halfRate.filter (· != k)) := by
  unfold stackSample
  rw [markMax_eq]
  simp

/-- A list without `k`, with it put back under a condition. -/
theorem mem_rejoin {l : List Nat} {j k : Nat} {p : Prop} [Decidable p] :
    j ∈ (if p then l.filter (· != k) ++ [k] else l.filter (· != k)) ↔ (if j = k then p else j ∈ l) := by
  split <;> by_cases hj : j = k <;> simp_all

theorem getND_bump (m : NMap W64) (k b : Nat) : getND (setN m k (getND m k 0 + 1)) b 0 = getND m b 0 + (if b = k then 1 else 0) := by
  by_cases hb : b = k
  · simp [hb]
  · simp [getND_setN_ne _ _ _ hb, hb]

/-- Settles O55: each sample is kept as it is read, each clear keeps what it does not name. -/
theorem sensorsTelemetryAndTally : Obligations.SensorsTelemetryAndTally := by
  unfold Obligations.SensorsTelemetryAndTally
  refine ⟨?junction, ?stack, ?samples, ?history, ?hists, ?marks, fun s hready => next_serve hready rfl⟩
  case junction =>
    intro i c s
    obtain ⟨m, sensor, hpower, hmark⟩ := junctionSample_power_eq i c s
    rw [hpower]
    exact ⟨getN_setN_self _ _ _, Int.le_max_right _ _, Int.le_max_left _ _, hmark⟩
  case stack =>
    intro k c s
    obtain ⟨hrefresh, hhalf⟩ := stackSample_power_eq k c s
    rw [hrefresh, hhalf]
    exact ⟨by rw [mem_rejoin, if_pos rfl], by rw [mem_rejoin, if_pos rfl], fun j hj => by rw [mem_rejoin, if_neg hj]⟩
  case samples =>
    intro j st s hready
    exact ⟨_, next_serve hready rfl, rfl,
      (PowerOnly.foldl (fun s i => junctionSample_power i _ s) _ s).trans (PowerOnly.foldl (fun s k => stackSample_power k _ s) _ _)⟩
  case history =>
    intro s hready
    refine ⟨_, next_serve hready rfl, fun b => getND_bump _ _ b, ?_, ?_, rfl⟩
    · rw [List.getLast?_drop, if_neg (by simp only [List.length_append, List.length_singleton]; omega), List.getLast?_concat]
    · simp only [List.length_drop, List.length_append, List.length_singleton]
      omega
  case hists =>
    intro h s hready
    refine ⟨_, next_serve hready rfl, fun p hp => ?_, rfl⟩
    simpa [Decidable.or_iff_not_imp_left] using (List.mem_filter.1 hp).2
  case marks =>
    intro m s hready
    refine ⟨_, next_serve hready rfl, fun p hp => ?_, rfl⟩
    simpa [Decidable.or_iff_not_imp_left] using (List.mem_filter.1 hp).2

end Sys2Proof.Machine
end

section
/-! SUPPORT. The host link (03 R57 to R60). -/
namespace Sys2Proof.Machine
open Sys2Proof.Safety

theorem linkAlive_of_status {s : State} (h : s.boot.status = 4 ∨ s.boot.status = 5) : s.linkAlive = true := by simpa [State.linkAlive] using h

/-- A refused flit as it is counted: its replay, and a corrected error of the link. -/
def nakCounted (s : State) : State := errorCorrected none 6 0 0 1 (s.draw.2.count rLnkReplayCount (1 + s.draw.1 % 256))

theorem nakCounted_eq (s : State) : ∃ t, nakCounted s = t ∧ t.link = s.link ∧ ErrorsOnly { s with freeCount := t.freeCount } t := by
  have h : ErrorsOnly s.draw.2 (nakCounted s) := (count_errors s.draw.2 _ _).trans (errorCorrected_errors none 6 0 0 1 _)
  refine ⟨_, rfl, ?_, ?_⟩
  · rw [h]
    rfl
  · rw [h]
    rfl

/-- Errors counted before the link's own change. -/
theorem errorsOnly_withLink {s t : State} (x : Link) (h : ErrorsOnly { s with freeCount := t.freeCount } t) :
    ErrorsOnly { s with link := x, freeCount := t.freeCount } { t with link := x } := by
  unfold ErrorsOnly at h ⊢
  rw [h]

/-- A NAK of a link that is up, by the number of failed replays it makes. -/
theorem exec_linkFlitNak {again : Bool} {s : State} (hup : s.link.up = true) :
    exec (.linkFlitNak again) s = .next (if 8 ≤ (if again = true then s.link.failedReplays + 1 else 0)
      then loseLink ((nakCounted s).count rLnkRetrainCount 1)
      else { nakCounted s with link := { (nakCounted s).link with failedReplays := if again = true then s.link.failedReplays + 1 else 0 } }) := by
  refine congrArg Host.Outcome.next ?_
  rw [if_neg (by simp [hup])]
  rfl

/-- A NAK that is not the eighth failed replay of its flit leaves the link up. -/
theorem exec_linkFlitNak_replays {again : Bool} {s : State} (hup : s.link.up = true)
    (hfew : (if again = true then s.link.failedReplays + 1 else 0) < 8) :
    ∃ t, exec (.linkFlitNak again) s = .next t ∧
      t.link = { s.link with failedReplays := if again = true then s.link.failedReplays + 1 else 0 } ∧
      ErrorsOnly { s with link := t.link, freeCount := t.freeCount } t := by
  obtain ⟨t, ht, hlink, herrors⟩ := nakCounted_eq s
  refine ⟨_, (exec_linkFlitNak hup).trans (congrArg Host.Outcome.next (if_neg (Nat.not_le.mpr hfew))), ?_, ?_⟩
  · rw [ht, hlink]
  · rw [ht]
    exact errorsOnly_withLink (t := t) _ herrors

/-- Settles O38: training by the width found; a NAK by the replays it makes; the rest by the row's guard. -/
theorem hostLinkTrainsAndFails : Obligations.HostLinkTrainsAndFails := by
  unfold Obligations.HostLinkTrainsAndFails
  refine ⟨?trains, ?again, ?fails, ?first, ?more, ?eighth, ?lost, ?limit⟩
  case trains =>
    intro lanes s hstatus hdown hnew hwidth
    refine ⟨trainLink lanes s, ?_, ?_⟩
    · exact congrArg Host.Outcome.next (by rw [linkAlive_of_status hstatus, hdown, hnew]; rfl)
    · unfold trainLink
      rw [if_neg hwidth]
      refine ⟨rfl, rfl, rfl, ?_, rfl⟩
      rcases hstatus with h | h <;> simp [h]
  case again =>
    intro lanes since s hstatus hdown hsince hdue
    exact congrArg Host.Outcome.next (by rw [linkAlive_of_status hstatus, hdown, hsince]; simp [hdue])
  case fails =>
    intro lanes s hwidth
    unfold trainLink
    rw [if_pos hwidth]
    exact ⟨rfl, rfl, rfl⟩
  case first =>
    intro s hup
    exact exec_linkFlitNak_replays hup (by simp)
  case more =>
    intro s hup hfew
    exact exec_linkFlitNak_replays hup (by simp; omega)
  case eighth =>
    intro s hup hmany
    obtain ⟨t, ht, hlink, herrors⟩ := nakCounted_eq s
    refine ⟨_, (exec_linkFlitNak hup).trans (congrArg Host.Outcome.next (if_pos (by simp; omega))), rfl, rfl, rfl, ?_, ?_⟩
    · rw [ht]
      unfold loseLink
      cases (t.count rLnkRetrainCount 1).link.downSince <;> rfl
    · rw [ht]
      have hcount := herrors.trans (count_errors t rLnkRetrainCount 1)
      have hfree : (t.count rLnkRetrainCount 1).freeCount = t.freeCount := State.count_freeCount t _ _
      rw [← hfree] at hcount
      exact errorsOnly_withLink (t := t.count rLnkRetrainCount 1) _ hcount
  case lost =>
    intro s hup hsince
    refine ⟨loseLink s, congrArg Host.Outcome.next (by rw [hup]; rfl), rfl, rfl, rfl, ?_, rfl⟩
    simp [loseLink, hsince]
  case limit =>
    intro since s hsince hstatus hever hdown hdue
    refine congrArg Host.Outcome.next ?_
    rw [hsince]
    simp [linkAlive_of_status hstatus, hever, hdown, State.downLimit, hdue]

end Sys2Proof.Machine
end

section
/-! SUPPORT. The register window and the commit protocol (03 R62, 19 R469 to R475). -/
namespace Sys2Proof.Machine
open Sys2Proof.Safety

theorem getN_delN_ne {α : Type} (m : NMap α) {j k : Nat} (h : j ≠ k) : getN (delN m k) j = getN m j := by
  unfold delN
  simpa [h] using getN_filter_key m (fun i => i != k) j

/-- Settles O48: the first test of every access is whose it is. -/
theorem otherRequestersAreRefused : Obligations.OtherRequestersAreRefused := by
  unfold Obligations.OtherRequestersAreRefused
  intro req o size v s hready hreq
  have hother : (req != mgmtPath) = true := by simpa using hreq
  exact ⟨next_serve hready (if_pos hother), next_serve hready (if_pos hother), next_serve hready (if_pos hother), next_serve hready (if_pos hother)⟩

/-! ### Writes (19 R469, R471) -/

/-- An aligned 8-byte write by the management path that is no command goes to the register of its row. -/
theorem exec_registerWrite_value {o : Nat} {v : W64} {s : State} (hready : s.ready = true) (haligned : o % 8 = 0) (hwindow : o < 0x2000000)
    (hring : o < 0x20100 ∨ 0x20138 ≤ o) (hvalue : writeCommand o v.toNat s = none) :
    exec (.registerWrite mgmtPath o 8 v) s = .next (writeReg o v.toNat s) := by
  have hkey : regKey s o = o := if_neg (by simp; omega)
  refine next_serve hready ?_
  rw [if_neg (by simp), writeWindow, if_neg (by omega), if_pos (by simp [haligned]), hvalue, haligned, Nat.sub_zero, hkey]
  rfl

/-- A write within a row's mask fits its register. -/
theorem masked_lt {v m : Nat} (hm : m < 2 ^ 64) : v &&& m < 2 ^ 64 := Nat.lt_of_le_of_lt Nat.and_le_right hm

/-- A value written to a shadow, which is kept only where it differs from the active one. -/
def State.writeShadow (s : State) (o w : Nat) : State :=
  { s with regs := { s.regs with shadow := if w = s.act o then delN s.regs.shadow o else setN s.regs.shadow o (BitVec.ofNat 64 w) } }

theorem writeReg_of_sh {o v : Nat} {r : RegRow} {s : State} (hrow : regRow o = some r) (hkind : r.kind = .sh) :
    writeReg o v s = s.writeShadow o (v &&& r.mask) := by
  unfold writeReg
  rw [hrow]
  exact if_pos hkind

theorem writeShadow_shadowOf {s : State} {o w : Nat} (hw : w < 2 ^ 64) (k : Nat) :
    (s.writeShadow o w).shadowOf k = if k = o then w else s.shadowOf k := by
  change (match getN (s.writeShadow o w).regs.shadow k with | some v => v.toNat | none => s.act k) = _
  dsimp only [State.writeShadow]
  by_cases hk : k = o
  · subst hk
    by_cases hsame : w = s.act k
    · simp [hsame]
    · rw [if_neg hsame, getN_setN_self, if_pos rfl]
      exact (BitVec.toNat_ofNat w 64).trans (Nat.mod_eq_of_lt hw)
  · by_cases hsame : w = s.act o
    · rw [if_pos hsame, getN_delN_ne _ hk, if_neg hk]
      rfl
    · rw [if_neg hsame, getN_setN_ne _ _ hk, if_neg hk]
      rfl

/-- What a register with a shadow reads, by VIEW. -/
theorem regRead_shadowed {s : State} {o : Nat} {r : RegRow} (hrow : regRow o = some r) (hkind : r.kind = .sh) (haligned : o % 8 = 0)
    (hwindow : o < 0x150000) (hring : o < 0x20100 ∨ 0x20138 ≤ o) (hplain : o % 65536 < 0xFE8 ∨ 0x1000 ≤ o % 65536) :
    regRead s o = if (s.commitOf (blockOf o)).view then s.act o else s.shadowOf o := by
  have hkey : regKey s o = o := if_neg (by simp; omega)
  have hno : ¬ (o % 65536 = 0xFE8 ∨ o % 65536 = 0xFF0 ∨ o % 65536 = 0xFF8) := by omega
  unfold regRead
  rw [if_neg (by simp [haligned]; omega), if_neg (by simpa [and_assoc, or_assoc] using fun _ _ => by omega)]
  dsimp only
  rw [hkey, hrow]
  exact if_pos hkind

/-- Settles O47: a write goes where its row's kind says. -/
theorem registerWritesAndShadows : Obligations.RegisterWritesAndShadows := by
  unfold Obligations.RegisterWritesAndShadows
  refine ⟨?shadowed, ?plain, ?readOnly⟩
  case shadowed =>
    intro o r v s hready hrow hkind haligned hwindow hring hplain hvalue hmask
    have hshadow := writeShadow_shadowOf (s := s) (o := o) (masked_lt (v := v.toNat) hmask)
    refine ⟨_, (exec_registerWrite_value hready haligned (by omega) hring hvalue).trans (congrArg _ (writeReg_of_sh hrow hkind)), ?_, fun k => rfl,
      fun k hk => ?_, rfl, fun hview => ?_, fun hview => ?_⟩
    · rw [hshadow, if_pos rfl]
    · rw [hshadow, if_neg hk]
    · rw [regRead_shadowed hrow hkind haligned hwindow hring hplain, hshadow, if_pos rfl]
      exact if_neg (ne_true_of_eq_false hview)
    · rw [regRead_shadowed hrow hkind haligned hwindow hring hplain]
      exact if_pos hview
  case plain =>
    intro o r v s hready hrow hkind haligned hwindow hring hvalue hservice hmask
    have hwritten : writeReg o v.toNat s = s.setAct o (v.toNat &&& r.mask) := by
      unfold writeReg
      rw [hrow]
      rcases hkind with h | h <;> simp [h, hservice]
    exact ⟨_, (exec_registerWrite_value hready haligned hwindow hring hvalue).trans (congrArg _ hwritten),
      State.act_setAct s o _ (masked_lt hmask), fun k hk => State.act_setAct_ne s _ hk, rfl⟩
  case readOnly =>
    intro o r v s hready hrow hkind haligned hwindow hring hvalue
    refine (exec_registerWrite_value hready haligned hwindow hring hvalue).trans (congrArg Host.Outcome.next ?_)
    unfold writeReg
    rw [hrow]
    simp [hkind]

/-! ### The commit protocol (19 R471 to R473) -/

/-- GO with no commit under way: checked, then refused or applied. -/
theorem commitGo_of_idle {b : Nat} {s : State} (hcommit : hasCommit b = true) (hready : (s.commitOf b).state ≠ 1) (happly : (s.commitOf b).state ≠ 2) :
    commitGo b s = match firstBad (blockChecks b s (s.withActive (s.changes b)) (s.changes b)) with
      | some k => s.modCommit b (fun c => { c with state := 4, overrun := false, reason := k.2.1.code, offset := offsetOf k.1 })
      | none =>
        let t := s.modCommit b (fun c => { c with state := 2, overrun := false, reason := 0, offset := 0, seq := c.seq + 1 })
        finishCommit b (applyBlock b { t with regs := { t.regs with pend := (s.changes b).foldl (fun m e => setN m e.1 e.2) s.regs.pend } }) := by
  unfold commitGo
  rw [if_neg (by simp [hcommit]), if_neg (by simp [hready, happly])]
  rfl

/-- Settles O45: GO by its state and its checks, DISCARD by `commitDiscard_eq`. -/
theorem commitProtocol : Obligations.CommitProtocol := by
  unfold Obligations.CommitProtocol
  refine ⟨?overrun, ?refused, ?applied, ?point, ?discard⟩
  case overrun =>
    intro b s hready hcommit hrun
    exact next_serve hready (commitGo_of_running hcommit hrun)
  case refused =>
    intro b k s hready hcommit hone htwo hbad
    refine ⟨_, next_serve hready ((commitGo_of_idle hcommit hone htwo).trans (by rw [hbad])), ?_⟩
    rw [State.commitOf_modCommit]
    exact ⟨rfl, rfl, rfl, rfl, fun r => ⟨rfl, rfl⟩, rfl⟩
  case applied =>
    intro b s hready hcommit hone htwo hgood
    exact next_serve hready ((commitGo_of_idle hcommit hone htwo).trans (by rw [hgood]))
  case point =>
    intro b s hready hstate
    exact next_serve hready (by simp [hstate])
  case discard =>
    intro b s hready hcommit
    refine ⟨commitDiscard b s, next_serve hready rfl, fun r hr => ?_, commitDiscard_act s hcommit, fun hne3 hne4 => ?_, fun hended => ?_,
      commitDiscard_frame s hcommit⟩
    · rw [commitDiscard_shadow s hcommit, if_pos hr]
    · rw [commitDiscard_eq s hcommit, if_neg (by simp [hne3, hne4])]
      rfl
    · rw [commitDiscard_state s hcommit, if_pos hended]

end Sys2Proof.Machine
end

section
/-! SUPPORT. The I3C target and the TAP (20 R489, R497 to R499). -/
namespace Sys2Proof.Machine
open Sys2Proof.Safety

/-- From STATUS 0x1 on the target answers. -/
theorem next_onI3c {s t : State} {g : State → State} (hon : s.boot.status ≠ 0) (h : g s = t) :
    (Host.Outcome.next (onI3c s g) : Answer) = .next t := congrArg Host.Outcome.next ((if_neg hon).trans h)

/-- A further read on the bus after a malformed frame. -/
theorem i3cAnswer_malformed {s : State} (h : s.i3c.malformed = true) : i3cAnswer s =
    { s.draw.2 with i3c := { s.draw.2.i3c with malformed := false, out := 0x02 :: leBytes 8 s.draw.1 } } := if_pos h

/-- A read on the bus of a held result. -/
theorem i3cAnswer_held {s : State} {st : Byte} {v : W64} (h : s.i3c.malformed = false) (hheld : s.i3c.result = some (st, v)) :
    i3cAnswer s = { s with i3c := { s.i3c with out := st :: leBytes 8 v.toNat } } := by
  unfold i3cAnswer
  rw [if_neg (by simp [h]), hheld]

theorem drawChallenge_i3c (s : State) : (drawChallenge s).i3c = s.i3c := by
  unfold drawChallenge
  split
  next r hdraw => rw [drbg_frame hdraw]
  · rfl

/-- A read of the window leaves the I3C target as it was. -/
theorem readWindow_i3c (o : Nat) (s : State) : (readWindow o s).2.i3c = s.i3c := by
  unfold readWindow
  split
  · rfl
  · split
    · unfold readChallenge
      dsimp only
      split
      · exact drawChallenge_i3c _
      · rfl
    · rfl

/-- Settles O56: each transfer by its guard. -/
theorem managementBusAndTap : Obligations.ManagementBusAndTap := by
  unfold Obligations.ManagementBusAndTap
  intro s
  refine ⟨fun hon => ⟨?entdaa, ?setdasa, next_onI3c hon rfl, ?getpid, next_onI3c hon rfl, next_onI3c hon rfl, ?status, fun e => next_onI3c hon rfl,
    ?write, ?badWrite, ?afterBad, ?read⟩, fun i => rfl⟩
  case entdaa =>
    intro a hnone hfactory
    obtain ⟨r, hr⟩ := Option.isSome_iff_exists.1 hfactory
    refine next_onI3c hon ?_
    rw [if_neg (by simp [hnone])]
    simp [provisionalId, hr]
  case setdasa =>
    intro a hnone
    exact next_onI3c hon (by simp [hnone, State.i3cStatic])
  case getpid =>
    intro r hr
    exact next_onI3c hon (by simp [provisionalId, hr, i3cReturns])
  case status => exact ⟨_, next_onI3c hon rfl, length_leBytes _ _, rfl⟩
  case write =>
    intro l hframe hopen
    refine next_onI3c hon ((if_neg (by simp [hframe])).trans (if_pos ?_))
    simpa [State.i3cOpen, State.ready] using hopen
  case badWrite =>
    intro l hframe
    exact next_onI3c hon (if_pos (by simp [hframe]))
  case afterBad =>
    intro hbad
    refine ⟨_, next_onI3c hon (i3cAnswer_malformed hbad), rfl, rfl⟩
  case read =>
    intro l hl hframe hopen hgood
    have hcommand : i3cCommand l s = { (readWindow (frameOffset l) s).2 with
        i3c := { (readWindow (frameOffset l) s).2.i3c with result := some (0x00, (readWindow (frameOffset l) s).1) } } := by
      unfold i3cCommand
      rw [if_neg (by simp [hframe]), if_pos hopen]
    refine next_onI3c hon ?_
    rw [if_neg (by simpa using hl), hcommand]
    exact i3cAnswer_held (by simpa [readWindow_i3c] using hgood) rfl

end Sys2Proof.Machine
end

section
/-! SUPPORT. Descriptors on a ring of the wrong kind (03 R70). -/
namespace Sys2Proof.Machine
open Sys2Proof.Safety

/-- A descriptor that names no session waits for none. -/
theorem inOrder_of_noSession {d : Desc} (s : State) (op : Nat) (h : noSession d = true) : s.inOrder op d = true := by
  have hsession : (d.session == 0) = true := by
    simp only [noSession, Bool.and_eq_true] at h
    exact h.2
  rw [State.inOrder, hsession, Bool.true_or]

theorem bodyReserved_of_zero {d : Desc} (h : d.body = List.replicate 48 0) (used : List (Nat × Nat)) : bodyReserved d used = true := by
  have hbyte : ∀ k, descByte d k = 0 := fun k => by
    rw [descByte, h, List.getD_eq_getElem?_getD, List.getElem?_replicate]
    split <;> rfl
  simp [bodyReserved, hbyte]

/-- A well-formed descriptor on a ring of the other kind is refused before its opcode is looked at. -/
theorem descriptor_wrongRing {op : Nat} {res ses : Bool} {d : Desc} {s : State} {body : State → Tried State} (hflags : flagsReserved d = true)
    (hnone : noSession d = true) (hfence : op ≠ opFence) (hres : res = true) (hring : ¬ (isManagementOp op = true ↔ s.ringOwner d.ring = mgmtPath)) :
    descriptor op res ses d body s = complete op d stNotOwner 0 [] (beginDesc op d s) := by
  have hkind : (isManagementOp op != decide ((beginDesc op d s).ringOwner d.ring = mgmtPath)) = true := by
    rw [beginDesc_ringOwner]
    by_cases hm : isManagementOp op = true <;> by_cases ho : s.ringOwner d.ring = mgmtPath <;> simp_all
  unfold descriptor descriptorAs
  rw [if_neg (by simp [inOrder_of_noSession s op hnone]), if_neg (by simp [hflags, hnone, hres]), if_pos (by rw [hkind, Bool.and_true]; simpa using hfence)]

/-- Settles O58: every row of the list passes the checks of its form and meets `descriptor_wrongRing`. -/
theorem wrongRingsAreRefused : Obligations.WrongRingsAreRefused := by
  unfold Obligations.WrongRingsAreRefused
  intro op row hrow d s hready hflags hnone hbody hring
  have hshort : descNum d 20 4 < 262144 := by
    rw [descNum, hbody]
    decide
  simp only [List.mem_cons, Prod.mk.injEq, List.not_mem_nil, or_false] at hrow
  rcases hrow with ⟨rfl, rfl⟩ | ⟨rfl, rfl⟩ | ⟨rfl, rfl⟩ | ⟨rfl, rfl⟩ | ⟨rfl, rfl⟩ | ⟨rfl, rfl⟩ | ⟨rfl, rfl⟩ | ⟨rfl, rfl⟩ | ⟨rfl, rfl⟩ | ⟨rfl, rfl⟩ | ⟨rfl, rfl⟩ <;>
    exact ⟨_, next_serve hready (descriptor_wrongRing hflags hnone (by decide) (by simp [bodyReserved_of_zero hbody, hshort]) hring)⟩

end Sys2Proof.Machine
end

section
/-! SUPPORT. The computing rows of a layer program (06): how an operation that runs is performed, and where its rows land. -/
namespace Sys2Proof.Machine
open Sys2Proof.Safety

/-! ### Operations that run -/

/-- An operation that runs and is no program fault is done. -/
theorem computeRow_runs {opcode : Nat} {sub : Option Nat} {body : OpWord → Ctx → State → Except Nat State} {n f : Nat} {op : OpWord} {s t : State}
    (h : Runs n op opcode sub f s) (hbody : body op ⟨f, n, false⟩ s = .ok t) : computeRow opcode sub body n op s = .next (advance n t) := by
  refine next_serve h.1 ((issue_runs h _).trans ?_)
  rw [compute, hbody]

/-- An operand that resolves is in a format it can have. -/
theorem fmtOk_of_operand {c : Ctx} {s : State} {op : OpWord} {lo n fmt a : Nat} (h : c.operand s op lo n fmt = .ok a) : fmtOk fmt n = .ok () := by
  rw [Ctx.operand] at h
  cases hf : fmtOk fmt n with
  | ok u => rfl
  | error e => rw [hf] at h; cases h

theorem vecLen_of_pos {op : OpWord} (h : 1 ≤ opLen op) : vecLen op = .ok (opLen op) := if_neg (by omega)

@[simp] theorem except_ok_bind {ε α β : Type} (a : α) (g : α → Except ε β) : (Except.ok a >>= g) = g a := rfl

/-! ### The vector unit (06 R171) -/

theorem vewBinary_row {row : Nat → OpWord → Instr} {opcode sub : Nat} {g : W32 → W32 → W32}
    (hrow : ∀ n op s, exec (row n op) s = computeRow opcode (some sub) (vewBinary g) n op s) : BinaryRow row opcode sub g := by
  intro n op f s a b d c hc hruns hlen ha hb hd
  subst hc
  rw [hrow]
  refine computeRow_runs hruns ?_
  rw [vewBinary, vecLen_of_pos hlen, except_ok_bind, ha, except_ok_bind, hb, except_ok_bind, fmtOk_of_operand hd, except_ok_bind, hd, except_ok_bind]

theorem vewUnary_row {row : Nat → OpWord → Instr} {opcode sub : Nat} {g : W32 → W32 → W32}
    (hrow : ∀ n op s, exec (row n op) s = computeRow opcode (some sub) (vewUnary g) n op s) : UnaryRow row opcode sub g := by
  intro n op f s a d c hc hruns hlen ha hd
  subst hc
  rw [hrow]
  refine computeRow_runs hruns ?_
  rw [vewUnary, vecLen_of_pos hlen, except_ok_bind, ha, except_ok_bind, hd, except_ok_bind]

theorem vredScalar_ok {g : List W32 → W32} {op : OpWord} {c : Ctx} {s : State} {a d : Nat} (hlen : 1 ≤ opLen op)
    (ha : c.operand s op 32 (opLen op) (opFa op) = .ok a) (hd : c.operand s op 76 1 0 = .ok d) :
    vredScalar g op c s = .ok (c.putRows d 64 (fun r =>
      (leBytes 4 (g (vecAt s a (opFa op) (opLen op) r).1).toNat, (vecAt s a (opFa op) (opLen op) r).2)) s) := by
  rw [vredScalar, vecLen_of_pos hlen, except_ok_bind, ha, except_ok_bind, hd, except_ok_bind]

theorem vredScalar_row {row : Nat → OpWord → Instr} {sub : Nat} {g : List W32 → W32}
    (hrow : ∀ n op s, exec (row n op) s = computeRow 0x21 (some sub) (vredScalar g) n op s) : ScalarRow row sub g := by
  intro n op f s a d c hc hruns hlen ha hd
  subst hc
  rw [hrow]
  exact computeRow_runs hruns (vredScalar_ok hlen ha hd)

/-- Settles O27: each row is one of the three forms. -/
theorem vectorRows : Obligations.VectorRows := by
  unfold Obligations.VectorRows
  exact ⟨vewBinary_row fun _ _ _ => rfl, vewBinary_row fun _ _ _ => rfl, vewBinary_row fun _ _ _ => rfl, vewBinary_row fun _ _ _ => rfl,
    vewBinary_row fun _ _ _ => rfl, vewUnary_row fun _ _ _ => rfl, vewUnary_row fun _ _ _ => rfl, vewUnary_row fun _ _ _ => rfl,
    vewUnary_row fun _ _ _ => rfl, vewUnary_row fun _ _ _ => rfl, vewUnary_row fun _ _ _ => rfl, vredScalar_row fun _ _ _ => rfl,
    vredScalar_row fun _ _ _ => rfl, vredScalar_row fun _ _ _ => rfl, vewUnary_row fun _ _ _ => rfl, vewUnary_row fun _ _ _ => rfl,
    vewUnary_row fun _ _ _ => rfl, vewBinary_row fun _ _ _ => rfl⟩

/-! ### Norms, rotation and routing (06 R168, R172, R173) -/

theorem ropeOp_row {row : Nat → OpWord → Instr} {sub : Nat} {adjacent : Bool}
    (hrow : ∀ n op s, exec (row n op) s = computeRow 0x24 (some sub) (ropeOp adjacent) n op s) : RopeRow row sub adjacent := by
  intro n op f s a d heads hd rot c hc hruns hheads hhd hrot hsome hmany hwidth heven hpair hfit ha hdest
  subst hc hheads hhd hrot
  have hform : (opBits op 63 54 = 0 || 256 < opBits op 63 54 || !([64, 96, 128, 192, 256].contains (opBits op 72 64)) || opBits op 106 98 % 2 = 1 ||
      opBits op 106 98 < 2 || opBits op 72 64 < opBits op 106 98 : Bool) = false := by
    simp only [Bool.or_eq_false_iff, decide_eq_false_iff_not, Bool.not_eq_false', List.contains_iff_mem]
    exact ⟨⟨⟨⟨⟨by omega, by omega⟩, hwidth⟩, by omega⟩, by omega⟩, by omega⟩
  rw [hrow]
  refine computeRow_runs hruns ?_
  rw [ropeOp, hform, if_neg Bool.false_ne_true]
  dsimp only
  rw [ha, except_ok_bind, hdest, except_ok_bind]

theorem routeOp_row {row : Nat → OpWord → Instr} {sub : Nat}
    (hrow : ∀ n op s, exec (row n op) s = computeRow 0x38 (some sub) (routeOp sub) n op s) : RouteRow row sub := by
  intro n op f s a d k e c hc hruns hk he hsome hmany hfit hexperts ha hd
  subst hc hk he
  rw [hrow]
  refine computeRow_runs hruns ?_
  rw [routeOp, if_neg (by simp; omega), ha, except_ok_bind, hd, except_ok_bind]

/-- The lowest index of the maximum of a row without a NaN. -/
theorem rowArgmax_of_numbers {l : List W32} (h : ∀ v ∈ l, fpIsNan v = false) :
    rowArgmax l = BitVec.ofNat 32 (l.findIdx (fun v => !fpLt v (rowMax l))) := if_neg (by simpa using h)

/-- Settles O28: every operation by the resolution of its operands. -/
theorem normRopeAndRouteRows : Obligations.NormRopeAndRouteRows := by
  unfold Obligations.NormRopeAndRouteRows
  refine ⟨?argmax, fun n op f s t hruns hbody => computeRow_runs hruns hbody, ?combine, ?rms, fun n op f s t hruns hbody => computeRow_runs hruns hbody,
    ?layer, ropeOp_row fun _ _ _ => rfl, ropeOp_row fun _ _ _ => rfl, routeOp_row fun _ _ _ => rfl, routeOp_row fun _ _ _ => rfl,
    routeOp_row fun _ _ _ => rfl⟩
  case argmax =>
    intro n op f s a d c hc hruns hlen ha hd hnumbers
    subst hc
    refine computeRow_runs hruns ((vredScalar_ok hlen ha hd).trans ?_)
    simp only [rowArgmax_of_numbers (hnumbers _)]
  case combine =>
    intro n op f s a d rt c hc hruns hroute hlen ha hd
    subst hc
    refine computeRow_runs hruns ?_
    rw [vredCombine, hroute]
    dsimp only
    rw [vecLen_of_pos hlen, except_ok_bind, ha, except_ok_bind, hd, except_ok_bind]
  case rms =>
    intro n op f s a d g c hc hruns hlen ha hg hd
    subst hc
    refine computeRow_runs hruns ?_
    rw [normRms, vecLen_of_pos hlen, except_ok_bind, ha, except_ok_bind, hg, except_ok_bind, hd, except_ok_bind]
  case layer =>
    intro n op f s a d g b c hc hruns hlen ha hg hb hd
    subst hc
    refine computeRow_runs hruns ?_
    rw [normLayer, vecLen_of_pos hlen, except_ok_bind, ha, except_ok_bind, hg, except_ok_bind, hb, except_ok_bind, hd, except_ok_bind]

/-! ### Where the rows land (06 R158, R166) -/

theorem putBytes_mem (a : Nat) (l : List Byte) (bad : Bool) (s : State) : (putBytes a l bad s).mem = memSetN s.mem a l := by
  unfold putBytes
  split <;> rfl
/-- `t` is `s` but for its memory and poison. -/
def MemoryOnly (s t : State) : Prop := t = { s with mem := t.mem, poison := t.poison }

theorem MemoryOnly.trans {s t u : State} (h : MemoryOnly s t) (k : MemoryOnly t u) : MemoryOnly s u := by
  cases s; cases t; cases u; simp_all [MemoryOnly]

theorem putBytes_memory (a : Nat) (l : List Byte) (bad : Bool) (s : State) : MemoryOnly s (putBytes a l bad s) := by
  unfold putBytes
  split <;> rfl

/-- The bytes of the numbered rows `l`, one row after another at its stride. -/
def putAll (base stride : Nat) (f : Nat → List Byte × Bool) (l : List Nat) (s : State) : State :=
  l.foldl (fun s r => putBytes (base + r * stride) (f r).1 (f r).2 s) s

theorem putRows_eq (c : Ctx) (base stride : Nat) (f : Nat → List Byte × Bool) (s : State) :
    c.putRows base stride f s = putAll base stride f (c.live s) s := by
  rw [Ctx.putRows, List.foldl_map]
  rfl

theorem putAll_memory (base stride : Nat) (f : Nat → List Byte × Bool) (l : List Nat) (s : State) : MemoryOnly s (putAll base stride f l s) := by
  induction l generalizing s with
  | nil => rfl
  | cons r l ih => exact (putBytes_memory _ _ _ s).trans (ih _)

theorem putAll_out {base stride : Nat} {f : Nat → List Byte × Bool} {l : List Nat} {a : Nat} (s : State)
    (h : ∀ r ∈ l, a < base + r * stride ∨ base + r * stride + (f r).1.length ≤ a) : memGet (putAll base stride f l s).mem a = memGet s.mem a := by
  induction l generalizing s with
  | nil => rfl
  | cons r l ih =>
    refine (ih _ fun q hq => h q (List.mem_cons_of_mem r hq)).trans ?_
    rw [putBytes_mem]
    exact memGet_memSetN_out _ _ _ _ (h r List.mem_cons_self)

/-- Rows no longer than the stride do not meet. -/
theorem rows_apart {base stride i j k m : Nat} (hij : i ≠ j) (hk : k < stride) (hm : m ≤ stride) :
    base + i * stride + k < base + j * stride ∨ base + j * stride + m ≤ base + i * stride + k := by
  rcases Nat.lt_or_gt_of_ne hij with h | h
  · have := Nat.mul_le_mul_right stride h
    rw [Nat.succ_mul] at this
    omega
  · have := Nat.mul_le_mul_right stride h
    rw [Nat.succ_mul] at this
    omega

theorem putAll_in {base stride : Nat} {f : Nat → List Byte × Bool} (hshort : ∀ r, (f r).1.length ≤ stride) {l : List Nat} (hdistinct : l.Nodup)
    {r : Nat} (hr : r ∈ l) {k : Nat} (hk : k < (f r).1.length) (s : State) :
    memGet (putAll base stride f l s).mem (base + r * stride + k) = (f r).1[k] := by
  induction l generalizing s with
  | nil => cases hr
  | cons q l ih =>
    obtain ⟨hq, hrest⟩ := List.nodup_cons.1 hdistinct
    rcases List.mem_cons.1 hr with rfl | hr
    · have hlater : ∀ p ∈ l, base + r * stride + k < base + p * stride ∨ base + p * stride + (f p).1.length ≤ base + r * stride + k := fun p hp =>
        rows_apart (fun h => hq (h ▸ hp)) (Nat.lt_of_lt_of_le hk (hshort r)) (hshort p)
      refine (putAll_out _ hlater).trans ?_
      rw [putBytes_mem]
      exact memGet_memSetN_in _ _ _ _ hk
    · exact ih hrest hr _

/-- Settles O31: the rows are put one after another, and no two meet. -/
theorem resultRowsLandInTheirRows : Obligations.ResultRowsLandInTheirRows := by
  unfold Obligations.ResultRowsLandInTheirRows
  intro c base stride f s t hshort ht
  have hlive : (c.live s).Nodup := List.nodup_range.filter _
  rw [ht, putRows_eq]
  exact ⟨fun r hr k hk => putAll_in hshort hlive hr hk s, fun a ha => putAll_out s ha, putAll_memory base stride f _ s⟩

/-! ### Operations left to the root, and reserved ones (06 R161, R163, R167) -/

/-- At a member that is not the root, an operation for the root alone is passed over. -/
theorem issue_rootOnly {opcode n f : Nat} {sub : Option Nat} {op : OpWord} {s : State} (go : Ctx → State → State) (hnext : s.nextOp n = some (f, op))
    (hvalid : opValid op = true) (hsub : sub.any (· != opSub op) = false) (hop : opBits op 7 0 = opcode) (hflag : bitOf op.toNat 8 = true)
    (hroot : s.isRoot f = false) : issue opcode sub n op go s = advance n s := by
  unfold issue
  rw [hnext]
  dsimp only
  rw [if_neg (by simp), if_neg (by simp [hvalid]), if_neg (by simp [hop, hsub]), if_pos (by simp [hflag, hroot])]

/-- An operation of no row is a program fault. -/
theorem issue_reserved {opcode n f : Nat} {sub : Option Nat} {op : OpWord} {s : State} (go : Ctx → State → State) (hnext : s.nextOp n = some (f, op))
    (hvalid : opValid op = false) : issue opcode sub n op go s = programFault f n 1 s := by
  unfold issue
  rw [hnext]
  dsimp only
  rw [if_neg (by simp), if_pos (by simp [hvalid])]

/-- A row of SUB 0, or of no SUB, at a member that is not the root, and under a reserved operation. -/
theorem issued_elsewhere {opcode n f : Nat} {sub : Option Nat} {op : OpWord} {s : State} {go : Ctx → State → State} (hready : s.ready = true)
    (hnext : s.nextOp n = some (f, op)) (hsub : sub = none ∨ sub = some 0) :
    (opValid op = true → opSub op = 0 → opBits op 7 0 = opcode → bitOf op.toNat 8 = true → s.isRoot f = false →
      (Host.Outcome.next (serve s (issue opcode sub n op go)) : Answer) = .next (advance n s)) ∧
    (opValid op = false → (Host.Outcome.next (serve s (issue opcode sub n op go)) : Answer) = .next (programFault f n 1 s)) := by
  refine ⟨fun hvalid hzero hop hflag hroot => next_serve hready (issue_rootOnly go hnext hvalid ?_ hop hflag hroot),
    fun hvalid => next_serve hready (issue_reserved go hnext hvalid)⟩
  rcases hsub with rfl | rfl <;> simp [hzero]

/-- Settles O32: every row of the list goes through `issue` with no SUB or with SUB 0. -/
theorem rootOnlyAndReservedOperations : Obligations.RootOnlyAndReservedOperations := by
  unfold Obligations.RootOnlyAndReservedOperations
  intro opcode row hrow n op f s hready hnext
  simp only [List.mem_cons, Prod.mk.injEq, List.not_mem_nil, or_false] at hrow
  rcases hrow with ⟨rfl, rfl⟩ | ⟨rfl, rfl⟩ | ⟨rfl, rfl⟩ | ⟨rfl, rfl⟩ | ⟨rfl, rfl⟩ | ⟨rfl, rfl⟩ | ⟨rfl, rfl⟩ | ⟨rfl, rfl⟩ | ⟨rfl, rfl⟩ |
    ⟨rfl, rfl⟩ | ⟨rfl, rfl⟩ | ⟨rfl, rfl⟩ | ⟨rfl, rfl⟩ | ⟨rfl, rfl⟩ | ⟨rfl, rfl⟩ | ⟨rfl, rfl⟩ <;>
    exact issued_elsewhere hready hnext (by simp)

end Sys2Proof.Machine
end

section
/-! SUPPORT. What the sending side of the fabric leaves as it was (13): everything but the fabric's own state and the counters. -/
namespace Sys2Proof.Machine
open Sys2Proof.Safety

/-- `t` is `s` but for the fabric and registers. -/
def SendsOnly (s t : State) : Prop := t = { s with fab := t.fab, regs := t.regs }

theorem SendsOnly.refl (s : State) : SendsOnly s s := rfl
theorem SendsOnly.trans {s t u : State} (h : SendsOnly s t) (k : SendsOnly t u) : SendsOnly s u := by
  cases s; cases t; cases u; simp_all [SendsOnly]
theorem SendsOnly.ite {s t u : State} {p : Prop} [Decidable p] (h : p → SendsOnly s t) (k : ¬ p → SendsOnly s u) : SendsOnly s (if p then t else u) := by
  by_cases hp : p
  · rw [if_pos hp]
    exact h hp
  · rw [if_neg hp]
    exact k hp
theorem SendsOnly.foldl {α : Type} {g : State → α → State} (hg : ∀ s a, SendsOnly s (g s a)) (l : List α) (s : State) : SendsOnly s (l.foldl g s) := by
  induction l generalizing s with
  | nil => exact .refl s
  | cons a l ih => exact (hg s a).trans (ih _)

theorem SendsOnly.sessions {s t : State} (h : SendsOnly s t) : t.sessions = s.sessions := by rw [h]
theorem SendsOnly.hostMem {s t : State} (h : SendsOnly s t) : t.hostMem = s.hostMem := by rw [h]
theorem SendsOnly.pens {s t : State} (h : SendsOnly s t) : t.pens = s.pens := by rw [h]
theorem SendsOnly.folds {s t : State} (h : SendsOnly s t) : t.folds = s.folds := by rw [h]
theorem SendsOnly.mem {s t : State} (h : SendsOnly s t) : t.mem = s.mem := by rw [h]
theorem SendsOnly.timer {s t : State} (h : SendsOnly s t) : t.timer = s.timer := by rw [h]

theorem count_sends (s : State) (k n : Nat) : SendsOnly s (s.count k n) := by
  unfold State.count
  split <;> rfl
theorem modPort_sends (p : Nat) (g : Port → Port) (s : State) : SendsOnly s (s.modPort p g) := rfl
theorem pushQueue_sends (o : Nat) (p : Packet) (s : State) : SendsOnly s (pushQueue o p s) := rfl
theorem enqueue_sends (i : Option Nat) (o : Nat) (p : Packet) (s : State) : SendsOnly s (enqueue i o p s) :=
  .ite (fun _ => pushQueue_sends o p s) (fun _ => rfl)
theorem forwardPacket_sends (i : Option Nat) (p : Packet) (s : State) : SendsOnly s (forwardPacket i p s) := by
  unfold forwardPacket
  split
  · exact enqueue_sends _ _ _ _
  · exact count_sends _ _ _
theorem emitPacket_sends (p : Packet) (s : State) : SendsOnly s (emitPacket p s) := forwardPacket_sends none p s
theorem transmit_sends (tag : Nat) (s : State) : SendsOnly s (transmit tag s) := by
  unfold transmit
  split
  · rfl
  · exact SendsOnly.trans (t := { s with fab := _ }) rfl (.foldl (fun s p => emitPacket_sends p s) _ _)
theorem releaseHeld_sends (s : State) : SendsOnly s (releaseHeld s) :=
  .foldl (fun s m => .ite (fun _ => transmit_sends m.1 s) (fun _ => .refl s)) _ s

/-- Issued or refused, a request touches nothing else. -/
theorem fabRequestWith_sends (bad : List Nat) (purpose : Purpose) (f : Option Nat) (desc : Option (Nat × Desc)) (p : Packet) (s : State) :
    (∀ t, fabRequestWith bad purpose f desc p s = .ok t → SendsOnly s t) ∧ (∀ e, fabRequestWith bad purpose f desc p s = .error e → SendsOnly s e.2) := by
  unfold fabRequestWith
  split
  · exact ⟨fun t h => by simp at h, fun e h => by obtain rfl := Except.error.inj h; exact count_sends s rFabLostOps 1⟩
  · split
    · exact ⟨fun t h => by simp at h, fun e h => by obtain rfl := Except.error.inj h; exact count_sends s rFabNoRoute 1⟩
    · refine ⟨fun t h => ?_, fun e h => by simp at h⟩
      obtain rfl := Except.ok.inj h
      exact .ite (fun _ => SendsOnly.trans (t := { s with fab := _ }) rfl (transmit_sends _ _)) (fun _ => rfl)

end Sys2Proof.Machine
end

section
/-! SUPPORT. The remote, copying and attending rows of a layer program (06 R168 to R178, 08 R214). -/
namespace Sys2Proof.Machine
open Sys2Proof.Safety

/-! ### A local NOTIFY of no rows (06 R177) -/

/-- Whether a value was found, and is `a`. -/
def okIs {ε α : Type} [DecidableEq α] (t : Except ε α) (a : α) : Bool := match t with
  | .ok b => decide (b = a)
  | .error _ => false

theorem eq_ok_of_okIs {ε α : Type} [DecidableEq α] {t : Except ε α} {a : α} (h : okIs t a = true) : t = .ok a := by
  cases t with
  | ok b => rw [of_decide_eq_true h]
  | error e => cases h

/-- A NOTIFY of a pass without rows only raises its counter. -/
theorem notifyOp_noRows {op : OpWord} {c : Ctx} {s : State} {a addr : Nat} (htarget : opBits op 68 67 = 2) (hlen : opLen op ≠ 0)
    (ha : c.operand s op 32 (opLen op) (opFa op) = .ok a) (hrows : c.rows s = []) (haddr : bindAddr s c.fold c.pen (opBits op 61 54) 0 = .ok addr) :
    notifyOp op c s = .ok (bumpCtr c.pen (opBits op 66 62) s) := by
  have htargets : s.targets c.fold 2 = [s.selfNo] := rfl
  unfold notifyOp
  dsimp only
  rw [htarget, if_neg (by decide), fmtOk_of_operand ha, except_ok_bind, ha, except_ok_bind, hrows, if_neg hlen]
  simp only [List.length_nil, Nat.zero_mul]
  rw [haddr, except_ok_bind, htargets]
  simp [badUnits, ceilDiv]
  rfl

/-- NOTIFY to the pen itself of one element a row, into the buffer its binding entry 0 names. -/
def notifySelf : OpWord := BitVec.ofNat 128 (0x41 + 2 * 2 ^ 67 + 2 ^ 98)

/-- An image of that one operation. -/
def notifyImage : Image :=
  { digest := [], members := 1, pensFor := 1, vocab := 1, modelWidth := 128, ffWidth := 128, cpt := 1, rowCap := 16, fixedSlots := 1
    groupSlots := 0, draftWays := 0, draftLayers := 0, draftCpt := 0, draftModel := false, layers := [], program := [notifySelf], draftProgram := []
    binding := [], constants := [], descriptors := [], payload := [], store := 2, ownSheets := [], understudySheets := [], hbmBase := 0 }

/-- A step without rows. -/
def emptyStep : Step :=
  { number := 1, attempt := 0, items := [], rows := [], limits := [], attn := none, proposals := [], verdicts := none
    abort := false, suspend := false, poisonedSeqs := [], quotaSeqs := [] }

/-- Pen 0 at that NOTIFY in such a step, over a memory whose cells are not in order: a write of no bytes puts them in order. -/
def unorderedState : State :=
  { State.reset with
    boot := { Boot.reset with status := 5 }, mem := [(slateAt 0 0, 1), (0, 1)]
    folds := [(0, { Fold.reset with status := 2, pens := 1, active := some 0, images := [(0, notifyImage)], step := some emptyStep, pinned := 96 })]
    pens := [(0, { Pen.reset with running := true, program := [notifySelf], binding := [some (slateAt 0 0)] })] }

theorem unorderedState_runs : Runs 0 notifySelf 0x41 none 0 unorderedState :=
  ⟨by decide +kernel, by decide +kernel, by decide +kernel, by decide +kernel, by simp, by decide +kernel⟩

/-- Refutes O30: a NOTIFY of a pass without rows writes nothing (06 R177), where the clause has a write of no bytes, which puts an unordered memory
list in order. -/
theorem not_layerControlRows : ¬ Obligations.LayerControlRows := by
  unfold Obligations.LayerControlRows
  rintro ⟨-, -, -, -, -, -, hnotify, -⟩
  have hoperand : (⟨0, 0, false⟩ : Ctx).operand unorderedState notifySelf 32 (opLen notifySelf) (opFa notifySelf) = .ok (slateAt 0 0) :=
    eq_ok_of_okIs (by decide +kernel)
  have hperformed : exec (.opNotify 0 notifySelf) unorderedState = .next (advance 0 (bumpCtr 0 (opBits notifySelf 66 62) unorderedState)) :=
    computeRow_runs unorderedState_runs (notifyOp_noRows (addr := slateAt 0 0) (by decide +kernel) (by decide +kernel) hoperand (by decide +kernel)
      (eq_ok_of_okIs (by decide +kernel)))
  have hclaimed := hnotify 0 notifySelf 0 (slateAt 0 0) 0 0 unorderedState ⟨0, 0, false⟩ rfl unorderedState_runs (by decide +kernel) (by decide +kernel)
    hoperand (by decide +kernel) (by decide) (by decide +kernel) (by decide) (by decide +kernel)
  have hmem := congrArg State.mem (Host.Outcome.next.inj (hperformed.symm.trans hclaimed))
  exact absurd hmem (by decide +kernel)

/-! ### MMA, COPY and LOGITS (06 R168, R169) -/

theorem mmaOp_ok {op : OpWord} {c : Ctx} {s : State} {a w d : Nat} (hplain : bitOf op.toNat 10 = false) (hfa : fmtBits (opFa op) ≠ 0)
    (hfb : fmtBits (opFb op) ≠ 0) (hfd : opFd op ≤ 1) (hkt : 1 ≤ opBits op 107 98) (hnt : 1 ≤ opBits op 117 108) (hacc : opBits op 119 118 ≤ 1)
    (hpair : pairing (opFa op) (opFb op) = true) (ha : c.operand s op 32 (opBits op 107 98 * tileDepth (opFb op)) (opFa op) = .ok a)
    (hw : c.oa s (opBits op 75 54) (opBits op 107 98 * opBits op 117 108 * 34816) = .ok w)
    (hd : c.operand s op 76 (opBits op 117 108 * 128) (opFd op) = .ok d) :
    mmaOp op c s = .ok (c.putVals op d (opFd op) (opBits op 117 108 * 128) (fun r =>
      let old := if opBits op 119 118 = 1 then vecAt s d (opFd op) (opBits op 117 108 * 128) r else ([], false)
      let x := mmaRow s (opFa op) (opFb op) (opBits op 107 98) (opBits op 117 108)
        (a + r * rowStride (opFa op) (opBits op 107 98 * tileDepth (opFb op))) w old.1
      (x.1, x.2 || old.2)) s) := by
  unfold mmaOp
  dsimp only
  rw [if_neg (by simp [hfa, hfb]; omega), if_neg (by simp [hpair]), ha, except_ok_bind, if_neg (by simp [hplain]), hw, except_ok_bind, hd,
    except_ok_bind]

theorem copyOp_ok {op : OpWord} {c : Ctx} {s : State} {a d : Nat} (hlen : opLen op % 64 = 0)
    (ha : c.oa s (opBits op 53 32) ((c.rows s).length * opLen op) = .ok a) (hd : c.oa s (opBits op 97 76) ((c.rows s).length * opLen op) = .ok d) :
    copyOp op c s = .ok (c.putRows d (opLen op) (fun r => (s.read (a + r * opLen op) (opLen op), s.poisoned (a + r * opLen op) (opLen op))) s) := by
  unfold copyOp
  dsimp only
  rw [if_neg (by simp [hlen]), ha, except_ok_bind, hd, except_ok_bind]

theorem logitsOp_ok {op : OpWord} {c : Ctx} {s : State} {a : Nat} (hlen : 1 ≤ opLen op) (ha : c.operand s op 32 (opLen op) 0 = .ok a)
    (halone : ∀ o ∈ otherSlices op c s, slicesMeet op o = false) :
    logitsOp op c s = .ok (sendSlices c (opBits op 71 54) a (opLen op) ((c.live s).foldl (fun u r =>
      c.modRow r (Row.putSlice (s.vocab c.fold) (opBits op 71 54) (vecAt u a 0 (opLen op) r).2 (vecAt u a 0 (opLen op) r).1) u) s)) := by
  unfold logitsOp
  rw [vecLen_of_pos hlen, except_ok_bind, ha, except_ok_bind]
  exact if_neg (by simpa using halone)

/-! ### GATHER (06 R168): reads of a calm fold touch its sheets' ages alone -/

/-- `u` is `s` but for the sheets of fold `f`, all above T3, and the memory; nothing is poisoned. -/
def Touched (f : Nat) (s u : State) : Prop :=
  u = { s with folds := u.folds, mem := u.mem, poison := [] } ∧ ∃ sheets, u.fold f = { s.fold f with sheets := sheets } ∧ ∀ p ∈ sheets, p.2.tier < 3

theorem touched_of_calm {f : Nat} {s : State} (h : Calm f s) : Touched f s s := by
  obtain ⟨hsheets, -, hpoison⟩ := h
  exact ⟨by rw [← hpoison], _, rfl, fun p hp => (hsheets p hp).1⟩

/-- An entry of a map is one of its pairs. -/
theorem mem_of_getN {α : Type} {m : NMap α} {k : Nat} {v : α} (h : getN m k = some v) : (k, v) ∈ m := by
  induction m with
  | nil => cases h
  | cons p m ih =>
    obtain ⟨i, w⟩ := p
    by_cases hik : i = k
    · simp only [getN, if_pos hik, Option.some.injEq] at h
      rw [hik, h]
      exact List.mem_cons_self
    · simp only [getN, if_neg hik] at h
      exact List.mem_cons_of_mem _ (ih h)

theorem tier_of_sheet {x : Fold} (h : ∀ p ∈ x.sheets, p.2.tier < 3) (i : Nat) : (x.sheet i).tier ≠ 3 ∧ (x.sheet i).tier ≠ 4 := by
  unfold Fold.sheet getND
  cases he : getN x.sheets i with
  | none => exact ⟨by decide, by decide⟩
  | some e =>
    have hlow : e.tier < 3 := h (i, e) (mem_of_getN he)
    exact ⟨by simp; omega, by simp; omega⟩

/-- Sheet `i` with its age renewed. -/
def renewed (f i : Nat) (u : State) : State := u.modFold f (fun x => { x with sheets := modN x.sheets i (fun e => { e with lastAccess := u.now }) })

theorem renewed_touched {f : Nat} {s u : State} (h : Touched f s u) (i : Nat) : Touched f s (renewed f i u) := by
  obtain ⟨hu, sheets, hfold, htier⟩ := h
  refine ⟨by rw [hu]; rfl, modN sheets i (fun e => { e with lastAccess := u.now }), ?_, fun p hp => ?_⟩
  · rw [renewed, State.fold_modFold, hfold]
  · obtain ⟨q, hq, rfl⟩ := List.mem_map.1 hp
    have := htier q hq
    split <;> exact this

/-- A sheet of T0 to T2 is only renewed by an access. -/
theorem touchSheet_touched {f : Nat} {s u : State} (h : Touched f s u) (i : Nat) : touchSheet f i u = .ok (renewed f i u) := by
  obtain ⟨-, sheets, hfold, htier⟩ := h
  have hout := tier_of_sheet (x := u.fold f) (by rw [hfold]; exact htier) i
  unfold touchSheet
  dsimp only
  rw [if_neg (by simp [hout.1, hout.2]), andThen_ok]
  rfl

theorem touchSheets_touched {f : Nat} {s : State} (l : List Nat) {u : State} (h : Touched f s u) :
    ∃ t, l.foldl (fun t i => andThen t (touchSheet f i)) (.ok u) = .ok t ∧ Touched f s t := by
  induction l generalizing u with
  | nil => exact ⟨u, rfl, h⟩
  | cons i l ih =>
    rw [List.foldl_cons, andThen_ok, touchSheet_touched h]
    exact ih (renewed_touched h i)

/-- Where an access of the fold goes does not depend on its sheets. -/
theorem place_touched {f : Nat} {s u : State} (h : Touched f s u) (a n : Nat) : u.place f a n 0 = s.place f a n 0 := by
  obtain ⟨hu, sheets, hfold, -⟩ := h
  have hpin : u.pinnedOk f a n = s.pinnedOk f a n := by
    unfold State.pinnedOk
    rw [hfold]
    rfl
  have hlow : u.winBase f = s.winBase f := by rw [hu]; rfl
  have hhigh : u.winLimit f = s.winLimit f := by rw [hu]; rfl
  have hhost : u.hostPhys f a n 0 = s.hostPhys f a n 0 := by rw [hu]; rfl
  unfold State.place
  rw [hpin, hlow, hhigh, hhost]

/-- A read of a calm fold where it may go. -/
theorem readLocal_touched {f : Nat} {s u : State} (h : Touched f s u) {a n : Nat} {w : Place} (hplace : s.place f a n 0 = .ok w) :
    ∃ l t, readLocal f a n u = .ok (l, t) ∧ Touched f s t := by
  unfold readLocal
  rw [place_touched h, hplace]
  cases w with
  | host p => exact ⟨_, u, rfl, h⟩
  | cell b =>
    dsimp only
    split
    · obtain ⟨t, ht, htouched⟩ := touchSheets_touched (spanSheets u f b n) h
      rw [ht]
      exact ⟨_, t, rfl, htouched⟩
    · exact ⟨_, u, rfl, h⟩

theorem putBytes_touched {f : Nat} {s u : State} (h : Touched f s u) (a b n : Nat) (l : List Byte) :
    Touched f s (putBytes a l (u.poisoned b n) u) := by
  obtain ⟨hu, hfold⟩ := h
  have hclean : u.poison = [] := by rw [hu]
  have hgood : u.poisoned b n = false := by rw [State.poisoned, hclean, List.any_nil]
  have hput : putBytes a l (u.poisoned b n) u = { u with mem := memSetN u.mem a l, poison := [] } := by
    rw [putBytes, hgood]
    simp [State.write, State.clearPoison, hclean]
  rw [hput]
  exact ⟨by rw [hu], hfold⟩

/-- The rows of a pass do not depend on the fold's sheets. -/
theorem rows_touched {s u : State} {c : Ctx} (h : Touched c.fold s u) : c.rows u = c.rows s := by
  obtain ⟨hu, sheets, hfold, -⟩ := h
  have hpen : u.pen c.pen = s.pen c.pen := by rw [hu]; rfl
  have himage : u.activeImage c.fold = s.activeImage c.fold := by
    unfold State.activeImage State.image
    rw [hfold]
  unfold Ctx.rows State.stepRows State.rowCap
  rw [hpen, himage, hfold]

/-- One row of a GATHER. -/
def gatherRow (c : Ctx) (b d n : Nat) (s : State) (r : Nat) : Except Nat State :=
  match readLocal c.fold (b + ((c.rows s)[r]?).elim 0 (·.token) * n) n s with
  | .ok l => .ok (putBytes (d + r * n) l.1 (l.2.poisoned (b + ((c.rows s)[r]?).elim 0 (·.token) * n) n) l.2)
  | .error e => if e.1 = stPoison then .ok (putBytes (d + r * n) (zerosB n) true e.2) else .error 3

theorem gatherRows_touched {c : Ctx} {b d n : Nat} {s : State} (l : List Nat)
    (hplace : ∀ r ∈ l, ∃ w, s.place c.fold (b + ((c.rows s)[r]?).elim 0 (·.token) * n) n 0 = .ok w) {u : State} (h : Touched c.fold s u) :
    ∃ t, l.foldlM (gatherRow c b d n) u = .ok t ∧ Touched c.fold s t := by
  induction l generalizing u with
  | nil => exact ⟨u, rfl, h⟩
  | cons r l ih =>
    obtain ⟨w, hw⟩ := hplace r List.mem_cons_self
    obtain ⟨bytes, t, hread, ht⟩ := readLocal_touched h hw
    rw [List.foldlM_cons, gatherRow, rows_touched h, hread, except_ok_bind]
    exact ih (fun q hq => hplace q (List.mem_cons_of_mem r hq)) (putBytes_touched ht _ _ _ _)

/-! ### ATTN (08 R214) -/

/-- An ATTN that every pen of the fold stands at. -/
theorem exec_opAttn_together {n f k : Nat} {op : OpWord} {s t : State} (hruns : Runs n op 0x30 none f s)
    (hhere : ∀ m ∈ (s.fold f).penList, (s.pen m).running = true ∧ (s.pen m).bar = none ∧ (s.pen m).pass = (s.pen n).pass ∧
      (s.pen m).opIndex = (s.pen n).opIndex) (hstart : attnStart f false op s = .ok (k, t)) :
    exec (.opAttn n op) s = .next (if k = 0 then (s.fold f).penList.foldl (fun s m => advance m s) t
      else t.modFold f (fun x => { x with step := x.step.map (fun st => { st with attn := some ⟨op, k, []⟩ }) })) := by
  refine next_serve hruns.1 ((issue_runs hruns _).trans ?_)
  dsimp only
  rw [if_neg (by simp only [Bool.not_eq_true', Bool.not_eq_false, List.all_eq_true]; intro m hm; simp [hhere m hm]), hstart]
  cases k with
  | zero => rfl
  | succ k => rfl

/-- Settles O29: each operation by the resolution of its operands; ATTN where the fold's pens meet. -/
theorem matrixCopyAndAttentionRows : Obligations.MatrixCopyAndAttentionRows := by
  unfold Obligations.MatrixCopyAndAttentionRows
  refine ⟨?mma, fun n op f s t hruns hbody => computeRow_runs hruns hbody, fun n op f s t hruns hbody => computeRow_runs hruns hbody, ?gather, ?copy,
    ?logits, fun n op f k s t hruns hhere hstart => exec_opAttn_together hruns hhere hstart, ?attn⟩
  case mma =>
    intro n op f s a w d kt nt c hc hruns hkt hnt hplain hfa hfb hfd hkt1 hnt1 hacc hpair ha hw hd
    subst hc hkt hnt
    exact computeRow_runs hruns (mmaOp_ok hplain hfa hfb hfd hkt1 hnt1 hacc hpair ha hw hd)
  case gather =>
    intro n op f b d s c hc hruns hlen hb hd hcalm hrows
    subst hc
    obtain ⟨t, ht, htouched, -⟩ := gatherRows_touched (c := ⟨f, n, false⟩) (b := b) (d := d) (n := opLen op) ((⟨f, n, false⟩ : Ctx).live s) (fun r hr => (hrows r hr _ rfl).1) (touched_of_calm hcalm)
    refine ⟨t, computeRow_runs hruns ?_, by rw [htouched], by rw [htouched], by rw [htouched]⟩
    unfold gatherOp
    dsimp only
    rw [if_neg (by simp [hlen]), hb, except_ok_bind, hd, except_ok_bind]
    exact ht
  case copy =>
    intro n op f s a d c hc hruns hlen ha hd
    subst hc
    exact computeRow_runs hruns (copyOp_ok hlen ha hd)
  case logits =>
    intro n op f s a c hc hruns hlen ha halone
    subst hc
    exact computeRow_runs hruns (logitsOp_ok hlen ha halone)
  case attn =>
    intro n op f g s c hc hruns hhere hargs halone
    subst hc
    have hstart : attnStart f false op s =
        .ok (0, attnFinish ⟨f, s.lowPen f, false⟩ g [] (attnReady ⟨f, s.lowPen f, false⟩ g (attnWrite ⟨f, s.lowPen f, false⟩ g s))) := by
      rw [attnStart, hargs, except_ok_bind]
      exact if_pos halone
    exact (exec_opAttn_together hruns hhere hstart).trans (congrArg _ (if_pos rfl))

end Sys2Proof.Machine
end

section
/-! SUPPORT. The fabric: what is done with packets and requests (13). -/
namespace Sys2Proof.Machine
open Sys2Proof.Safety

/-! ### Requests at their target (13 R339 to R349) -/

/-- A request whose turn it is, is performed off the inbox. -/
theorem next_request {op : Nat} {p : Packet} {s t : State} {go : State → State} (h : Delivered op p s) (hgo : go (taken p s) = t) :
    (Host.Outcome.next (request op p go s) : Answer) = .next t := by
  obtain ⟨hready, htype, hop, hturn⟩ := h
  refine next_serve hready ((if_neg ?_).trans hgo)
  simp [htype, hop, hturn]

/-- The same of a request that is no message of the drove. -/
theorem next_request_orHeed {op : Nat} {p : Packet} {s t : State} {go : State → State} (h : Delivered op p s) (hmail : s.mailFold p = none)
    (hgo : go (taken p s) = t) : (Host.Outcome.next (request op p (orHeed p go) s) : Answer) = .next t := by
  refine next_request h ?_
  have hnone : (taken p s).mailFold p = none := hmail
  rw [orHeed, hnone]
  exact hgo

/-- The record of a session at its home. -/
theorem homeRecord_ok {p : Packet} {y : Sess} {s : State} (hlow : p.addr < 0x300000000000)
    (hend : p.addr + (if p.op = fabOpCas then 8 else p.len) ≤ 512) (hy : s.sess p.session = some y) (hhome : y.isHome = true) :
    homeRecord s p = .ok y := by
  unfold homeRecord
  rw [if_neg (by simp [ownerOnly]; omega), if_neg (Nat.not_lt.mpr hend), hy]
  exact if_pos hhome

/-- Settles O33: an arrival by its port, DST and hops; an operation by its checks. -/
theorem fabricTransportReadsAndWrites : Obligations.FabricTransportReadsAndWrites := by
  unfold Obligations.FabricTransportReadsAndWrites
  refine ⟨?arrival, ?readRecord, ?read, ?write, ?writeRecord, ?fence⟩
  case arrival =>
    intro port p s hready hup
    refine next_serve hready ((if_neg (by simp [hup])).trans ?_)
    simp only [beq_iff_eq]
  case readRecord =>
    intro p y s hdel hrecord hend hy hhome
    have hnocas : p.op ≠ fabOpCas := by rw [hdel.2.2.1]; decide
    refine next_request hdel ((if_pos hrecord).trans ?_)
    rw [homeRecord_ok (s := taken p s) (by omega) (by rw [if_neg hnocas]; exact hend) hy hhome]
  case read =>
    intro p f r s hdel hmem hcheck hlen hread
    refine next_request hdel ((if_neg (by simp [hmem])).trans ?_)
    rw [hcheck]
    dsimp only
    rw [if_neg hlen, hread]
    rfl
  case write =>
    intro p f s t hdel hmail hmem hcheck hput
    refine next_request_orHeed hdel hmail ((if_neg (by simp [hmem])).trans ?_)
    rw [hcheck]
    dsimp only
    rw [hput]
  case writeRecord =>
    intro p y new s t hdel hmail hrecord hend hy hhome hepoch hholder hnew ht
    subst hnew ht
    have hnocas : p.op ≠ fabOpCas := by rw [hdel.2.2.1]; decide
    refine next_request_orHeed hdel hmail ((if_pos hrecord).trans ?_)
    unfold recordWrite
    rw [homeRecord_ok (s := taken p s) (by omega) (by rw [if_neg hnocas]; exact hend) hy hhome]
    dsimp only
    rw [if_neg (by simp [hepoch]), if_neg (by simp [hholder])]
  case fence =>
    intro p f s hdel hmem hordered hcheck
    refine next_request hdel ((if_neg (by simp [hmem, hordered])).trans ?_)
    rw [hcheck]

/-! ### Atomics, ACC and NOTIFY (13 R344 to R347) -/

/-- An atomic that changes its word. -/
theorem atomicWord_writes {p : Packet} {new : Nat → Nat} {s t : State} {f : Nat} {r : List Byte × State} (haligned : p.addr % 8 = 0)
    (hcheck : requestCheck s p = .ok f) (hread : readLocal f p.addr 8 s = .ok r) (hnew : new (ofLe r.1) ≠ ofLe r.1)
    (hwrite : requestWrite f p.session p.addr (leBytes 8 (new (ofLe r.1) % 2 ^ 64)) r.2 = .ok t) :
    atomicWord p new s = respond p stOk r.1 (badUnits r.2 (p.addr / 64 * 64) 64) t := by
  unfold atomicWord
  rw [if_neg (by simp [haligned]), hcheck]
  dsimp only
  rw [hread]
  dsimp only
  rw [if_neg hnew, hwrite]

/-- One that leaves it. -/
theorem atomicWord_keeps {p : Packet} {new : Nat → Nat} {s : State} {f : Nat} {r : List Byte × State} (haligned : p.addr % 8 = 0)
    (hcheck : requestCheck s p = .ok f) (hread : readLocal f p.addr 8 s = .ok r) (hnew : new (ofLe r.1) = ofLe r.1) :
    atomicWord p new s = respond p stOk r.1 (badUnits r.2 (p.addr / 64 * 64) 64) r.2 := by
  unfold atomicWord
  rw [if_neg (by simp [haligned]), hcheck]
  dsimp only
  rw [hread]
  dsimp only
  rw [if_pos hnew]

/-- A word in a slate or in the commons is read and written where it lies. -/
theorem readLocal_pinned {f a n : Nat} {s : State} (hhigh : 0x380000000000 ≤ a) (hplace : s.place f a n 0 = .ok (.cell a)) :
    readLocal f a n s = .ok (s.read a n, s) := by
  unfold readLocal
  rw [hplace]
  exact if_neg (by omega)

theorem requestWrite_pinned {f a : Nat} {x : W64} {l : List Byte} {s : State} (hhigh : 0x380000000000 ≤ a)
    (hplace : s.place f a l.length 0 = .ok (.cell a)) : requestWrite f x a l s = .ok (s.write a l) := by
  have hlow : decide (a < 0x300000000000) = false := decide_eq_false (by omega)
  unfold requestWrite
  dsimp only
  rw [hlow, Bool.false_and, if_neg Bool.false_ne_true, List.isEmpty_nil, if_pos rfl, writeLocal, hplace]
  exact if_neg (by omega)

/-- A contribution finds room where it is next or the hold buffer has some. -/
theorem accArrive_taken {f n : Nat} {p : Packet} {s : State} (h : accNext s f n p = true ∨ (s.pen n).hold.length < 128) :
    ∃ t, accArrive f n p s = some t := by
  unfold accArrive
  split
  · exact ⟨_, rfl⟩
  next hnext =>
    have hroom := Nat.lt_of_le_of_lt (List.length_filter_le (fun q : Packet => q.src != s.selfNo) _) (h.resolve_left hnext)
    rw [if_pos (by simp [hroom])]
    exact ⟨_, rfl⟩

/-- Settles O34: each operation by its checks; the root's broadcast without a poisoned unit. -/
theorem fabricAtomicsAndReductions : Obligations.FabricAtomicsAndReductions := by
  unfold Obligations.FabricAtomicsAndReductions
  refine ⟨?fadd, ?faddPinned, ?casSwaps, ?casKeeps, ?casLease, ?aread, ?acc, ?notify, ?rootNotify⟩
  case fadd =>
    intro p f r s t hdel hmem hordered hlen haligned harg hcheck hread hwrite
    have harg : p.oparg.toNat ≠ 0 := fun h => harg (BitVec.eq_of_toNat_eq h)
    refine next_request hdel ((if_neg (by simp [hmem, hordered, hlen])).trans ?_)
    exact atomicWord_writes haligned hcheck hread (by omega) hwrite
  case faddPinned =>
    intro p f s hdel hmem hordered hlen haligned harg hcheck hhigh hplace
    have harg : p.oparg.toNat ≠ 0 := fun h => harg (BitVec.eq_of_toNat_eq h)
    refine next_request hdel ((if_neg (by simp [hmem, hordered, hlen])).trans ?_)
    have hwrite := requestWrite_pinned (x := p.session) (l := leBytes 8 ((ofLe ((taken p s).read p.addr 8) + p.oparg.toNat) % 2 ^ 64)) hhigh
      (by rw [length_leBytes]; exact hplace)
    have hmarks : badUnits (taken p s) (p.addr / 64 * 64) 64 = badUnits s (p.addr / 64 * 64) 64 := rfl
    rw [atomicWord_writes (new := fun v => v + p.oparg.toNat) haligned hcheck (readLocal_pinned hhigh hplace) (by omega) hwrite, hmarks]
  case casSwaps =>
    intro p f r s t hdel hmem hordered haligned hcheck hread hold hnew hwrite
    refine next_request hdel ((if_neg (by simp [hordered])).trans ((if_neg (by simp [hmem])).trans ?_))
    exact atomicWord_writes haligned hcheck hread (by rw [if_pos hold, hold]; exact hnew) (by rw [if_pos hold]; exact hwrite)
  case casKeeps =>
    intro p f r s hdel hmem hordered haligned hcheck hread hold
    refine next_request hdel ((if_neg (by simp [hordered])).trans ((if_neg (by simp [hmem])).trans ?_))
    exact atomicWord_keeps haligned hcheck hread (if_neg hold)
  case casLease =>
    intro p y s hdel hrecord hordered haddr hy hhome hepoch hstate
    refine next_request hdel ((if_neg (by simp [hordered])).trans ((if_pos hrecord).trans ?_))
    unfold recordCas
    rw [if_pos haddr, homeRecord_ok (s := taken p s) (by omega) (by rw [if_pos hdel.2.2.1]; omega) hy hhome]
    dsimp only
    rw [if_neg (by simp [hepoch]), if_neg (by simp [hstate])]
  case aread =>
    intro p f y l s t hdel hmem hgather hcheck hy hmay
    refine next_request hdel ((if_neg (by simp [hmem])).trans ?_)
    rw [hgather]
    dsimp only
    rw [hcheck, hy]
    dsimp only
    rw [if_neg (by simp [hmay])]
  case acc =>
    intro p f n k s hdel hmem hordered hn hcheck hbuffer hpen hattempt hroom
    obtain ⟨t, ht⟩ := accArrive_taken (s := taken p s) hroom
    subst hn
    refine ⟨t, ht, next_request hdel ((if_neg (by simp [hmem, hordered])).trans ?_)⟩
    have hnamed : (taken p s).penNamed f (bitsOf p.oparg.toNat 46 41) = some k := hpen
    have hround : accAttempt p = ((taken p s).fold f).attempts % 8 := hattempt
    rw [hcheck]
    dsimp only
    rw [hbuffer, if_pos rfl, hnamed]
    dsimp only
    rw [if_neg (by simp [hround]), ht]
  case notify =>
    intro p f k s t hdel hmail hmem hordered hcheck hpen hroot hput
    have hnamed : (taken p s).penNamed f (bitsOf p.oparg.toNat 13 8) = some k := hpen
    have hplain : (taken p s).rootNotify f p = false := hroot
    refine next_request_orHeed hdel hmail ((if_neg (by simp [hmem, hordered])).trans ?_)
    rw [hcheck]
    dsimp only
    rw [hnamed]
    dsimp only
    rw [hplain, if_neg Bool.false_ne_true, hput]
  case rootNotify =>
    intro p f k l data w s t u hdel hmail hmem hordered hcheck hpen hroot hgather hword hwrite hgood
    have hnamed : (taken p s).penNamed f (bitsOf p.oparg.toNat 13 8) = some k := hpen
    have hbroadcast : (taken p s).rootNotify f p = true := hroot
    have hbad : l.flatMap (fun q => (bitsSet 64 q.pmask.toNat).map (q.frag * 64 + ·)) = [] := by
      refine List.flatMap_eq_nil_iff.2 fun q hq => ?_
      rw [hgood q hq]
      rfl
    refine next_request_orHeed hdel hmail ((if_neg (by simp [hmem, hordered])).trans ?_)
    rw [hcheck]
    dsimp only
    rw [hnamed]
    dsimp only
    rw [hbroadcast, if_pos rfl, rootNotifyArrives, hgather]
    dsimp only
    rw [hword]
    dsimp only
    rw [hwrite]
    dsimp only
    rw [hbad]
    rfl

end Sys2Proof.Machine
end

section
/-! SUPPORT. The fabric's source side and its ports (13 R332 to R363). -/
namespace Sys2Proof.Machine
open Sys2Proof.Safety

/-! ### NACKs, retries, loss (13 R350 to R356) -/

/-- A retry of a message that was sent, by its route and its times. -/
theorem exec_fabRetryExpiry {tag : W32} {m : OutMsg} {s t : State} (hready : s.ready = true) (hout : getN s.fab.outstanding tag.toNat = some m)
    (hsent : m.sent = true)
    (h : (if (s.route m.packet).isNone = true then finishRequest tag.toNat stPeerLost [] [] (s.count rFabNoRoute 1)
      else if s.now < m.lastSent + s.retryTime then s
      else if m.firstSent + s.e2eLimit ≤ s.now then
        if s.fab.lost.contains m.packet.dst then finishRequest tag.toNat stPeerLost [] [] s else declareLost m.packet.dst 0 s
      else (fragmentsWith m.bad m.packet).foldl (fun s p => emitPacket p s)
        { s with fab := { s.fab with outstanding := setN s.fab.outstanding tag.toNat { m with lastSent := s.now } } }) = t) :
    exec (.fabRetryExpiry tag) s = .next t := by
  refine next_serve hready ?_
  rw [hout]
  cases m
  subst hsent
  simpa using h

/-- A request to a device that is not lost and has a route is issued. -/
theorem fabRequest_issued {purpose : Purpose} {f : Option Nat} {desc : Option (Nat × Desc)} {p : Packet} {s : State} (hlost : p.dst ∉ s.fab.lost)
    (hroute : (s.route p).isSome = true) : ∃ t, fabRequest purpose f desc p s = .ok t := by
  unfold fabRequest fabRequestWith
  rw [if_neg (by simpa using hlost), if_neg (by simpa [Option.isSome_iff_ne_none] using hroute)]
  exact ⟨_, rfl⟩

/-- Settles O36: a NACK resends what the list of outstanding messages holds; the others by their times. -/
theorem fabricAnswersRetriesAndLoss : Obligations.FabricAnswersRetriesAndLoss := by
  unfold Obligations.FabricAnswersRetriesAndLoss
  refine ⟨?nack, ?retry, ?limit, ?probe, ?silence, ?clear, ?noRoute⟩
  case nack =>
    intro p m s hready htype hout hsent hordered hdst hahead
    refine next_serve hready ((if_neg (by simp [htype])).trans ?_)
    have hmine : s.fab.outstanding.filter (fun m => m.2.sent && !m.2.packet.unordered && m.2.packet.dst == p.src) = [(m.packet.tag.toNat, m)] := by
      simp [hout, hsent, hordered, hdst]
    have hall : (fragmentsWith m.bad m.packet).filter (fun q => decide (seqAhead q.oseq p.oseq < 32768)) = fragmentsWith m.bad m.packet :=
      List.filter_eq_self.2 fun q hq => decide_eq_true (hahead q hq)
    dsimp only
    rw [hmine, List.flatMap_singleton, hall]
    rfl
  case retry =>
    intro tag m s hready hout hsent hroute hdue hyoung
    refine exec_fabRetryExpiry hready hout hsent ?_
    rw [if_neg (by simpa [Option.isSome_iff_ne_none] using hroute), if_neg (by omega), if_neg (by omega)]
  case limit =>
    intro tag m s hready hout hsent hroute hdue hold hlost
    refine exec_fabRetryExpiry hready hout hsent ?_
    rw [if_neg (by simpa [Option.isSome_iff_ne_none] using hroute), if_neg (by omega), if_pos hold, if_neg (by simpa using hlost)]
  case probe =>
    intro d s t hready hwatched hlost hheard hprobed ht hroute
    subst ht
    obtain ⟨u, hu⟩ := fabRequest_issued (purpose := .probe) (f := none) (desc := none) hlost hroute
    refine ⟨u, hu, next_serve hready ((if_neg (by simp [hwatched, hlost, hheard, hprobed])).trans ?_)⟩
    dsimp only
    rw [if_neg (by simp [hasN, hheard]), hu]
  case silence =>
    intro d since s hready hwatched hheard hsilent
    exact next_serve hready (by simp [hwatched, hheard, hsilent])
  case clear =>
    intro d s hready
    exact ⟨clearLost d s, next_serve hready rfl, by simp [clearLost], fun e he => by simp [clearLost, he], rfl⟩
  case noRoute =>
    intro tag m s hready hout hsent hroute
    exact exec_fabRetryExpiry hready hout hsent (if_pos (by simp [hroute]))

/-! ### Training and replay (13 R332, R335) -/

/-- A port as its training leaves it, by width, neighbour and revision. -/
theorem trained_outcomes {now self : Nat} {t : PortTrain} {x y : Port} (hy : y = trained now self t x) :
    (portWidth t.lanes = 0 → y.state = 1 ∧ y.cause = 1 ∧ y.trainedAt = some now) ∧
    (portWidth t.lanes ≠ 0 → t.device = self → y.state = 3 ∧ y.cause = 3) ∧
    (portWidth t.lanes ≠ 0 → t.device ≠ self → min fabRev t.rev < max fabMinRev t.minRev → y.state = 3 ∧ y.cause = 2) ∧
    (portWidth t.lanes ≠ 0 → t.device ≠ self → max fabMinRev t.minRev ≤ min fabRev t.rev →
      y.state = 2 ∧ y.width = portWidth t.lanes ∧ y.nrev = min fabRev t.rev ∧ y.neighbour = t.device ∧ y.queues = x.queues ∧ y.credits = t.credits) := by
  subst hy
  unfold trained
  dsimp only
  refine ⟨fun hw => ?_, fun hw hself => ?_, fun hw hother hrev => ?_, fun hw hother hrev => ?_⟩
  · rw [if_pos hw]
    exact ⟨rfl, rfl, rfl⟩
  · rw [if_neg hw, if_pos hself]
    exact ⟨rfl, rfl⟩
  · rw [if_neg hw, if_neg hother, if_pos hrev]
    exact ⟨rfl, rfl⟩
  · rw [if_neg hw, if_neg hother, if_neg (Nat.not_lt.mpr hrev)]
    exact ⟨rfl, rfl, rfl, rfl, rfl, rfl⟩

/-- A refused flit of a port as it is counted. -/
def portNakCounted (p : Nat) (s : State) : State := errorCorrected none 5 p 0 1 (s.draw.2.count (rFabPortReplay p) (1 + s.draw.1 % 1024))

theorem portNakCounted_errors (p : Nat) (s : State) : ErrorsOnly s.draw.2 (portNakCounted p s) :=
  (count_errors s.draw.2 _ _).trans (errorCorrected_errors none 5 p 0 1 _)

/-- Errors counted before or after the ports' own change. -/
theorem errorsOnly_modPort {s t u : State} (p : Nat) (g : Port → Port) (h : ErrorsOnly s.draw.2 t) (k : ErrorsOnly t u) :
    ErrorsOnly { s with fab := (u.modPort p g).fab, freeCount := (u.modPort p g).freeCount } (u.modPort p g) ∧
    (u.modPort p g).port p = g (s.port p) := by
  have hu := h.trans k
  refine ⟨?_, ?_⟩
  · unfold ErrorsOnly
    rw [hu]
    rfl
  · rw [State.port_modPort]
    have hport : u.port p = s.port p := by
      rw [hu]
      rfl
    rw [hport]

/-- A NAK at a port that is up, by the number of failed replays it makes. -/
theorem exec_portFlitNak {p : Nat} {again : Bool} {s : State} (hready : s.ready = true) (hp : p < 18) (hup : (s.port p).state = 2) :
    exec (.portFlitNak p again) s = .next (if 8 ≤ (if again = true then (s.port p).failedReplays + 1 else 0)
      then ((portNakCounted p s).count (rFabPortRetrain p) 1).modPort p (fun x => { x with state := 1, failedReplays := 0, width := 0 })
      else (portNakCounted p s).modPort p (fun x =>
        { x with failedReplays := if again = true then (s.port p).failedReplays + 1 else 0 })) :=
  next_serve hready (if_neg (by simp [hp, hup]))

/-- A NAK that is not the eighth failed replay of its flit leaves the port up. -/
theorem exec_portFlitNak_replays {p : Nat} {again : Bool} {s : State} (hready : s.ready = true) (hp : p < 18) (hup : (s.port p).state = 2)
    (hfew : (if again = true then (s.port p).failedReplays + 1 else 0) < 8) :
    ∃ t, exec (.portFlitNak p again) s = .next t ∧ (t.port p).failedReplays = (if again = true then (s.port p).failedReplays + 1 else 0) ∧
      (t.port p).state = 2 ∧ ErrorsOnly { s with fab := t.fab, freeCount := t.freeCount } t := by
  obtain ⟨herrors, hport⟩ := errorsOnly_modPort p (fun x => { x with failedReplays := if again = true then (s.port p).failedReplays + 1 else 0 })
    (portNakCounted_errors p s) (u := portNakCounted p s) rfl
  refine ⟨_, (exec_portFlitNak hready hp hup).trans (congrArg _ (if_neg (Nat.not_le.mpr hfew))), ?_, ?_, herrors⟩
  · rw [hport]
  · rw [hport]
    exact hup

/-! ### Egress selection (13 R357 to R359) -/

theorem find?_hasCredit {x : Port} {q : Nat} {e : Packet × Nat} (h : x.nextIn q = some e) : 0 < x.credits.getD (packetChannel e.1) 0 := by
  have hcredit := List.find?_some h
  simpa [Port.hasCredit] using hcredit

/-- A packet has one of the four virtual channels. -/
theorem packetChannel_lt (p : Packet) : packetChannel p < 4 := by
  unfold packetChannel
  split
  · decide
  · split
    · decide
    · split <;> decide

/-- An entry of the four channels' numbers. -/
theorem getD_channels (g : Nat → Nat) {v : Nat} (hv : v < 4) : ((List.range 4).map g).getD v 0 = g v := by
  rw [List.getD_eq_getElem?_getD, List.getElem?_map, List.getElem?_range hv]
  rfl

theorem tagHeads_credits (s : State) (p : Nat) (y : Port) (returned : List Nat) :
    (tagHeads s p (y.giveCredits returned)).credits = (List.range 4).map (fun v => y.credits.getD v 0 + returned.getD v 0) := rfl
theorem start_credits (now q : Nat) (e : Packet × Nat) (x : Port) :
    (x.start now q e).credits = (List.range 4).map (fun u => x.credits.getD u 0 - (if u = packetChannel e.1 then 1 else 0)) := rfl

/-- The credits of the channel whose packet starts are one less than the port has with those returned. -/
theorem start_takes_credit {now q v p : Nat} {e : Packet × Nat} {s : State} {returned : List Nat} {y : Port} (hv : v = packetChannel e.1)
    (he : (tagHeads s p (y.giveCredits returned)).nextIn q = some e) :
    ((tagHeads s p (y.giveCredits returned)).start now q e).credits.getD v 0 + 1 = y.credits.getD v 0 + returned.getD v 0 := by
  subst hv
  have hlt := packetChannel_lt e.1
  have hhas := find?_hasCredit he
  rw [tagHeads_credits, getD_channels _ hlt] at hhas
  rw [start_credits, getD_channels _ hlt, if_pos rfl, tagHeads_credits, getD_channels _ hlt]
  omega

/-- The selection at a port that is up, where a queue has an eligible packet. -/
theorem exec_egressSelect {p q : Nat} {returned : List Nat} {x : Port} {e : Packet × Nat} {s : State} (hready : s.ready = true) (hp : p < 18)
    (hup : (s.port p).state = 2) (hx : x = tagHeads s p ((s.port p).giveCredits returned)) (hq : minOn (fun q => getND x.head q 0) x.ready = some q)
    (he : x.nextIn q = some e) :
    exec (.egressSelect ⟨p, returned⟩) s = .next (pullWithheld p q (s.modPort p (fun _ => x.start s.now q e))) := by
  subst hx
  refine next_serve hready ((if_neg (by simp [hp, hup])).trans ?_)
  dsimp only
  rw [hq, Option.bind_some, he]
  rfl

/-- Settles O37: training by its outcome, a NAK by the replays it makes, the selection by what it starts and what then moves in. -/
theorem portsTrainReplayAndSelect : Obligations.PortsTrainReplayAndSelect := by
  unfold Obligations.PortsTrainReplayAndSelect
  refine ⟨?trains, ?again, fun now self t x y hy => trained_outcomes hy, ?first, ?more, ?eighth, ?down, ?starts, ?movesIn, ?none, ?marks⟩
  case trains =>
    intro p t s hready hmay hdown hnew
    exact next_serve hready (by simp [hmay, hdown, hnew])
  case again =>
    intro p since t s hready hmay hstate hsince hdue
    exact next_serve hready (by simp [hmay, hstate, hsince, hdue])
  case first =>
    intro p s hready hp hup
    exact exec_portFlitNak_replays hready hp hup (by simp)
  case more =>
    intro p s hready hp hup hfew
    exact exec_portFlitNak_replays hready hp hup (by simp; omega)
  case eighth =>
    intro p s hready hp hup hmany
    obtain ⟨herrors, hport⟩ := errorsOnly_modPort p (fun x => { x with state := 1, failedReplays := 0, width := 0 }) (portNakCounted_errors p s)
      (count_errors _ (rFabPortRetrain p) 1)
    refine ⟨_, (exec_portFlitNak hready hp hup).trans (congrArg _ (if_pos (by simp; omega))), ?_, ?_, ?_, herrors⟩
    · rw [hport]
    · rw [hport]
    · rw [hport]
  case down =>
    intro p s hready hp hup
    exact next_serve hready (by simp [hp, hup])
  case starts =>
    intro p q v returned x e s hready hp hup hx hq he hv halone
    have hnone : s.fab.withheld.find? (fun w => w.out == p && w.packet.queue == q) = none :=
      List.find?_eq_none.2 fun w hw => by simpa [Decidable.or_iff_not_imp_left] using halone w hw
    have hpull : pullWithheld p q (s.modPort p (fun _ => x.start s.now q e)) = s.modPort p (fun _ => x.start s.now q e) := by
      have hsame : (s.modPort p (fun _ => x.start s.now q e)).fab.withheld = s.fab.withheld := rfl
      rw [pullWithheld, hsame, hnone]
    refine ⟨_, (exec_egressSelect hready hp hup hx hq he).trans (congrArg _ hpull), ?_, ?_, ?_, ?_, ?_, fun r hr => State.port_modPort_ne s _ hr, rfl⟩
    · rw [State.port_modPort]
      rfl
    · rw [State.port_modPort]
      exact getND_setN_self _ _ _ _
    · rw [State.port_modPort]
      rfl
    · rw [State.port_modPort]
      simp [Port.start, hasN]
    · rw [State.port_modPort]
      subst hx
      exact start_takes_credit hv he
  case movesIn =>
    intro p q returned x e w s hready hp hup hx hq he hw
    have hqueue : w.packet.queue = q := by
      have := List.find?_some hw
      simp only [Bool.and_eq_true, beq_iff_eq] at this
      exact this.2
    have hpull : pullWithheld p q (s.modPort p (fun _ => x.start s.now q e)) = pushQueue p w.packet
        { s.modPort p (fun _ => x.start s.now q e) with fab := { (s.modPort p (fun _ => x.start s.now q e)).fab with
          withheld := dropFirst w s.fab.withheld } } := by
      have hsame : (s.modPort p (fun _ => x.start s.now q e)).fab.withheld = s.fab.withheld := rfl
      rw [pullWithheld, hsame, hw]
    refine ⟨_, (exec_egressSelect hready hp hup hx hq he).trans (congrArg _ hpull), ?_, rfl, ?_, fun r hr => ?_, rfl⟩
    · rw [pushQueue, State.port_modPort]
      change ((s.modPort p (fun _ => x.start s.now q e)).port p).wire = _
      rw [State.port_modPort]
      rfl
    · rw [pushQueue, State.port_modPort, hqueue]
      change getND (setN _ q (getND ((s.modPort p (fun _ => x.start s.now q e)).port p).queues q [] ++ [(w.packet, s.now)])) q [] = _
      rw [getND_setN_self, State.port_modPort]
      change getND (setN _ q _) q [] ++ _ = _
      rw [getND_setN_self]
    · rw [pushQueue, State.port_modPort_ne _ _ hr]
      exact State.port_modPort_ne s (fun _ => x.start s.now q e) hr
  case none =>
    intro p returned x s hready hp hup hx hnone
    subst hx
    refine next_serve hready ((if_neg (by simp [hp, hup])).trans ?_)
    dsimp only
    rw [hnone]
    rfl
  case marks =>
    intro p queues s hready hp
    refine ⟨clearPortMarks p queues s, next_serve hready (by simp [hp]), fun q hq => ?_, fun r hr => State.port_modPort_ne s _ hr, rfl⟩
    rw [clearPortMarks, State.port_modPort]
    exact ⟨(getN_filter_key _ (fun k => !queues.toNat.testBit k) q).trans (if_neg (by simp [hq])),
      (getN_filter_key _ (fun k => !queues.toNat.testBit k) q).trans (if_neg (by simp [hq]))⟩

end Sys2Proof.Machine
end

section
/-! SUPPORT. A key of a map, and a fold, changed twice. -/
namespace Sys2Proof.Machine

/-- The value that a key is given last is the one it has. -/
@[simp] theorem setN_setN_self {α : Type} (m : NMap α) (k : Nat) (v w : α) : setN (setN m k v) k w = setN m k w := by
  induction m with
  | nil => simp [setN]
  | cons p t ih =>
    obtain ⟨i, u⟩ := p
    rcases Nat.lt_trichotomy i k with h | h | h
    · simp [setN, ih, show ¬ k < i by omega, show k ≠ i by omega]
    · simp [setN, h]
    · simp [setN, h]

/-- Two changes of one fold are one. -/
theorem modFold_modFold (s : State) (f : Nat) (g h : Fold → Fold) : (s.modFold f g).modFold f h = s.modFold f (fun x => h (g x)) := by
  simp [State.modFold, State.setFold, State.fold]

end Sys2Proof.Machine
end

section
/-! SUPPORT. Migrations of sheets: start, commit, failure and release (02 R43 to R49). -/
namespace Sys2Proof.Machine
open Sys2Proof.Safety

/-! ### What a changed fold, and a form read back, leave -/

theorem quotaMoveOver_modFold {s : State} {f i : Nat} {g : Fold → Fold} (hout : (g (s.fold f)).quotaOut = (s.fold f).quotaOut)
    (huse : ∀ t, (g (s.fold f)).use t = (s.fold f).use t) (hquota : ∀ t, (s.modFold f g).quota f t = s.quota f t) :
    quotaMoveOver (s.modFold f g) f i = quotaMoveOver s f i := by
  simp only [quotaMoveOver, State.fold_modFold, hout, huse, hquota]

/-- The fold with its requests replaced: its sheets, quota, image and members are the same. -/
def Fold.withRequests (r : List (Nat × Nat)) (x : Fold) : Fold := { x with requests := r }

theorem quota_requests (s : State) (f t : Nat) (r : List (Nat × Nat)) :
    (s.modFold f (Fold.withRequests r)).quota f t = s.quota f t := by
  simp only [State.quota, State.fold_modFold]
  rfl

theorem kvPen_requests (s : State) (f i : Nat) (r : List (Nat × Nat)) :
    (s.modFold f (Fold.withRequests r)).kvPen f i = s.kvPen f i := by
  simp only [State.kvPen, State.kvMembers, State.fold_modFold]
  rfl

theorem quotaMoveOver_requests (s : State) (f i : Nat) (r : List (Nat × Nat)) :
    quotaMoveOver (s.modFold f (Fold.withRequests r)) f i = quotaMoveOver s f i :=
  quotaMoveOver_modFold (g := Fold.withRequests r) rfl (fun _ => rfl) (fun t => quota_requests s f t r)

/-- Reading a form back changes memory alone. -/
theorem readBack_memory {f i : Nat} {s v : State} (h : readBack f i s = some v) : ∃ m, v = { s with mem := m } := by
  unfold readBack at h
  dsimp only at h
  split at h
  · split at h
    · simp at h
    · obtain ⟨c, -, hc⟩ := Option.map_eq_some_iff.mp h
      exact ⟨_, hc.symm⟩
  · split at h
    · simp at h
    · exact ⟨s.mem, (Option.some.inj h).symm⟩

/-! ### Start (02 R43 steps 1 to 4) -/

/-- The migration that a start enters. -/
def startedMig (s : State) (f i tier : Nat) : Mig :=
  { phase := 2, target := tier, targetPen := s.kvPen f i, writes := 0, newLoc := 0, oldTier := ((s.fold f).sheet i).tier
    oldLoc := ((s.fold f).sheet i).loc, len := 1024 }

/-- The fold whose only request, for sheet `i`, has started. -/
def Fold.withStarted (m : Mig) (i : Nat) (x : Fold) : Fold :=
  { x with requests := [], sheets := modN x.sheets i (fun e => { e with migrating := true }), migs := setN x.migs i m }

theorem exec_migrationStart {f i tier : Nat} {s : State} (hready : s.ready = true) (hreq : (s.fold f).requests = [(i, tier)])
    (hmigrating : ((s.fold f).sheet i).migrating = false) (hmig : hasN (s.fold f).migs i = false) (hbacked : (s.fold f).backed i = true)
    (htier : ((s.fold f).sheet i).tier ≠ tier) (hwet : ((s.fold f).sheet i).wet = false)
    (hclean : 3 ≤ tier → s.sheetPoisoned f i = false) (hquota : quotaMoveOver s f i = false) :
    exec (.migrationStart f i) s = .next (s.modFold f (Fold.withStarted (startedMig s f i tier) i)) := by
  refine next_serve hready ?_
  have hfind : (s.fold f).requests.find? (fun r => r.1 == i) = some (i, tier) := by simp [hreq]
  have hdrop : s.modFold f (fun x => { x with requests := dropFirst (i, tier) x.requests }) = s.modFold f (Fold.withRequests []) := by
    simp [State.modFold, Fold.withRequests, hreq, dropFirst]
  have hclean' : ¬ (decide (3 ≤ tier) && s.sheetPoisoned f i) = true := by
    intro h
    rw [Bool.and_eq_true, decide_eq_true_iff] at h
    simp [hclean h.1] at h
  have hpoisoned : (s.modFold f (Fold.withRequests [])).sheetPoisoned f i = s.sheetPoisoned f i := rfl
  have hstays : (Fold.withRequests [] (s.fold f)).backed i = true := hbacked
  rw [hfind]
  dsimp only
  rw [hdrop, if_neg (by simp [hmigrating, hmig]), quotaMoveOver_requests, if_neg (by simp [hquota]), State.fold_modFold, kvPen_requests,
    hpoisoned, if_neg (by simp [htier, hwet, hstays]), if_neg hclean', modFold_modFold]
  rfl

/-! ### Commit (02 R43 steps 5 and 6, R45, R49) -/

theorem commitMig_chosen {f i loc : Nat} {m : Mig} {v u : State} (htarget : m.target ≠ 3) (hquota : quotaMoveOver v f i = false)
    (hroom : v.room f m.target ≠ 0) (hloc : chooseLoc f m.target m.targetPen v = some (loc, u)) :
    commitMig f i m v = (commitMove f i m.target loc (u.lenIn f m.target ((u.fold f).sheet i) (u.read (u.sheetOffset f i) 65536)) u).modFold f
      (fun x => { x with migs := setN x.migs i { m with phase := 7 }, quotaOut := delN x.quotaOut i }) := by
  unfold commitMig
  dsimp only
  rw [if_neg (by simp [htarget]), if_neg (by simp [hquota]), if_neg (by simp [hroom]), if_neg htarget, hloc]

theorem commitMig_durable {f i : Nat} {m : Mig} {v : State} (hphase : m.phase = 5) (htarget : m.target = 3)
    (hdurable : (v.fold f).ns.writes.any (fun o => o.index == some i) = false) (hquota : quotaMoveOver v f i = false) (hroom : v.room f 3 ≠ 0) :
    commitMig f i m v = (commitMove f i 3 m.newLoc m.len v).modFold f
      (fun x => { x with migs := setN x.migs i { m with phase := 7 }, quotaOut := delN x.quotaOut i }) := by
  unfold commitMig
  dsimp only
  rw [htarget, if_neg (by simp [hphase, hdurable]), if_neg (by simp [hquota]), if_neg (by simp [hroom]), if_pos rfl]

/-- Settles O44: each clause is the branch of its row that the migration's phase, target and outcome lead to. -/
theorem migratingSheets : Obligations.MigratingSheets := by
  unfold Obligations.MigratingSheets
  refine ⟨?start, ?commit, ?durable, ?unreadable, ?readOnly, ?release, ?releaseSlot⟩
  case start =>
    intro f i tier s hready hreq hmigrating hmig hbacked htier hwet hclean hquota
    refine ⟨_, exec_migrationStart hready hreq hmigrating hmig hbacked htier hwet hclean hquota, ?_⟩
    obtain ⟨e, he⟩ : ∃ e, getN (s.fold f).sheets i = some e := Option.isSome_iff_exists.mp hbacked
    simp [Fold.withStarted, startedMig, Fold.sheet, getND, he]
    rfl
  case commit =>
    intro f i loc m s v u hready hm hphase htarget hback hquota hroom hloc
    refine next_serve hready ?_
    rw [hm]
    dsimp only
    rw [if_neg hphase, hback]
    obtain ⟨mem, rfl⟩ := readBack_memory hback
    exact commitMig_chosen htarget hquota hroom hloc
  case durable =>
    intro f i m s v hready hm hphase htarget hdurable hback hquota hroom
    refine next_serve hready ?_
    rw [hm]
    dsimp only
    rw [if_neg (by omega), hback]
    obtain ⟨mem, rfl⟩ := readBack_memory hback
    exact commitMig_durable hphase htarget hdurable hquota hroom
  case unreadable =>
    intro f i m s hready hm hphase hold
    refine ⟨next_serve hready ?_, fun hback => next_serve hready ?_⟩
    · rw [hm]
      dsimp only
      rw [if_neg hphase, if_pos (by simpa using hold)]
    · rw [hm]
      dsimp only
      rw [if_neg hphase, hback]
  case readOnly =>
    intro f i m s hready hm hphase htarget
    refine next_serve hready ?_
    rw [hm]
    dsimp only
    rw [if_neg hphase, if_pos htarget]
  case release =>
    intro f i m s hready hm hphase hold
    refine next_serve hready ?_
    unfold releaseMig
    rw [hm]
    dsimp only
    rw [if_neg (by simp [hphase]), if_neg hold]
  case releaseSlot =>
    intro f i m s hready hm hphase hold
    refine next_serve hready ?_
    unfold releaseMig
    rw [hm]
    dsimp only
    rw [if_neg (by simp [hphase]), if_pos hold]

end Sys2Proof.Machine
end

section
/-! SUPPORT. Cold start, warm reset, its resume, and the self-test report (16 R415 to R430). -/
namespace Sys2Proof.Machine
open Sys2Proof.Safety

/-! ### Namespaces whose units are fenced (16 R420) -/

theorem postHealth_storage (f c : Nat) (s : State) : StorageOnly s (postHealth f c s) := postFold_storage _ _ _ _ _ _

theorem enterReadOnly_storage (f : Nat) (s : State) : StorageOnly s (enterReadOnly f s) :=
  (postHealth_storage f 16 _).after ((count_storage _ _ _).after (modFold_storage _ _ _))

theorem judgeHealth_storage (f : Nat) (s : State) : StorageOnly s (judgeHealth f s) :=
  StorageOnly.ite (modNs_storage _ _ _) ((postHealth_storage _ _ _).after (modNs_storage _ _ _))

theorem retireBlock_storage (f b u c : Nat) (s : State) : StorageOnly s (retireBlock f b u c s) := by
  unfold retireBlock
  refine StorageOnly.ite (StorageOnly.refl s) (StorageOnly.ite (modNs_storage _ _ _) ((judgeHealth_storage f _).after ?_))
  exact StorageOnly.ite ((enterReadOnly_storage f _).after (modNs_storage _ _ _)) (modNs_storage _ _ _)

theorem retireFenced_storage (f : Nat) (s : State) : StorageOnly s (retireFenced f s) :=
  StorageOnly.foldl (fun s u => StorageOnly.foldl (fun s k => retireBlock_storage f k u 4 s) _ s) _ s

/-! ### The cold start (16 Table 16-1) -/

/-- Boot with every part that self-test found, at step 17. -/
def Boot.withParts (b : BootInputs) (x : Boot) : Boot :=
  { x with status := 4, factory := b.factory, firmware := b.firmware, chipEnables := (List.range 16).map b.present
           chipEnablesFenced := (List.range 16).map b.cesFenced, report := some 0 }

theorem partsReady_boot (b : BootInputs) (s : State) :
    (partsReady b s).boot = s.boot.withParts b ∧ (partsReady b s).sec = s.sec ∧ (partsReady b s).link = s.link := by
  unfold partsReady
  extract_lets boot power s₁ s₂
  have h : StorageOnly s₁ (List.foldl (fun s f => retireFenced f s) s₂ (keysN s₂.folds)) :=
    (StorageOnly.foldl (fun s f => setAct_storage s (rSessWriteCompat f) b.firmware.fmtMin) _ s₁).trans
      (StorageOnly.foldl (fun s f => retireFenced_storage f s) _ _)
  exact ⟨h.boot, h.sec, h.link⟩

/-- With no failure found, the cold start ends with the link's first training. -/
theorem coldStart_good {b : BootInputs} {s : State} (hhot : b.comparatorHot = false) (htest : b.testCode = none) (hboot : b.bootCode = none) :
    ∃ t, coldStart b s = trainLink b.linkLanes t ∧ t.sec.ak = true ∧ t.boot.status = 4 ∧ t.boot.faultN = s.boot.faultN ∧
      t.boot.fenceLink = b.linkFences ∧ t.boot.strap = b.strap % 64 := by
  unfold coldStart
  extract_lets boot s₁
  simp only [hhot, htest, hboot, Bool.false_eq_true, if_false]
  obtain ⟨hparts, hsec, -⟩ := partsReady_boot b (secReady b (secLoading b (recordTest b s₁)))
  refine ⟨_, rfl, ?_, ?_, ?_, ?_, ?_⟩
  · rw [hsec]
    rfl
  all_goals
    rw [hparts]
    rfl

theorem bitOf_mod_64 (n : Nat) : bitOf (n % 64) 4 = bitOf n 4 := by
  rw [bitOf, bitOf, show (64 : Nat) = 2 ^ 6 from rfl, Nat.testBit_mod_two_pow]
  simp

/-- With no group fenced and the wide strapping, every lane may train. -/
theorem usableLanes_all {x : Boot} {n : Nat} (lanes : Byte) (hfence : x.fenceLink = 0) (hstrap : x.strap = n % 64) (hwide : bitOf n 4 = false) :
    x.usableLanes lanes = lanes := by
  unfold Boot.usableLanes
  rw [hfence, hstrap, bitOf_mod_64, hwide]
  have hgroups : ((if bitOf 0 0 = true then 0 else 0x0F) ||| (if (bitOf 0 1 || false) = true then 0 else 0xF0) : Byte) = BitVec.allOnes 8 := by decide
  rw [hgroups, BitVec.and_allOnes]

theorem coldReset_ready {b : BootInputs} {s : State} (hhot : b.comparatorHot = false) (htest : b.testCode = none) (hboot : b.bootCode = none)
    (hfences : b.linkFences = 0) (hstrap : bitOf b.strap 4 = false) (hlanes : linkWidth b.linkLanes = (8, 0)) :
    ∃ t, exec (.coldReset b) s = .next t ∧ t.boot.status = 5 ∧ t.link.up = true ∧ t.link.width = 8 ∧ t.sec.ak = true ∧ t.boot.faultN = true := by
  obtain ⟨t, ht, hak, hstatus, hfault, hgroup, hwide⟩ := coldStart_good (s := coldState s) hhot htest hboot
  have husable := usableLanes_all b.linkLanes (hgroup.trans hfences) hwide hstrap
  refine ⟨_, rfl, ?_⟩
  rw [ht]
  unfold trainLink
  rw [husable, hlanes]
  simp [hstatus, hak, hfault]
  rfl

/-! ### What a warm reset finishes and gives up first (16 R426, 19 R476) -/

/-- Boot and the local timer are as they were. -/
def SameClock (s t : State) : Prop := t.boot = s.boot ∧ t.timer = s.timer

theorem SameClock.refl (s : State) : SameClock s s := ⟨rfl, rfl⟩
theorem SameClock.trans {s t u : State} (h : SameClock s t) (k : SameClock t u) : SameClock s u := ⟨k.1.trans h.1, k.2.trans h.2⟩
theorem SameClock.after {s t u : State} (k : SameClock t u) (h : SameClock s t) : SameClock s u := h.trans k
theorem StorageOnly.clock {s t : State} (h : StorageOnly s t) : SameClock s t := ⟨h.boot, h.timer⟩

theorem SameClock.foldl {α : Type} {g : State → α → State} (hg : ∀ s a, SameClock s (g s a)) (l : List α) (s : State) : SameClock s (l.foldl g s) := by
  induction l generalizing s with
  | nil => exact .refl s
  | cons a l ih => exact (hg s a).trans (ih _)

theorem settleSys_storage (f : Nat) (s : State) : StorageOnly s (settleSys f s) := StorageOnly.ite (applyPend_storage _ s) (StorageOnly.refl s)

theorem drawFirstKey_clock {f : Nat} {s t : State} (h : drawFirstKey f s = some t) : SameClock s t := by
  unfold drawFirstKey at h
  split at h
  · rw [← Option.some.inj h]
    exact .refl s
  · obtain ⟨r, hr, ht⟩ := Option.map_eq_some_iff.mp h
    unfold drbg at hr
    split at hr
    · simp at hr
    · rw [← ht, ← Option.some.inj hr]
      exact .refl s

theorem formFold_clock (f : Nat) (s : State) : SameClock s (formFold f s) := by
  unfold formFold
  split
  · exact .refl s
  · split
    · exact .refl s
    · rename_i hkey
      exact (drawFirstKey_clock hkey).trans ((settleSys_storage f _).after (modFold_storage _ _ _)).clock

theorem addResources_storage (f : Nat) (s : State) : StorageOnly s (addResources f s) :=
  StorageOnly.ite (StorageOnly.refl s) ((settleSys_storage f _).after (modFold_storage _ _ _))

/-- Sheets moved out one by one: each step where it succeeds. -/
theorem foldl_bind_storage {α : Type} {g : α → State → Option State} (hg : ∀ a s t, g a s = some t → StorageOnly s t) (l : List α) :
    ∀ (r : Option State) (s t : State), r.elim True (StorageOnly s) → l.foldl (fun r a => r.bind (g a)) r = some t → StorageOnly s t := by
  induction l with
  | nil =>
    intro r s t hr h
    subst h
    exact hr
  | cons a l ih =>
    intro r s t hr h
    refine ih (r.bind (g a)) s t ?_ h
    cases r with
    | none => trivial
    | some u =>
      cases hu : g a u with
      | none => simp [hu]
      | some v => simpa [hu] using StorageOnly.trans hr (hg a u v hu)

theorem moveOut_storage {f : Nat} {gone : Sheet → Bool} {s t : State} (h : moveOut f gone s = some t) : StorageOnly s t := by
  refine foldl_bind_storage (fun p s t ht => ?_) _ (some s) s t (StorageOnly.refl s) h
  dsimp only at ht
  split at ht
  · exact (settleMig_storage f p.1 s).trans (moveNow_storage ht)
  · rw [← Option.some.inj ht]
    exact settleMig_storage f p.1 s

theorem removeWays_storage (f : Nat) (s : State) : StorageOnly s (removeWays f s) := by
  unfold removeWays
  extract_lets x keep gone
  split
  · exact StorageOnly.refl s
  · split
    · exact StorageOnly.refl s
    · rename_i hmoved
      exact (moveOut_storage hmoved).trans
        ((settleSys_storage f _).after ((StorageOnly.foldl (fun s w => setMem_storage s _ _) _ _).after (modFold_storage _ _ _)))

theorem sysAtOnce_clock (s : State) : SameClock s (sysAtOnce s) :=
  SameClock.foldl (fun s f => (removeWays_storage f _).clock.after ((addResources_storage f _).clock.after (formFold_clock f s))) _ s

theorem startFormation_storage (f : Nat) (s : State) : StorageOnly s (startFormation f s) :=
  StorageOnly.ite ((modNs_storage _ _ _).after (applyPend_storage _ s)) (StorageOnly.refl s)
theorem startNsRelease_storage (f : Nat) (s : State) : StorageOnly s (startNsRelease f s) :=
  StorageOnly.ite ((modNs_storage _ _ _).after (applyPend_storage _ s)) (StorageOnly.refl s)
theorem nfcAtOnce_storage (s : State) : StorageOnly s (nfcAtOnce s) :=
  StorageOnly.foldl (fun s f => (startNsRelease_storage f _).after (startFormation_storage f s)) _ s

theorem clearWet_storage (f : Nat) (y : Sess) (s : State) : StorageOnly s (clearWet f y s) :=
  StorageOnly.foldl (fun s i => (putEntry_storage _ _ _ _).after (discardSheet_storage f i s)) _ s

theorem dropStep_storage (f : Nat) (s : State) : StorageOnly s (dropStep f s) := by
  unfold dropStep
  extract_lets items s₁ s₂ back
  have hwet : StorageOnly s s₁ := by
    refine StorageOnly.foldl (fun s i => ?_) _ s
    split
    · exact clearWet_storage _ _ _
    · exact StorageOnly.refl s
  exact (modFold_storage _ _ _).after (hwet.trans (show StorageOnly s₁ s₂ from rfl))

theorem dropRegistration_storage (f slot : Nat) (g : Registration) (s : State) : StorageOnly s (dropRegistration f slot g s) :=
  (discardAll_storage f _ _).after (modFold_storage _ _ _)

theorem settleFold_storage (f : Nat) (s : State) : StorageOnly s (settleFold f s) :=
  (discardAll_storage f _ _).after
    ((StorageOnly.foldl (fun s (g : Nat × Registration) => dropRegistration_storage f g.1 g.2 s) _ _).after
      ((StorageOnly.foldl (fun s i => abandonMig_storage f i s) _ _).after (dropStep_storage f s)))

theorem releaseDraft_storage (x : W64) (s : State) : StorageOnly s (releaseDraft x s) := by
  unfold releaseDraft
  split
  · rfl
  · exact StorageOnly.after (show StorageOnly _ _ from rfl) (discardAll_storage _ _ s)

theorem disableQueues_storage (s : State) : StorageOnly s (disableQueues s) := rfl
theorem partDrove_storage (f : Nat) (s : State) : StorageOnly s (partDrove f s) := rfl

/-! ### The warm reset (16 R426) -/

/-- What the warm reset ends a ring with. -/
def Ring.warm (x : Ring) : Ring := { x with state := 0, closing := false, fetched := [], inflight := [], fence := none }

/-- The warm reset counts itself and keeps the timer; every queue is disabled. -/
theorem beginWarm_clock (cause : Nat) (s : State) :
    (beginWarm cause s).boot.warmCount = s.boot.warmCount + 1 ∧ (beginWarm cause s).timer = s.timer ∧
      ∀ r, ((beginWarm cause s).ring r).state = 0 := by
  unfold beginWarm
  extract_lets fresh s₁ s₂ s₃ s₄ peers s₅ s₆
  have hfinished : SameClock s s₁ := (disableQueues_storage _).clock.after
    ((applyPend_storage _ _).clock.after ((nfcAtOnce_storage _).clock.after (sysAtOnce_clock s)))
  have hgivenUp : StorageOnly s₁ s₆ := (setAct_storage _ _ _).after
    ((StorageOnly.foldl (fun s f => partDrove_storage f s) peers s₄).after
      ((StorageOnly.foldl (fun s x => releaseDraft_storage x s) _ s₃).after
        ((StorageOnly.foldl (fun s f => settleFold_storage f s) _ s₂).after
          (StorageOnly.foldl (fun s f => modFold_storage s f _) fresh s₁))))
  obtain ⟨hboot, htimer⟩ := hfinished.trans hgivenUp.clock
  refine ⟨congrArg (fun b : Boot => b.warmCount + 1) hboot, htimer, fun r => ?_⟩
  exact congrArg Ring.state (getND_map_values s₆.rings (fun _ => Ring.warm) r (d := Ring.reset) rfl)

theorem warmReset_long {w : Nat} {s : State} (hstatus : s.boot.status = 5) (hlong : 1000 ≤ w) :
    exec (.warmReset w) s = .next (beginWarm 1 s) :=
  (if_neg (by simp [hstatus]; omega)).trans (if_neg (by omega))

/-- Settles O41: the pulse by its width, the cold start by its parts, the warm reset by what it finishes, gives up and disables. -/
theorem resetsAndSelfTestReport : Obligations.ResetsAndSelfTestReport := by
  unfold Obligations.ResetsAndSelfTestReport
  refine ⟨fun b s => rfl, fun b s => coldReset_ready, fun w s => warmReset_long, ?warm, ?bist, ?resume, ?report, ?forbidden, ?filtered⟩
  case warm =>
    intro s
    obtain ⟨hcount, htimer, hrings⟩ := beginWarm_clock 1 s
    exact ⟨rfl, rfl, rfl, hcount, htimer, hrings⟩
  case bist =>
    intro v s hready hkey
    refine next_serve hready ?_
    have hstatus : s.boot.status = 5 := by simpa [State.ready] using hready
    rw [if_neg (by simp)]
    simp [bistWarm, onlyIf, hstatus, hkey]
  case resume =>
    intro s hstatus
    refine ⟨_, congrArg Host.Outcome.next (if_neg (by simp [hstatus])), ?_⟩
    have hports := SendsOnly.foldl (fun s p => SendsOnly.ite (p := s.mayTrain p = true) (fun _ => modPort_sends p (fun x => { x with state := 1 }) s)
      (fun _ => SendsOnly.refl s)) (List.range 18) { s with boot := { s.boot with status := 5 }, link := { s.link with training := true } }
    refine ⟨?_, ?_, hports.mem, hports.sessions⟩
    · rw [hports]
    · rw [hports]
  case report =>
    intro k q s hready hreport hqueue
    refine ⟨_, next_serve hready rfl, ?_⟩
    rw [hreport, hqueue]
    have hposted : RecordsOnly { s with boot := { s.boot with report := none } }
        (postDevice evSelftestReport (if s.boot.anyFenced then stInternal else stOk) 0 (s.boot.reportBytes k)
          { s with boot := { s.boot with report := none } }) := postOwner_records _ _ _
    have hboot : (postDevice evSelftestReport (if s.boot.anyFenced then stInternal else stOk) 0 (s.boot.reportBytes k)
          { s with boot := { s.boot with report := none } }).boot = { s.boot with report := none } := by rw [hposted]
    exact ⟨hboot, by rw [hboot]; exact hposted⟩
  case forbidden =>
    intro w s hstatus hlow hhigh
    exact (if_neg (by simp [hstatus]; omega)).trans (if_pos hhigh)
  case filtered =>
    intro w s hshort
    exact if_pos (by simp [hshort])

end Sys2Proof.Machine
end

section
/-! SUPPORT. Folds formed, changed and released (19 R477, 15 R408). -/
namespace Sys2Proof.Machine
open Sys2Proof.Safety

/-! ### What becomes active with a fold's part of a commit -/

/-- Registers that become active change nothing else. -/
theorem applyPend_regs_only (sel : Nat → Bool) (s : State) : applyPend sel s = { s with regs := (applyPend sel s).regs } := by
  have hkeys : ∀ (l : List (Nat × W64)) (s : State),
      l.foldl (fun s (p : Nat × W64) => applyKey p.1 p.2 s) s = { s with regs := (l.foldl (fun s (p : Nat × W64) => applyKey p.1 p.2 s) s).regs } := by
    intro l
    induction l with
    | nil => exact fun s => rfl
    | cons p l ih =>
      intro s
      rw [List.foldl_cons, ih]
      rfl
  unfold applyPend
  dsimp only
  rw [hkeys]

theorem settleSys_regs_only (f : Nat) (s : State) : settleSys f s = { s with regs := (settleSys f s).regs } := by
  unfold settleSys
  dsimp only
  split
  · exact applyPend_regs_only _ s
  · rfl

theorem settleSys_fold (f g : Nat) (s : State) : (settleSys f s).fold g = s.fold g := by
  rw [settleSys_regs_only]
  rfl

/-! ### Forming and adding (19 Table 19-6 rows 1 and 2) -/

/-- A fold whose first key is drawn has its draw behind it. -/
theorem drawFirstKey_drawn {f : Nat} {s : State} (h : (s.fold f).key.current ≠ []) : drawFirstKey f s = some s := by
  unfold drawFirstKey
  rw [if_pos (by simpa using Or.inr h)]

/-- The fold as its formation binds it. -/
def Fold.formed (pens ways : W64) (x : Fold) : Fold :=
  { x with status := 2, pens := pens, ways := ways, quota := [], role := 0
           key := if x.key.state = 0 then { x.key with state := 1, g := 1 } else x.key }

theorem formFold_eq {f : Nat} {s : State} (hforming : (s.fold f).status = 1) (hkey : (s.fold f).key.current ≠ []) :
    formFold f s = settleSys f (s.modFold f (Fold.formed (s.duePens f) (s.dueWays f))) := by
  unfold formFold
  rw [if_neg (by simp [hforming]), drawFirstKey_drawn hkey]
  rfl

theorem addResources_eq {f : Nat} {s : State} (hformed : s.formed f = true) (hdue : s.sysDue f = true) (hctrl : s.due (rSysFoldCtrl f) = 1) :
    addResources f s = settleSys f (s.modFold f (fun x => { x with pens := x.pens ||| s.duePens f, ways := x.ways ||| s.dueWays f })) := by
  unfold addResources
  rw [if_neg (by simp [hformed, hdue, hctrl])]

/-! ### Removing ways and pens (19 Table 19-6 rows 3 and 4) -/

/-- With no sheet in what goes away there is nothing to move. -/
theorem moveOut_none {f : Nat} {gone : Sheet → Bool} {s : State} (h : ∀ p ∈ (s.fold f).sheets, gone p.2 = false) : moveOut f gone s = some s := by
  unfold moveOut
  rw [List.filter_eq_nil_iff.mpr (fun p hp => by simp [h p hp])]
  rfl

theorem removeWays_moved {f : Nat} {gone : List Nat} {s u : State} (hformed : s.formed f = true) (hdue : s.sysDue f = true)
    (hctrl : s.due (rSysFoldCtrl f) = 1) (hgone : gone = (s.fold f).wayList.filter (fun w => !(s.dueWays f).toNat.testBit w)) (hsome : gone ≠ [])
    (hpinned : ∀ w ∈ gone, w ∉ (s.fold f).pinnedWays) (hmoved : moveOut f (fun e => e.tier == 1 && gone.contains (e.loc % 64)) s = some u) :
    removeWays f s = settleSys f (gone.foldl clearWay (u.modFold f (fun x => { x with ways := x.ways &&& s.dueWays f }))) := by
  unfold removeWays
  dsimp only
  rw [← hgone, if_neg (by simpa [hformed, hdue, hctrl, hsome] using hpinned), hmoved]

theorem removePens_moved {f : Nat} {gone : List Nat} {s u : State} (hformed : s.formed f = true) (hdue : s.sysDue f = true)
    (hctrl : s.due (rSysFoldCtrl f) = 1) (hgone : gone = (s.fold f).penList.filter (fun n => !(s.duePens f).toNat.testBit n)) (hsome : gone ≠ [])
    (hactive : (s.fold f).active = none) (hdrain : (s.fold f).drain = none)
    (hmoved : moveOut f (fun e => (e.tier == 0 && gone.contains (e.loc % 64)) || (e.tier == 2 && gone.contains (e.loc % 256 / 4)))
      (s.modFold f (fun x => { x with pens := x.pens &&& s.duePens f })) = some u) :
    removePens f s = settleSys f (gone.foldl (fun s n => collapsePen n s) u) := by
  unfold removePens
  dsimp only
  rw [← hgone, if_neg (by simp [hformed, hdue, hctrl, hsome, hactive, hdrain]), hmoved]

/-! ### Release (15 R408) -/

/-- The fold as its release leaves it. -/
def Fold.released (x : Fold) : Fold :=
  { Fold.reset with status := 3, releaseStep := 1, pens := x.pens, ways := x.ways, ns := { x.ns with sealedKeys := [], sealedG := 0 }
                    key := { FoldKey.reset with scrubLeft := 8192 * x.penList.length } }

theorem releaseFold_folds (f : Nat) (s : State) : (releaseFold f s).folds = setN s.folds f (s.fold f).released := rfl
theorem releaseFold_mem (f : Nat) (s : State) : (releaseFold f s).mem = memClear s.mem (s.winBase f) (s.winLimit f) := rfl

/-- Settles O49: each row of 19 Table 19-6 by the lemma that says what it leaves; ways and pens without sheets move none. -/
theorem foldsFormChangeAndRelease : Obligations.FoldsFormChangeAndRelease := by
  unfold Obligations.FoldsFormChangeAndRelease
  refine ⟨?form, ?add, ?ways, ?waysEmpty, ?pens, ?pensEmpty, ?release, ?done⟩
  case form =>
    intro f s hready hforming hstate hkey
    refine ⟨_, next_serve hready (formFold_eq hforming hkey), ?_⟩
    rw [settleSys_fold, State.fold_modFold]
    refine ⟨rfl, rfl, rfl, rfl, rfl, ?_, ?_, ?_⟩
    · simp [Fold.formed, hstate]
    · simp [Fold.formed, hstate]
    · rw [settleSys_regs_only]
      rfl
  case add =>
    intro f s hready hformed hdue hctrl
    refine ⟨_, next_serve hready (addResources_eq hformed hdue hctrl), ?_⟩
    rw [settleSys_fold, State.fold_modFold]
    refine ⟨rfl, rfl, ?_⟩
    rw [settleSys_regs_only]
    rfl
  case ways =>
    intro f gone s u hready hformed hdue hctrl hgone hsome hpinned hmoved
    exact next_serve hready (removeWays_moved hformed hdue hctrl hgone hsome hpinned hmoved)
  case waysEmpty =>
    intro f gone s hready hformed hdue hctrl hgone hsome hpinned hsheets
    exact next_serve hready (removeWays_moved hformed hdue hctrl hgone hsome hpinned (moveOut_none (fun p hp => by simp [hsheets p hp])))
  case pens =>
    intro f gone s u hready hformed hdue hctrl hgone hsome hactive hdrain hmoved
    exact next_serve hready (removePens_moved hformed hdue hctrl hgone hsome hactive hdrain hmoved)
  case pensEmpty =>
    intro f gone s hready hformed hdue hctrl hgone hsome hactive hdrain hsheets
    refine next_serve hready (removePens_moved hformed hdue hctrl hgone hsome hactive hdrain (moveOut_none (fun p hp => ?_)))
    rw [State.fold_modFold] at hp
    obtain ⟨hslate, hchannel⟩ := hsheets p hp
    simp [hslate, hchannel]
  case release =>
    intro f s hready hformed hpend
    have hdue : s.due (rSysFoldCtrl f) = 0 := by
      unfold State.due
      rw [hpend]
      rfl
    refine ⟨releaseFold f s, next_serve hready ?_, ?_⟩
    · simp [onlyIf, hformed, hasN, hpend, hdue]
    · have hfold : (releaseFold f s).fold f = (s.fold f).released := by
        rw [State.fold, releaseFold_folds]
        exact getND_setN_self _ _ _ _
      rw [hfold, releaseFold_mem]
      refine ⟨rfl, rfl, rfl, rfl, rfl, rfl, rfl, rfl, fun a hlo hhi => ?_, fun g hg => ?_⟩
      · exact memGet_memClear_in _ _ _ _ ⟨hlo, hhi⟩
      · rw [State.fold, releaseFold_folds]
        exact getND_setN_ne _ _ _ hg
  case done =>
    intro f s hready hstatus habsent
    refine next_serve hready ?_
    simp only [onlyIf, hstatus, habsent, beq_self_eq_true, Bool.and_self, if_true]

end Sys2Proof.Machine
end

section
/-! SUPPORT. Collection, folding of the buffer, and erasure (12 R319 to R322). -/
namespace Sys2Proof.Machine
open Sys2Proof.Safety

/-! ### Entries written one after the other -/

theorem getN_foldl_setN_of_notMem {α β : Type} (l : List (Nat × α)) (value : α → β) (m : NMap β) {k : Nat} (h : ∀ c ∈ l, c.1 ≠ k) :
    getN (l.foldl (fun m c => setN m c.1 (value c.2)) m) k = getN m k := by
  induction l generalizing m with
  | nil => rfl
  | cons c l ih =>
    rw [List.foldl_cons, ih _ (fun d hd => h d (List.mem_cons_of_mem c hd)), getN_setN_ne _ _ (h c List.mem_cons_self).symm]

theorem getN_foldl_setN_of_mem {α β : Type} (l : List (Nat × α)) (value : α → β) (m : NMap β) {c : Nat × α} (hkeys : (l.map (·.1)).Nodup)
    (hc : c ∈ l) : getN (l.foldl (fun m c => setN m c.1 (value c.2)) m) c.1 = some (value c.2) := by
  induction l generalizing m with
  | nil => simp at hc
  | cons d l ih =>
    rw [List.map_cons, List.nodup_cons] at hkeys
    rw [List.foldl_cons]
    rcases List.mem_cons.mp hc with rfl | hc
    · rw [getN_foldl_setN_of_notMem l value _ (fun e he hk => hkeys.1 (List.mem_map.mpr ⟨e, he, hk⟩)), getN_setN_self]
    · exact ih _ hkeys.2 hc

/-! ### The commit of a copy (12 R320) -/

/-- The copied pages whose LPN the map still has at the victim's page. -/
def stillThere (m : NMap Nat) (l : List (Nat × Nat × Nat)) : List (Nat × Nat × Nat) := l.filter (fun c => getN m c.1 == some c.2.1)

/-- The map after the commit of the pages `l`. -/
def committedMap (m : NMap Nat) (l : List (Nat × Nat × Nat)) : NMap Nat := (stillThere m l).foldl (fun m c => setN m c.1 c.2.2) m

/-- Entries of a list of distinct keys that have the same key are the same. -/
theorem eq_of_nodup_map {α β : Type} {g : α → β} {l : List α} (h : (l.map g).Nodup) {a b : α} (ha : a ∈ l) (hb : b ∈ l) (hab : g a = g b) : a = b := by
  induction l with
  | nil => cases ha
  | cons c l ih =>
    obtain ⟨hnew, hrest⟩ := List.nodup_cons.mp (List.map_cons ▸ h)
    rcases List.mem_cons.mp ha with hac | hal
    · rcases List.mem_cons.mp hb with hbc | hbl
      · rw [hac, hbc]
      · exact absurd (hac ▸ hab ▸ List.mem_map_of_mem hbl) hnew
    · rcases List.mem_cons.mp hb with hbc | hbl
      · exact absurd (hbc ▸ hab ▸ List.mem_map_of_mem hal) hnew
      · exact ih hrest hal hbl

theorem committedMap_copied {m : NMap Nat} {l : List (Nat × Nat × Nat)} {c : Nat × Nat × Nat} (hkeys : (l.map (·.1)).Nodup) (hc : c ∈ l) :
    getN (committedMap m l) c.1 = if getN m c.1 = some c.2.1 then some c.2.2 else getN m c.1 := by
  have hsub : ((stillThere m l).map (·.1)).Nodup := hkeys.sublist (List.filter_sublist.map _)
  split
  · rename_i hthere
    exact getN_foldl_setN_of_mem _ (fun p : Nat × Nat => p.2) m hsub (List.mem_filter.mpr ⟨hc, by simp [hthere]⟩)
  · rename_i hmoved
    refine getN_foldl_setN_of_notMem _ (fun p : Nat × Nat => p.2) m (fun d hd hk => hmoved ?_)
    obtain ⟨hd, hthere⟩ := List.mem_filter.mp hd
    obtain rfl : d = c := eq_of_nodup_map hkeys hd hc hk
    simpa using hthere

theorem committedMap_other {m : NMap Nat} {l : List (Nat × Nat × Nat)} {k : Nat} (h : ∀ c ∈ l, c.1 ≠ k) : getN (committedMap m l) k = getN m k :=
  getN_foldl_setN_of_notMem _ (fun p : Nat × Nat => p.2) m (fun c hc => h c ((List.mem_filter.mp hc).1))

theorem exec_gcCommit {f : Nat} {g : GcCopy} {s : State} (hready : s.ready = true) (hgc : (s.fold f).ns.gc = some g) :
    exec (.gcCommit f) s = .next (s.modNs f (fun x => { x with map := committedMap x.map g.copied, gc := none })) := by
  refine next_serve hready ?_
  rw [hgc]
  rfl

/-! ### Folding of the buffer (12 R319) -/

theorem foldBuffer_due {f b : Nat} {c : Bool} {s : State} (hnormal : (s.fold f).ns.state = nsNormal) (hgc : (s.fold f).ns.gc = none)
    (hbuffer : oldestBuffer (s.fold f).ns = some b) (hc : c = true) :
    foldBuffer f c s = copyVictim (s.modNs f (fun x => if x.openBuffer = some b then closeSb b x else x)) f b true := by
  unfold foldBuffer
  rw [hc, hnormal, hgc, hbuffer]
  rfl

/-! ### Erasure (12 R320) -/

theorem sb_modSb (x : Namespace) (b : Nat) (g : SuperBlock → SuperBlock) : (x.modSb b g).sb b = g (x.sb b) := by
  simp [Namespace.modSb, Namespace.sb]

/-- A superblock as its erasure leaves it. -/
def SuperBlock.erased (y : SuperBlock) : SuperBlock := { y with mode := 0, erases := y.erases + 1, refresh := false, written := 0 }

/-- A namespace with superblock `b` erased, and the collection that may end with it. -/
def Namespace.erased (s : State) (f b : Nat) (x : Namespace) : Namespace :=
  let x := x.modSb b SuperBlock.erased
  { x with gcRunning := x.gcRunning && decide (x.freeSb s.boot.firmware < bitsOf (s.act (rNfcGcThresh f)) 15 8) }

theorem erased_sb (s : State) (f b : Nat) (x : Namespace) : ((x.erased s f b).sb b).erases = (x.sb b).erases + 1 :=
  congrArg SuperBlock.erases (sb_modSb x b SuperBlock.erased)

theorem eraseComplete_lives {f b : Nat} {s : State} (hmode : ((s.fold f).ns.sb b).mode = 5) (hgc : (s.fold f).ns.gc = none)
    (hlives : ((s.fold f).ns.sb b).erases + 1 ≠ s.boot.firmware.endurance) :
    eraseComplete f b s = judgeHealth f (s.modNs f (Namespace.erased s f b)) := by
  have herases : (((s.modNs f (Namespace.erased s f b)).fold f).ns.sb b).erases ≠ s.boot.firmware.endurance := by
    simpa only [State.modNs, State.fold_modFold, erased_sb] using hlives
  unfold eraseComplete
  rw [hmode, hgc]
  exact congrArg (judgeHealth f) (if_neg herases)

/-- Settles O52: collection, folding and erasure are their rows' guarded branches; the commit by `committedMap`. -/
theorem collectionFoldingAndErasure : Obligations.CollectionFoldingAndErasure := by
  unfold Obligations.CollectionFoldingAndErasure
  refine ⟨?collect, ?commit, ?fold, ?erase⟩
  case collect =>
    intro f v s hready hnormal hgc hwanted hvictim
    refine next_serve hready ?_
    rw [hnormal, hgc, hwanted, hvictim]
    rfl
  case commit =>
    intro f g s hready hgc hkeys
    refine ⟨_, exec_gcCommit hready hgc, ?_⟩
    simp only [State.modNs, State.fold_modFold]
    exact ⟨trivial, fun c hc => committedMap_copied hkeys hc, fun l hl => committedMap_other hl, rfl⟩
  case fold =>
    intro f b s hready hnormal hgc hbuffer
    exact ⟨fun hfull => next_serve hready (foldBuffer_due hnormal hgc hbuffer (decide_eq_true hfull)),
      fun hidle => next_serve hready (foldBuffer_due hnormal hgc hbuffer (decide_eq_true hidle))⟩
  case erase =>
    intro f b s hready hmode hgc hlives
    exact next_serve hready (congrArg (settleRegistrations f) (eraseComplete_lives hmode hgc hlives))

end Sys2Proof.Machine
end

section
/-! SUPPORT. A drain that another member asked for (04 R121 step 4, 07 R201 step 5). -/
namespace Sys2Proof.Machine
open Sys2Proof.Safety

/-- A role drain that member 1 asked for, past its limit. -/
def askedDrain : Drain :=
  { kind := 0, deadline := 0, desc := ⟨0, 0, 0, 0, 0, []⟩, arg := 1, loading := false, boundary := 0, issuer := some 1 }

/-- The root with that drain running in fold 0. -/
def askedDrainState : State :=
  { State.reset with
    boot := { Boot.reset with status := 5 }
    folds := [(0, { Fold.reset with status := 2, drain := some askedDrain })] }

/-- A drain that another member asked for has its limit there: the root's own clock does not end it. -/
theorem drainLimit_ofIssuer {f : Nat} {q : Drain} {s : State} (hready : s.ready = true) (hdrain : (s.fold f).drain = some q)
    (hissuer : q.issuer.isSome = true) : exec (.drainLimitExpiry f) s = .next s := by
  refine next_serve hready ?_
  rw [hdrain]
  dsimp only
  rw [if_pos (by simp [hissuer])]

/-- Refutes O24: the clause on an expired drain limit leaves out who asked for the drain. Of one that another member asked for the limit is that
member's (04 R121 step 4), and the root keeps the drain. -/
theorem not_quotaRoleDiscardAndHealth : ¬ Obligations.QuotaRoleDiscardAndHealth := by
  unfold Obligations.QuotaRoleDiscardAndHealth
  rintro ⟨-, -, hexpiry, -⟩
  have hkept : exec (.drainLimitExpiry 0) askedDrainState = .next askedDrainState := drainLimit_ofIssuer (by decide) rfl (by decide)
  have hclaimed := hexpiry 0 askedDrain askedDrainState (by decide) rfl (by decide) (by decide)
  have hdrain := congrArg (fun s : State => (s.fold 0).drain.isSome) (Host.Outcome.next.inj (hkept.symm.trans hclaimed))
  exact absurd hdrain (by decide +kernel)

end Sys2Proof.Machine
end

section
/-! SUPPORT. Sessions opened and closed, turns accepted and cancelled (04 R93 to R102, 10 R260). -/
namespace Sys2Proof.Machine
open Sys2Proof.Safety

theorem sess_congr {s t : State} (h : t.sessions = s.sessions) (x : W64) : t.sess x = s.sess x := by rw [State.sess, State.sess, h]

/-- A session that is held, changed. -/
theorem sess_modSess_of {x : W64} {y : Sess} {s : State} (hy : s.sess x = some y) (g : Sess → Sess) : (s.modSess x g).sess x = some (g y) := by
  rw [State.sess_modSess, hy]
  rfl

/-! ### SESSION_OPEN (04 R93) -/

/-- The new session with record `rec_` entered, the fold's next serial one higher. -/
def withSession (f serial : Nat) (rec_ : Record) (s : State) : State :=
  (s.setAct (rSessSerialNext f) (serial + 1)).setSess rec_.sessionId (Sess.idle rec_ true true f)

theorem openBody_ok {d : Desc} {b : State} {f tails serial : Nat} {img : Image} {block : List Byte} {r : (Nat × Nat × Nat × Nat) × State}
    {rec_ : Record} (hf : f = b.descFold d) (htails : tails = (if descNum d 56 2 = 0 then 16 else descNum d 56 2)) (hmost : tails ≤ 256)
    (htier : b.parkTierOk f (descByte d 44) = true) (hstream : streamBlock d f b = stOk) (hslot : descByte d 45 < 32)
    (himage : b.image f (descByte d 45) = some img) (hblock : b.hostRead f (descNum d 32 6) (descNum d 38 2) = .ok block)
    (hparams : paramsOk img.vocab block (descNum d 38 2) = true) (huse : b.dirUse f < b.act (rSessDirRecords f))
    (hserial : serial = b.nextSerial f) (hlast : serial ≤ 0xFFFFFFFFFF) (hsheets : openSheets f tails img block b = .ok r)
    (hrec : rec_ = openRecord d b f serial tails r.1.1 r.1.2.1 r.1.2.2.1 r.1.2.2.2) :
    openBody d b = .ok (completeAs opSessionOpen d rec_.sessionId stOk 0
      (State.sessInfo (withSession f serial rec_ r.2) rec_.sessionId) (withSession f serial rec_ r.2)) := by
  subst hf htails hserial hrec
  unfold openBody
  dsimp only
  rw [if_neg (by simp [htier]; omega), if_neg (by simp [hstream]), if_pos hslot, himage]
  dsimp only
  rw [hblock]
  dsimp only
  rw [if_neg (by simp [hparams]), if_neg (Nat.not_le.mpr huse), if_neg (Nat.not_lt.mpr hlast), hsheets]
  rfl

/-- Settles O7: SESSION_OPEN with every check passed comes to the session's own writes. -/
theorem sessionOpenCreatesASession : Obligations.SessionOpenCreatesASession := by
  unfold Obligations.SessionOpenCreatesASession
  intro d s f tails serial img block r hadm hres hflags hf htails hmost htier hstream hslot himage hblock hparams huse hserial hlast hsheets
  obtain ⟨rec_, hrec⟩ : ∃ rec_, rec_ = openRecord d (beginDesc opSessionOpen d s) f serial tails r.1.1 r.1.2.1 r.1.2.2.1 r.1.2.2.2 := ⟨_, rfl⟩
  have hbody := openBody_ok (b := beginDesc opSessionOpen d s) hf htails hmost htier hstream hslot himage hblock hparams huse hserial hlast hsheets hrec
  have hkeep : ∀ x spec z, (completeAs opSessionOpen d x stOk 0 spec (withSession f serial rec_ r.2)).sess z =
      (withSession f serial rec_ r.2).sess z := fun _ _ => sess_congr (completeAs_sessions _ _ _ _ _ _ _)
  have hid : rec_.sessionId = BitVec.ofNat 64 (s.selfNo * 2 ^ 46 + f * 2 ^ 40 + serial) := congrArg Record.sessionId hrec
  refine ⟨_, Sess.idle rec_ true true f, next_descriptorAs hadm (by simp [hres, hflags]) hbody, ?_, ?_, fun z hz => ?_, rfl, rfl, rfl, rfl, ?_⟩
  · rw [State.act_congr (withSession f serial rec_ r.2) _ _ (completeAs_regs _ _ _ _ _ _ _)]
    exact State.act_setAct r.2 _ _ (by omega)
  · rw [hkeep, ← hid]
    exact State.sess_setSess _ _ _
  · rw [hkeep]
    exact State.sess_setSess_ne _ _ (hid ▸ hz)
  · subst hrec htails
    exact ⟨rfl, rfl, rfl, rfl, rfl, rfl, rfl, rfl, rfl, rfl⟩

/-! ### SESSION_CLOSE and TURN_CANCEL (04 R101, R102) -/

theorem closeHome_sess (x : W64) (s : State) : (closeHome x s).sess x = none := by
  unfold closeHome
  split
  · assumption
  · exact getN_delN_self _ _

/-- A session that ends is held no more. -/
theorem endSession_sess (x : W64) (c : Closing) (s : State) : (endSession x c s).sess x = none := by
  unfold endSession
  split
  · assumption
  · extract_lets s₁ s₂ s₃ spec s₄
    split
    · exact (sess_congr (complete_sessions _ _ _ _ _ _) x).trans (closeHome_sess x _)
    · exact closeHome_sess x _

theorem settleClosing_ends {x : W64} {y : Sess} {c : Closing} {s : State} (hy : s.sess x = some y) (hclosing : y.closing = some c)
    (hturn : y.turn = none) (hendings : y.endings = []) : settleClosing x s = endSession x c s := by
  unfold settleClosing
  rw [hy]
  dsimp only
  rw [hclosing]
  dsimp only
  rw [if_pos (by simp [hturn, hendings])]

theorem stopRevive_sess {x : W64} {y : Sess} {s : State} (hy : s.sess x = some y) :
    (stopRevive x s).sess x = some { y with revive := none } := by
  unfold stopRevive
  rw [hy]
  dsimp only
  exact sess_modSess_of hy _

theorem closeBody_ends {d : Desc} {y : Sess} {s : State} (hy : s.sess d.session = some y) (hstate : y.record.state ≠ stateMoving)
    (hmove : y.move = none) (hclosing : y.closing = none) (hpark : y.park = none) (hturn : y.turn = none) (hendings : y.endings = []) :
    (closeBody d y s).sess d.session = none := by
  unfold closeBody
  dsimp only
  rw [if_neg (by simp [hstate, hmove, hclosing]), hpark]
  dsimp only
  rw [hturn]
  have hasked : (s.modSess d.session (fun y => { y with closing := some ⟨0, stOk, some d⟩ })).sess d.session =
      some { y with closing := some ⟨0, stOk, some d⟩ } := sess_modSess_of hy _
  rw [settleClosing_ends (stopRevive_sess hasked) rfl hturn hendings]
  exact endSession_sess _ _ _

/-- The session that the lease check passes on. -/
theorem leased_sess {d : Desc} {y : Sess} {s : State} (h : Leased d y s) : s.sess d.session = some y := h.1

/-- The lease check looks at nothing that the beginning of a descriptor changes. -/
theorem leased_begun {d : Desc} {y : Sess} {s : State} (h : Leased d y s) (op : Nat) : Leased d y (beginDesc op d s) := h

theorem next_sessionClose {d : Desc} {y : Sess} {s : State} (hadm : Admitted opSessionClose true d s) (hres : bodyReserved d [] = true)
    (hlease : Leased d y s) (hstranded : y.record.state ≠ stateStranded) :
    exec (.sessionClose d) s = .next (closeBody d y (beginDesc opSessionClose d s)) := by
  refine next_descriptorAs hadm hres (congrArg Except.ok ?_)
  rw [(leased_sess (leased_begun hlease opSessionClose))]
  dsimp only
  rw [if_neg (by simp [hstranded]), withLease_leased (leased_begun hlease opSessionClose)]

theorem next_turnCancel {d : Desc} {y : Sess} {s : State} (hadm : Admitted opTurnCancel true d s) (hres : bodyReserved d [] = true)
    (hlease : Leased d y s) : exec (.turnCancel d) s = .next (cancelBody d y (beginDesc opTurnCancel d s)) :=
  next_descriptorAs hadm hres (congrArg Except.ok (withLease_leased (leased_begun hlease opTurnCancel) _ _ _))

/-- Settles O8: the close ends the session it leaves without a turn; the cancel by what the session has. -/
theorem sessionCloseAndTurnCancel : Obligations.SessionCloseAndTurnCancel := by
  unfold Obligations.SessionCloseAndTurnCancel
  constructor
  · intro d y s hadm hres hlease hstranded hstate hmove hclosing hpark hturn hendings hrevive
    exact ⟨_, next_sessionClose hadm hres hlease hstranded,
      closeBody_ends (leased_sess (leased_begun hlease opSessionClose)) hstate hmove hclosing hpark hturn hendings⟩
  · intro d y s hadm hres hlease hpark hmove hstate
    have hfree : ¬ (y.park.isSome || y.move.isSome || y.record.state == stateMoving) = true := by simp [hpark, hmove, hstate]
    refine ⟨fun hturn hwaiting => ?_, fun hturn hwaiting hrest => ?_, fun u hturn hcancel hclosing hdecided => ?_⟩
    · rw [next_turnCancel hadm hres hlease, cancelBody, if_neg hfree, hturn]
      dsimp only
      rw [if_pos hwaiting]
      rfl
    · rw [next_turnCancel hadm hres hlease, cancelBody, if_neg hfree, hturn]
      dsimp only
      rw [if_neg hwaiting, if_pos hrest]
      rfl
    · rw [next_turnCancel hadm hres hlease, cancelBody, if_neg hfree, hturn]
      dsimp only
      rw [if_neg (by simp [hcancel, hclosing]), if_neg]
      have : (beginDesc opTurnCancel d s).decided y.fold d.session = s.decided y.fold d.session := rfl
      simp [this, hdecided]

/-! ### TURN_SUBMIT and TOOL_RESULT (10 R260, 04 R98) -/

/-- The checks of a turn's own chapters, on an owned session at rest without a turn. -/
def TurnFits (op : Nat) (d : Desc) (y : Sess) (s : State) : Prop :=
  y.turnBusy = false ∧ y.record.imagePoisoned = false ∧ isRest y.record.state = true ∧
    y.rest = (if op = opToolResult then stateWaiting else stateOpen) ∧ descNum d 24 4 ≤ 16777216 ∧ descByte d 40 < 64 ∧
    ((s.fold y.fold).role = 1 → bitsOf (descNum d 36 4) 17 0 ≠ 0x3FFFF) ∧ (s.fold y.fold).active = some y.record.imageSlot ∧
    (s.fold y.fold).faulted = false

/-- The checks of the text: what a strict session replaces, the context's limit, the turn's length. -/
def TextFits (d : Desc) (y : Sess) (e : Encoded) (s s₁ : State) : Prop :=
  ((s.params y.record.paramSheet).strict = true → e.replaced = 0) ∧ y.record.context + e.tokens.length ≤ s₁.act (rInkCtxMax y.fold) ∧
    (y.record.context + e.tokens.length = 0 → bitOf (descByte d 34) 0 = true ∨ bitOf (descByte d 34) 2 = true)

/-- The transcript entries of an input. -/
def inputWords (op : Nat) (d : Desc) (y : Sess) (e : Encoded) : List W64 :=
  e.tokens.map (fun t => txWord t (b2n (op == opToolResult)) (op == opToolResult || bitOf (descByte d 34) 1) y.record.textOffset)

/-- A turn whose checks pass comes to its admission: asked of the root elsewhere, else after the input's entries. -/
theorem startTurn_fits {op : Nat} {d : Desc} {y : Sess} {s s₁ : State} {text : List Byte} {e : Encoded} (hfits : TurnFits op d y s)
    (htext : s.hostRead y.fold (descNum d 16 6) (descNum d 24 4) = .ok text)
    (he : e = encodeText s y.fold (s.params y.record.paramSheet).escapes (bitOf (descByte d 34) 0) (y.record.carry ++ text))
    (hs₁ : s₁ = (cacheUse y.fold s).count (rTokInputReplaced y.fold) e.replaced) (hlength : TextFits d y e s s₁) :
    (s₁.isRoot y.fold = false →
      ∀ t, askAdmission y.fold d.session y.record.latencyCritical (some (op, d)) s = .ok t → startTurn op d none y s = t) ∧
    (s₁.isRoot y.fold = true → ∀ s₂, appendTx d.session (.record d.session) (inputWords op d y e) s₁ = .ok s₂ →
      ∀ s₃, requestAdmission y.fold d.session y.record.latencyCritical d.tag op (beginTurn op d y e s₂) = .ok s₃ →
      startTurn op d none y s = sendSeat d.session (if isParked y.record.state then startRevive d.session none true s₃ else s₃)) := by
  obtain ⟨hbusy, hpoison, hrest, hstate, hbytes, hlayer, hrole, hactive, hfaulted⟩ := hfits
  obtain ⟨hstrict, hcontext, hempty⟩ := hlength
  have hreplaced : ¬ ((s.params y.record.paramSheet).strict && e.replaced != 0) = true := by
    intro h
    rw [Bool.and_eq_true] at h
    simp [hstrict h.1] at h
  have hsome : ¬ (decide (y.record.context + e.tokens.length = 0) && !(bitOf (descByte d 34) 0 || bitOf (descByte d 34) 2)) = true := by
    intro h
    rw [Bool.and_eq_true, decide_eq_true_iff] at h
    rcases hempty h.1 with k | k <;> simp [k] at h
  have hrest' : ¬ (y.record.imagePoisoned || !isRest y.record.state ||
      y.rest != (if (op == opToolResult) = true then stateWaiting else stateOpen)) = true := by simp [hpoison, hrest, hstate]
  have hrole' : ¬ (decide ((s.fold y.fold).role = 1) && bitsOf (descNum d 36 4) 17 0 == 0x3FFFF) = true := by
    intro h
    rw [Bool.and_eq_true, decide_eq_true_iff] at h
    simp [hrole h.1] at h
  unfold startTurn
  dsimp only
  rw [if_neg (by simp [hbusy]), if_neg hrest', if_neg (by simp; omega), if_neg hrole', if_neg (by simp [hactive]), if_neg (by simp [hfaulted]), htext]
  dsimp only
  rw [← he, ← hs₁, if_neg hreplaced, if_neg (Nat.not_lt.mpr hcontext), if_neg hsome]
  refine ⟨fun hroot t hask => ?_, fun hroot s₂ happend s₃ hadmit => ?_⟩
  · rw [if_pos (by simp [hroot]), hask]
  · unfold inputWords at happend
    rw [if_neg (by simp [hroot]), happend]
    dsimp only
    rw [hadmit]

theorem act_count_ne (s : State) {j k : Nat} (n : Nat) (h : j ≠ k) : (s.count k n).act j = s.act j := by
  unfold State.count
  split <;> exact State.act_setAct_ne s _ h

/-- The root of fold `f` is told by three registers of the fabric. -/
theorem isRoot_of_act {s t : State} {f : Nat} (hmember : t.act (rFabFoldMember f) = s.act (rFabFoldMember f))
    (hdrove : t.act (rFabFoldDrove f) = s.act (rFabFoldDrove f)) (hself : t.act rFabSelf = s.act rFabSelf) : t.isRoot f = s.isRoot f := by
  unfold State.isRoot State.rootOf State.drove State.selfNo
  rw [hmember, hdrove, hself]

/-- A counter above the fabric's registers of fold `f` is not looked at for its root. -/
theorem isRoot_count (s : State) {f k : Nat} (n : Nat) (h : rFabFoldMember f < k) : (s.count k n).isRoot f = s.isRoot f := by
  simp only [rFabFoldMember] at h
  exact isRoot_of_act (act_count_ne s n (by simp only [rFabFoldMember]; omega)) (act_count_ne s n (by simp only [rFabFoldDrove]; omega))
    (act_count_ne s n (by simp only [rFabSelf]; omega))

theorem isRoot_cacheUse (s : State) (f : Nat) : (cacheUse f s).isRoot f = s.isRoot f := by
  unfold cacheUse
  dsimp only
  rw [isRoot_count _ _ (by simp only [rFabFoldMember, rTokCacheMisses]; omega)]
  split
  · rfl
  · rw [isRoot_count _ _ (by simp only [rFabFoldMember, rTokCacheHits]; omega)]
    rfl

theorem turnDescriptor_leased {op : Nat} {d : Desc} {y : Sess} {s : State} (hadm : Admitted op true d s) (hres : turnReserved d = true)
    (hlease : Leased d y s) (hpark : y.park = none) : turnDescriptor op d s = startTurn op d none y (beginDesc op d s) := by
  refine descriptorAs_performed hadm hres (congrArg Except.ok ?_)
  rw [withLease_leased (leased_begun hlease op), turnBody, hpark]

/-- Settles O9: both rows are the turn descriptor, whose session passes every check of `startTurn`. -/
theorem turnsAreAccepted : Obligations.TurnsAreAccepted := by
  unfold Obligations.TurnsAreAccepted
  intro op row src hrow d y s s₁ text e hadm hres hlease hpark hresting hturn hpoison hstate hbytes hlayer hrole hactive hfaulted htext he hstrict hs₁
    hcontext hempty
  have hexec : exec (row d) s = .next (startTurn op d none y (beginDesc op d s)) := by
    rcases hrow with h | h <;> obtain ⟨rfl, rfl, rfl⟩ := h <;> exact next_serve hadm.1 (turnDescriptor_leased hadm hres hlease hpark)
  have hsrc : src = b2n (op == opToolResult) := by
    rcases hrow with h | h <;> obtain ⟨rfl, rfl, rfl⟩ := h <;> rfl
  have hroot : s₁.isRoot y.fold = s.isRoot y.fold := by
    rw [hs₁, isRoot_count _ _ (by simp only [rFabFoldMember, rTokInputReplaced]; omega), isRoot_cacheUse]
    rfl
  obtain ⟨hbusy, hrest⟩ := hresting
  have hfits : TurnFits op d y (beginDesc op d s) :=
    ⟨by simp [Sess.turnBusy, hbusy, hturn], hpoison, hrest, hstate, hbytes, hlayer, hrole, hactive, hfaulted⟩
  obtain ⟨helsewhere, hhere⟩ := startTurn_fits hfits htext he hs₁ ⟨hstrict, hcontext, hempty⟩
  rw [hexec]
  refine ⟨fun hr s₂ happend s₃ hadmit => ?_, fun hr t hask => ?_⟩
  · rw [hhere (hroot.trans hr) s₂ (by rw [← happend, hsrc]; rfl) s₃ hadmit]
  · rw [helsewhere (hroot.trans hr) t hask]

end Sys2Proof.Machine
end

section
/-! SUPPORT. Parking over a session list with one ID twice (04 R104). -/
namespace Sys2Proof.Machine
open Sys2Proof.Safety

/-- Session 1 of fold `f`, OPEN, at home and owned here. -/
def openSession (f : Nat) : Sess := Sess.idle { Record.zero with sessionId := 1, state := stateOpen } true true f

/-- Fold 1 in a drove of two, whose member 1 is device 5; fold 0 in none. The session list holds ID 1 twice, for both folds. -/
def twiceHeldState : State :=
  { State.reset with
    boot := { Boot.reset with status := 5 }
    regs := { State.reset.regs with active := [(rFabFoldDrove 1, 0x100000000), (rFabFoldMember 1, 0x80000)] }
    folds := [(1, { Fold.reset with status := 2, members := [0, 5] })]
    sessions := [(1, openSession 0), (1, openSession 1)] }

/-- SESSION_PARK of session 1 to T2. -/
def parkDesc : Desc := ⟨0, 0, 0, 0, 1, [2]⟩

/-- The holders that the park of the list's second entry names. -/
def secondHolders (a : Answer) : Option (List Nat) := match a with
  | .next s => (s.sessions[1]?).bind (fun p => p.2.park.map (·.holders))
  | _ => none

theorem parkDesc_admitted : Admitted opSessionPark true parkDesc twiceHeldState :=
  ⟨by decide +kernel, by decide +kernel, by decide +kernel, by decide +kernel, by decide +kernel⟩

theorem parkDesc_leased : Leased parkDesc (openSession 0) twiceHeldState :=
  ⟨rfl, rfl, by decide +kernel, _, rfl, by decide +kernel, by decide +kernel, by decide +kernel⟩

/-- Refutes O10: `park` is set on every entry of the session's ID, and each names the other members of its own fold as holders, where the clause has
none. A session list with one ID twice, for folds 0 and 1, tells the two apart: fold 0 is in no drove, fold 1 in one of two. -/
theorem not_parkingASession : ¬ Obligations.ParkingASession := by
  unfold Obligations.ParkingASession
  rintro ⟨hpark, -⟩
  obtain ⟨halone, -⟩ := hpark parkDesc (openSession 0) twiceHeldState _ rfl parkDesc_admitted (by decide +kernel) parkDesc_leased
    ⟨by decide +kernel, by decide +kernel⟩ (by decide +kernel) (by decide +kernel) (by decide +kernel) (by decide +kernel)
  have hperformed : secondHolders (exec (.sessionPark parkDesc) twiceHeldState) = some [5] := by decide +kernel
  have hclaimed := congrArg secondHolders (halone (by decide +kernel))
  rw [hperformed] at hclaimed
  exact absurd hclaimed (by decide +kernel)

end Sys2Proof.Machine
end

section
/-! SUPPORT. Reviving a session (04 R107, R108). -/
namespace Sys2Proof.Machine
open Sys2Proof.Safety

/-- At the root of a session owned there a report goes to no other device. -/
theorem reportLayers_here {f : Nat} {y : Sess} {n : Nat} {s : State} (hroot : s.isRoot f = true) (howner : y.record.lease.holder = s.selfNo) :
    reportLayers f y n stOk s = setReviving f y.record.sessionId (decide (s.reviveLimit f y.record.sessionId < 255))
      (s.reviveLimit f y.record.sessionId) s := by
  have hself : s.rootOf f = s.selfNo := by simpa [State.isRoot] using hroot
  have hnone : ((s.rootOf f :: (if (decide (n = 255) || stOk != stOk) = true then [y.record.lease.holder] else [])).eraseDups.filter (· != s.selfNo)) = [] := by
    refine List.filter_eq_nil_iff.mpr (fun a ha => ?_)
    rw [List.mem_eraseDups, hself, howner] at ha
    split at ha <;> simp_all
  unfold reportLayers
  dsimp only
  rw [hnone]
  exact if_neg (by simp [hroot])

theorem reviveBody_parked {d : Desc} {y : Sess} {s : State} (hbusy : y.busy = false) (hparked : isParked y.record.state = true)
    (hclean : y.record.imagePoisoned = false) : reviveBody d y s = startRevive d.session (some d) false s := by
  unfold reviveBody
  dsimp only
  rw [if_neg (by simp [hbusy]), if_neg (by simp [hparked, hclean])]

/-- Settles O11: each clause is the branch of its row that the revive's descriptor and sheets lead to. -/
theorem revivingASession : Obligations.RevivingASession := by
  unfold Obligations.RevivingASession
  refine ⟨?begins, ?complete, ?layer, fun f y n s => reportLayers_here⟩
  case begins =>
    intro d y s hadm hres hmode hlease hbusy hparked hclean
    refine next_ite_descriptorAs (by simp [hmode]) hadm (by simp [hres, hmode]) (congrArg Except.ok ?_)
    rw [withLease_leased (leased_begun hlease opSessionRevive), reviveBody_parked hbusy hparked hclean]
  case complete =>
    intro x y r s hready hy hr hleft
    refine ⟨fun d hd hin => next_serve hready ?_, fun hd => next_serve hready ?_⟩
    · have hall : (s.fold y.fold).layersIn.any (fun e => e.1 == x && decide (e.2.2.2 < 255)) = false := by
        refine List.any_eq_false.mpr (fun e he h => ?_)
        rw [Bool.and_eq_true, beq_iff_eq, decide_eq_true_iff] at h
        exact absurd (hin e he h.1) (by omega)
      rw [hy]
      dsimp only
      rw [hr]
      dsimp only
      rw [hleft, hd]
      dsimp only [List.filterMap_nil, List.head?_nil, List.isEmpty_nil]
      rw [if_pos rfl, if_neg (by simp [hall])]
    · rw [hy]
      dsimp only
      rw [hr]
      dsimp only
      rw [hleft, hd]
      rfl
  case layer =>
    intro x y r s hready hy hr hturnOut hnext hleft
    refine next_serve hready ?_
    rw [hy]
    dsimp only
    rw [hr]
    dsimp only
    rw [hleft]
    simp [onlyIf, hturnOut, hnext]

end Sys2Proof.Machine
end

section
/-! SUPPORT. Moving and recovering sessions (04 R110 to R117). -/
namespace Sys2Proof.Machine
open Sys2Proof.Safety

/-! ### A session at its home: nothing is sent (04 R94) -/

theorem writeHome_home {x : W64} {y : Sess} {s : State} (hy : s.sess x = some y) (hhome : y.isHome = true) (p : Purpose) (o n : Nat) :
    writeHome x p o n s = s := by
  unfold writeHome
  rw [hy]
  dsimp only
  rw [if_pos hhome]

/-- The number of image sheets that the record is given with a write-back. -/
def Sess.counted (n : Option Nat) (y : Sess) : Sess := match n with
  | some n => { y with record := { y.record with imageSheets := n } }
  | none => y

theorem countImage_eq {x : W64} {y : Sess} {s : State} (hy : s.sess x = some y) :
    ∃ n : Option Nat, (countImage x s).sess x = some (y.counted n) ∧ countImage x s = { s with sessions := (countImage x s).sessions } := by
  unfold countImage
  rw [hy]
  dsimp only
  split
  · exact ⟨some _, sess_modSess_of hy _, rfl⟩
  · exact ⟨none, hy, rfl⟩

theorem isHome_counted (n : Option Nat) (y : Sess) : (y.counted n).isHome = y.isHome := by cases n <;> rfl

/-- A write-back at the home counts the image's sheets and sends nothing. -/
theorem writeBack_home {x : W64} {y : Sess} {s : State} (hy : s.sess x = some y) (hhome : y.isHome = true) : writeBack x s = countImage x s := by
  obtain ⟨n, hcounted, -⟩ := countImage_eq hy
  have hkeep : ∀ l : List (Nat × Nat),
      l.foldl (fun s r => writeHome x (.record x) r.1 r.2 s) (countImage x s) = countImage x s := by
    intro l
    induction l with
    | nil => rfl
    | cons r l ih => rw [List.foldl_cons, writeHome_home hcounted ((isHome_counted n y).trans hhome), ih]
  exact hkeep writeBackRanges

/-! ### Lease swaps and the offer (04 R113, R114) -/

theorem homeCas_eq {x : W64} {y : Sess} {old new : Lease} {s : State} (hy : s.sess x = some y) (hhome : y.isHome = true) :
    homeCas x old new s = if y.record.lease = old then (true, observeLease x new s) else (false, s) := by
  unfold homeCas
  rw [hy]
  by_cases hold : y.record.lease = old
  · rw [if_pos hold, if_pos (by simp [hhome, hold])]
  · rw [if_neg hold, if_neg (by simp [hhome, hold])]

theorem offerSwapped_good {x : W64} {y : Sess} {m : Move} {st : W16} {s : State} (hy : s.sess x = some y) (hhome : y.isHome = true)
    (hmove : y.move = some m) (hstage : m.stage = 0) :
    (offerSwapped x st true s).sess x = some { y with move := some { m with stage := 1, lastPoll := s.now, desc := none } } := by
  have htaken := sess_modSess_of hy (fun y => { y with move := some { m with stage := 1, lastPoll := s.now, desc := none } })
  unfold offerSwapped
  rw [hy]
  dsimp only
  rw [hmove]
  dsimp only
  rw [if_neg (by simp [hstage]), if_pos rfl, if_pos hhome]
  split
  · exact (sess_congr (complete_sessions _ _ _ _ _ _) x).trans htaken
  · exact htaken

/-- The session as an offer to `peer` leaves it before the swap. -/
def Sess.offering (m : Move) (peer : Peer) (n : Option Nat) (y : Sess) : Sess :=
  let z := ({ y with move := some m }).counted n
  { z with record := { z.record with peer := peer } }

theorem offering_kept (m : Move) (peer : Peer) (n : Option Nat) (y : Sess) :
    (y.offering m peer n).isHome = y.isHome ∧ (y.offering m peer n).record.lease = y.record.lease ∧ (y.offering m peer n).move = some m ∧
      (y.offering m peer n).record.peer = peer := by
  cases n <;> exact ⟨rfl, rfl, rfl, rfl⟩

/-- The offer's writes to the record, at the home. -/
theorem offer_written {x : W64} {y : Sess} (m : Move) (peer : Peer) {s : State} (hy : s.sess x = some y) (hhome : y.isHome = true) :
    ∃ n u, writeHome x (.record x) 24 8 ((writeBack x (s.modSess x (fun y => { y with move := some m }))).modRec x (fun r => { r with peer := peer })) = u ∧
      u.sess x = some (y.offering m peer n) ∧ u.regs = s.regs ∧ u.timer = s.timer := by
  have hmove := sess_modSess_of hy (fun y => { y with move := some m })
  obtain ⟨n, hcounted, hframe⟩ := countImage_eq hmove
  have hpeer := sess_modSess_of hcounted (fun y => { y with record := { y.record with peer := peer } })
  refine ⟨n, (countImage x (s.modSess x (fun y => { y with move := some m }))).modRec x (fun r => { r with peer := peer }), ?_, hpeer, ?_, ?_⟩
  · rw [writeBack_home hmove hhome]
    exact writeHome_home hpeer ((isHome_counted n _).trans hhome) _ _ _
  · rw [State.modRec, hframe]
    rfl
  · rw [State.modRec, hframe]
    rfl

theorem startOffer_home {x : W64} {dev fold : Nat} {desc : Option Desc} {y : Sess} {s : State} (hy : s.sess x = some y) (hhome : y.isHome = true)
    (hlease : y.record.lease = ⟨s.selfNo, 0, y.record.lease.epoch⟩) (htop : y.record.lease.epoch < epochTop) :
    ∃ z, (startOffer x dev fold desc s).sess x = some z ∧ z.record.lease = ⟨s.selfNo, 1, y.record.lease.epoch + 1⟩ ∧
      z.record.peer = ⟨dev, fold, y.record.lease.epoch + 1⟩ ∧ z.record.state = stateMoving ∧
      z.record.offerDeadline = s.now + max 1000 (s.act rSessOfferLimit) ∧ z.move.isSome = true := by
  obtain ⟨m, hm⟩ : ∃ m : Move,
      m = { stage := 0, device := dev, fold := fold, epoch := y.record.lease.epoch + 1, desc := desc
            continueTurn := y.record.turnCarried, lastPoll := 0, pulled := [] } := ⟨_, rfl⟩
  obtain ⟨n, u, hwritten, hu, hregs, htimer⟩ := offer_written m ⟨dev, fold, y.record.lease.epoch + 1⟩ hy hhome
  obtain ⟨hkeptHome, hkeptLease, hkeptMove, hkeptPeer⟩ := offering_kept m ⟨dev, fold, y.record.lease.epoch + 1⟩ n y
  have hself : u.selfNo = s.selfNo := by rw [State.selfNo, State.act_congr s _ _ hregs]; rfl
  have hlimit : u.act rSessOfferLimit = s.act rSessOfferLimit := State.act_congr s _ _ hregs
  have hnow : u.now = s.now := by rw [State.now, State.now, htimer]
  have hswapped := sess_modSess_of hu (Sess.observe u.now (max 1000 (u.act rSessOfferLimit)) ⟨u.selfNo, 1, y.record.lease.epoch + 1⟩)
  have hgood := offerSwapped_good (st := stStaleEpoch) hswapped (hkeptHome.trans hhome) hkeptMove (by rw [hm])
  refine ⟨_, Eq.trans ?_ hgood, ?_⟩
  · unfold startOffer
    rw [hy]
    dsimp only
    rw [← hm, if_neg (Nat.not_le.mpr htop), if_pos hhome, hwritten, homeCas_eq hu (hkeptHome.trans hhome), if_pos (by rw [hkeptLease, hlease, hself])]
    rfl
  · rw [hnow, hlimit, hself]
    exact ⟨rfl, hkeptPeer, rfl, rfl, rfl⟩

theorem streamBlock_beginDesc (d e : Desc) (f op : Nat) (s : State) : streamBlock e f (beginDesc op d s) = streamBlock e f s := rfl

/-- Settles O12: at a home that is here every swap and write is the directory's own; the rest is the branch of its row. -/
theorem movesAndRecovery : Obligations.MovesAndRecovery := by
  unfold Obligations.MovesAndRecovery
  refine ⟨fun x y old new s => homeCas_eq, ?offer, fun x dev fold desc y s => startOffer_home, ?accept, ?recover, ?pull, ?poll, ?deadline⟩
  case offer =>
    intro d y s hadm hres hmode hdev hfold hlease hresting hclean
    obtain ⟨hbusy, hrest⟩ := hresting
    refine next_ite_descriptorAs (by simp [hmode]) hadm (by simp [hres, hmode, hfold]; omega) (congrArg Except.ok ?_)
    rw [withLease_leased (leased_begun hlease opSessionMove), offerBody]
    dsimp only
    rw [if_neg (by simp [hbusy]), if_neg (by simp [hrest, hclean])]
  case accept =>
    intro d y s hadm hres hmode hcarried hblock hy hhome
    refine next_ite_descriptorAs (by simp [hmode]) hadm (by simp [hres, hmode, hcarried]) ?_
    unfold acceptBody
    dsimp only
    rw [if_neg (by simp [streamBlock_beginDesc, hblock]), show (beginDesc opSessionMove d s).sess d.session = some y from hy]
    dsimp only
    rw [if_pos hhome]
  case recover =>
    intro d y s hadm hres hmode hblock hy hheld
    refine next_ite_descriptorAs (by simp [hmode]) hadm (by simp [hres, hmode]) ?_
    dsimp only
    rw [if_neg (by simp [streamBlock_beginDesc, hblock]), recoverStart, show (beginDesc opSessionRevive d s).sess d.session = some y from hy]
    dsimp only
    rw [if_pos (by simpa [or_assoc] using hheld)]
  case pull =>
    intro x y m s r hready hy hmove hstage hwhole hrebuilt hhome
    refine next_serve hready ?_
    rw [hy]
    dsimp only
    rw [hmove]
    dsimp only
    rw [if_neg (by simp [hstage, hwhole]), hrebuilt]
    dsimp only
    rw [if_pos hhome]
  case poll =>
    intro x y m s hready hy hmove hstage hdue hasking hhome
    refine next_serve hready ?_
    rw [hy]
    dsimp only
    rw [hmove]
    dsimp only
    rw [if_neg (by simp [hstage, hasking]; omega), if_pos hhome]
  case deadline =>
    intro x y s hready hy hhome hlease hdue hasking
    refine next_serve hready ?_
    rw [hy]
    dsimp only
    rw [if_neg, if_pos]
    · rcases hlease with h | ⟨-, h⟩ <;> simp [h]
    · rcases hlease with h | ⟨h, -⟩ <;> simp [hhome, h, hasking] <;> omega

end Sys2Proof.Machine
end

section
/-! SUPPORT. Stream queues: chunks, the head's re-read, resends and bank swaps (03 R83 to R88, R507). -/
namespace Sys2Proof.Machine
open Sys2Proof.Safety

/-- Whether the filling bank of a pen is to be swapped: full, with a packet waiting that it does not take, closed, or old enough. -/
def swapDue (s : State) (n : Nat) : Prop :=
  16 ≤ (s.pen n).filling.packets.length ∨ 256 ≤ bankWords (s.pen n).filling ∨ (s.pen n).filling.closed = true ∨
    (∃ p l, (s.pen n).waiting = p :: l ∧ bankTakes (s.pen n).filling p = false) ∨
    ∃ t, (s.pen n).filling.since = some t ∧ t * 1000 + s.act (rPenStreamSwapWait n) ≤ s.now * 1000

theorem setDraining_fillBank (x : Pen) (b : StreamBank) : (x.setDraining b).fillBank = x.fillBank := by
  unfold Pen.setDraining
  split <;> rfl

theorem streamBankSwap_due {n : Nat} {s : State} (hready : s.ready = true) (hempty : (s.pen n).draining.packets = [])
    (hreread : (s.pen n).reread = none) (hsome : (s.pen n).filling.packets ≠ []) (hdue : swapDue s n) :
    exec (.streamBankSwap n) s = .next (refillBank n (s.modPen n (fun x => { x.setDraining StreamBank.reset with fillBank := 1 - x.fillBank }))) := by
  refine next_serve hready ?_
  simp only [setDraining_fillBank]
  rw [hempty, hreread]
  unfold onlyIf
  refine if_pos ?_
  rcases hdue with h | h | h | ⟨p, l, hw, h⟩ | ⟨t, ht, h⟩
  · simp [hsome, h]
  · simp [hsome, h]
  · simp [hsome, h]
  · simp [hsome, hw, h]
  · simp [hsome, ht, h]

/-- Settles O13: each clause is the branch of the link writer's row that the bank, the head and the session lead to. -/
theorem streamQueues : Obligations.StreamQueues := by
  unfold Obligations.StreamQueues
  refine ⟨?chunk, ?reread, ?poll, ?resend, fun n s => streamBankSwap_due⟩
  case chunk =>
    intro n p rest y s hready hreread hpackets hy hoverflow hresend
    refine next_serve hready ?_
    rw [if_neg (by simp [hreread]), hpackets]
    dsimp only
    rw [hy]
    dsimp only
    rw [if_neg (by simp [hoverflow, hresend])]
  case reread =>
    intro n p y s u hready hreread hu hy
    refine next_serve hready ?_
    rw [hreread]
    dsimp only
    rw [← hu, hy]
  case poll =>
    intro x y s hready hy hwaits hdue
    refine next_serve hready ?_
    rw [hy]
    unfold onlyIf
    refine if_pos ?_
    rcases hwaits with h | h
    · simp [h, hdue]
    · simp [h, hdue]
  case resend =>
    intro d y s hadm hres hlease hfits hfloor hresend hentries
    refine next_descriptorAs hadm hres (congrArg Except.ok ?_)
    rw [withLease_leased (leased_begun hlease opStreamResend), resendBody]
    rw [if_neg (Nat.not_lt.mpr hfits), if_neg (by simp [hentries]), if_neg (Nat.not_lt.mpr hfloor), if_neg (by simp [hresend])]

end Sys2Proof.Machine
end

section
/-! SUPPORT. What placing and discarding sheets leaves of a fold: everything but its sheets, their moves, flash, cut and key (02, 07). -/
namespace Sys2Proof.Machine
open Sys2Proof.Safety

/-- A fold with what placing and discarding sheets can change left out. -/
def Fold.offSheets (x : Fold) : Fold :=
  { x with sheets := [], migs := [], requests := [], quotaOut := [], moveFail := [], quotaEvent := [], ns := Namespace.reset
           snap := Snap.reset, key := FoldKey.reset }

/-- Sessions are as they were, and of every fold all but `offSheets` leaves out. -/
def SheetWork (s t : State) : Prop := t.sessions = s.sessions ∧ ∀ g, (t.fold g).offSheets = (s.fold g).offSheets

theorem SheetWork.refl (s : State) : SheetWork s s := ⟨rfl, fun _ => rfl⟩
theorem SheetWork.trans {s t u : State} (h : SheetWork s t) (k : SheetWork t u) : SheetWork s u :=
  ⟨k.1.trans h.1, fun g => (k.2 g).trans (h.2 g)⟩
theorem SheetWork.after {s t u : State} (k : SheetWork t u) (h : SheetWork s t) : SheetWork s u := h.trans k
theorem SheetWork.ite {p : Prop} [Decidable p] {s t u : State} (ht : SheetWork s t) (hu : SheetWork s u) : SheetWork s (if p then t else u) := by
  split
  · exact ht
  · exact hu
theorem SheetWork.foldl {α : Type} {g : State → α → State} (hg : ∀ s a, SheetWork s (g s a)) (l : List α) (s : State) : SheetWork s (l.foldl g s) := by
  induction l generalizing s with
  | nil => exact .refl s
  | cons a l ih => exact (hg s a).trans (ih _)

theorem SheetWork.sessions {s t : State} (h : SheetWork s t) : t.sessions = s.sessions := h.1
theorem SheetWork.drain {s t : State} (h : SheetWork s t) (f : Nat) : (t.fold f).drain = (s.fold f).drain :=
  show (t.fold f).offSheets.drain = (s.fold f).offSheets.drain from congrArg Fold.drain (h.2 f)
theorem SheetWork.registering {s t : State} (h : SheetWork s t) (f : Nat) : (t.fold f).registering = (s.fold f).registering :=
  show (t.fold f).offSheets.registering = (s.fold f).offSheets.registering from congrArg Fold.registering (h.2 f)
theorem SheetWork.images {s t : State} (h : SheetWork s t) (f : Nat) : (t.fold f).images = (s.fold f).images :=
  show (t.fold f).offSheets.images = (s.fold f).offSheets.images from congrArg Fold.images (h.2 f)

/-- Neither sessions nor folds are touched. -/
theorem sheetWork_of_eq {s t : State} (hsessions : t.sessions = s.sessions) (hfolds : t.folds = s.folds) : SheetWork s t :=
  ⟨hsessions, fun g => by rw [State.fold, State.fold, hfolds]⟩

theorem sheetWork_of_errors {s t : State} (h : ErrorsOnly s t) : SheetWork s t := sheetWork_of_eq (by rw [h]) (by rw [h])
theorem sheetWork_of_records {s t : State} (h : RecordsOnly s t) : SheetWork s t := sheetWork_of_eq (by rw [h]) (by rw [h])

theorem modFold_sheetWork {s : State} {f : Nat} {g : Fold → Fold} (hg : (g (s.fold f)).offSheets = (s.fold f).offSheets) :
    SheetWork s (s.modFold f g) := by
  refine ⟨rfl, fun h => ?_⟩
  by_cases he : h = f
  · subst he
    rw [State.fold_modFold, hg]
  · rw [State.fold_modFold_ne _ _ he]

theorem modNs_sheetWork (s : State) (f : Nat) (g : Namespace → Namespace) : SheetWork s (s.modNs f g) :=
  modFold_sheetWork (g := fun x => { x with ns := g x.ns }) rfl

theorem putEntry_sheetWork (f i : Nat) (e : Sheet) (s : State) : SheetWork s (putEntry f i e s) :=
  modFold_sheetWork (g := fun x => { x with sheets := setN x.sheets i e }) rfl

theorem count_sheetWork (s : State) (k n : Nat) : SheetWork s (s.count k n) := sheetWork_of_errors (count_errors s k n)
theorem draw_sheetWork (s : State) : SheetWork s s.draw.2 := sheetWork_of_eq rfl rfl
theorem postFold_sheetWork (t f : Nat) (st fl : W16) (sp : List Byte) (s : State) : SheetWork s (postFold t f st fl sp s) :=
  sheetWork_of_records (postFold_records t f st fl sp s)

theorem setMem_sheetWork (s : State) (m : List Host.Cell) (p : List Nat) : SheetWork s { s with mem := m, poison := p } := sheetWork_of_eq rfl rfl

/-! ### Discarding -/

theorem abandonMig_sheetWork (f i : Nat) (s : State) : SheetWork s (abandonMig f i s) := by
  unfold abandonMig
  split
  · exact .refl s
  · refine .ite (.refl s) ((count_sheetWork _ _ _).after (modFold_sheetWork ?_))
    rfl

theorem releaseMig_sheetWork (f i : Nat) (s : State) : SheetWork s (releaseMig f i s) := by
  unfold releaseMig
  split
  · exact .refl s
  · have hdropped : SheetWork s (s.modFold f (fun x => { x with migs := delN x.migs i })) := modFold_sheetWork rfl
    exact .ite (.refl s) (.ite ((modNs_sheetWork _ _ _).after hdropped) hdropped)

theorem captureCopy_sheetWork (f i : Nat) (s : State) : SheetWork s (captureCopy f i s) := by
  unfold captureCopy
  split
  · split
    · refine SheetWork.trans ?_ (modFold_sheetWork rfl)
      exact (count_sheetWork _ _ _).after ((count_sheetWork s.draw.2 _ _).after (draw_sheetWork s))
    · exact modFold_sheetWork rfl
  · exact .refl s

theorem sweptOne_sheetWork (f : Nat) (e : Sheet) (s : State) : SheetWork s (sweptOne f e s) := .ite (modFold_sheetWork rfl) (.refl s)
theorem freeStorage_sheetWork (f : Nat) (e : Sheet) (s : State) : SheetWork s (freeStorage f e s) := .ite (modNs_sheetWork _ _ _) (.refl s)

/-- The fold without sheet `i`. -/
def Fold.withoutSheet (i : Nat) (x : Fold) : Fold :=
  { x with sheets := delN x.sheets i, migs := delN x.migs i, requests := x.requests.filter (fun r => r.1 != i), quotaOut := delN x.quotaOut i }

theorem withoutSheet_sheetWork (f i : Nat) (s : State) : SheetWork s (s.modFold f (Fold.withoutSheet i)) :=
  modFold_sheetWork (g := Fold.withoutSheet i) rfl

theorem discardSheet_sheetWork (f i : Nat) (s : State) : SheetWork s (discardSheet f i s) := by
  unfold discardSheet
  extract_lets s₁ e s₂ a s₃
  have hcopied : SheetWork s s₁ := (captureCopy_sheetWork f i _).after ((abandonMig_sheetWork f i _).after (releaseMig_sheetWork f i s))
  have hfreed : SheetWork s s₂ := (freeStorage_sheetWork f e _).after ((sweptOne_sheetWork f e s₁).after hcopied)
  have hgone : SheetWork s₂ s₃ := withoutSheet_sheetWork f i s₂
  exact .ite (.refl s) ((hfreed.trans hgone).trans (setMem_sheetWork s₃ _ _))

theorem discardAll_sheetWork (f : Nat) (l : List Nat) (s : State) : SheetWork s (discardAll f l s) :=
  .foldl (fun s i => discardSheet_sheetWork f i s) l s

/-! ### Placing -/

/-- What a chain of attempts has come to, when it has come to something. -/
theorem andThen_eq_ok {α β : Type} {t : Tried α} {g : α → Tried β} {b : β} (h : andThen t g = .ok b) : ∃ a, t = .ok a ∧ g a = .ok b := by
  cases t with
  | ok a => exact ⟨a, rfl, h⟩
  | error e => simp at h

theorem noteThresholds_sheetWork (f : Nat) (s₀ s : State) : SheetWork s (noteThresholds f s₀ s) :=
  .foldl (fun s _ => .ite (postFold_sheetWork _ _ _ _ _ s) (.refl s)) _ s

theorem placeSheet_sheetWork {f i pref kind : Nat} {pen : Option Nat} {only wet : Bool} {s t : State}
    (h : placeSheet f i pref kind pen only wet s = .ok t) : SheetWork s t := by
  unfold placeSheet at h
  dsimp only at h
  split at h
  · rename_i tier l u hfound
    obtain ⟨k, -, hk⟩ := List.mem_filterMap.mp (List.mem_of_mem_head? hfound)
    split at hk
    · simp at hk
    · obtain ⟨r, hr, hru⟩ := Option.map_eq_some_iff.mp hk
      obtain rfl : r.2 = u := congrArg (fun q => q.2.2) hru
      rw [← Except.ok.inj h, chooseLoc_draw hr]
      exact (noteThresholds_sheetWork f s _).after ((putEntry_sheetWork _ _ _ _).after (draw_sheetWork s))
  · split at h <;> simp at h

theorem newSheet_sheetWork {f pref kind : Nat} {pen : Option Nat} {only wet : Bool} {s : State} {r : Nat × State}
    (h : newSheet f pref kind pen only wet s = .ok r) : SheetWork s r.2 := by
  unfold newSheet at h
  split at h
  · simp at h
  · obtain ⟨u, hu, hr⟩ := andThen_eq_ok h
    rw [← Except.ok.inj hr]
    exact placeSheet_sheetWork hu

theorem weightT2_sheetWork {f : Nat} {h : Option TileHead} {l : List Byte} {s : State} {r : Nat × State} (hr : weightT2 f h l s = .ok r) :
    SheetWork s r.2 := by
  obtain ⟨u, hu, hr⟩ := andThen_eq_ok hr
  rw [← Except.ok.inj hr]
  exact (putEntry_sheetWork _ _ _ _).after (SheetWork.trans (newSheet_sheetWork hu) (sheetWork_of_eq rfl rfl))

theorem weightSheets_sheetWork {f : Nat} (l : List (Option TileHead × List Byte)) :
    ∀ (s : State) (r : List Nat × State), weightSheets f l s = .ok r → SheetWork s r.2 := by
  induction l with
  | nil =>
    intro s r h
    rw [← Except.ok.inj h]
    exact .refl s
  | cons a l ih =>
    intro s r h
    obtain ⟨u, hu, hr⟩ := andThen_eq_ok h
    split at hr
    · rename_i q hq
      rw [← Except.ok.inj hr]
      exact (weightT2_sheetWork hu).trans (ih u.2 q hq)
    · simp at hr

end Sys2Proof.Machine
end

section
/-! SUPPORT. Messages between members, and a fold's part of a commit, by what they leave as it was (05, 13, 19). -/
namespace Sys2Proof.Machine
open Sys2Proof.Safety

theorem mail_sends {f d : Nat} {m : Mail} {p : Purpose} {desc : Option (Nat × Desc)} {s : State} :
    (∀ t, mail f m d p desc s = .ok t → SendsOnly s t) ∧ (∀ e, mail f m d p desc s = .error e → SendsOnly s e.2) :=
  fabRequestWith_sends [] p (some f) desc _ s

theorem mailTo_sends (f : Nat) (m : Mail) (d : Nat) (s : State) : SendsOnly s (mailTo f m d s) := by
  unfold mailTo
  split
  · rename_i hsent
    exact mail_sends.1 _ hsent
  · rename_i hlost
    exact mail_sends.2 _ hlost

theorem mailRoot_sends (f : Nat) (m : Mail) (s : State) : SendsOnly s (mailRoot f m s) := .ite (fun _ => .refl s) (fun _ => mailTo_sends f m _ s)

theorem mailOthers_sends (f : Nat) (m : Mail) (s : State) : SendsOnly s (mailOthers f m s) := .foldl (fun s d => mailTo_sends f m d s) _ s

theorem SendsOnly.fold {s t : State} (h : SendsOnly s t) (f : Nat) : t.fold f = s.fold f := by rw [State.fold, State.fold, h.folds]

theorem postSession_records (t : Nat) (x : W64) (st fl tag : W16) (op : Nat) (sp : List Byte) (s : State) :
    RecordsOnly s (postSession t x st fl tag op sp s) := by
  unfold postSession
  split
  · exact .refl s
  · exact postTo_records _ _ _

/-- What becomes active leaves the registers it does not select. -/
theorem act_applyPend {sel : Nat → Bool} {k : Nat} (s : State) (h : sel k = false) : (applyPend sel s).act k = s.act k := by
  have hkeys : ∀ (l : List (Nat × W64)) (s : State), (∀ p ∈ l, p.1 ≠ k) →
      (l.foldl (fun s (p : Nat × W64) => applyKey p.1 p.2 s) s).act k = s.act k := by
    intro l
    induction l with
    | nil => exact fun s _ => rfl
    | cons p l ih =>
      intro s hne
      rw [List.foldl_cons, ih _ (fun q hq => hne q (List.mem_cons_of_mem p hq))]
      exact State.act_setAct_ne s _ (hne p List.mem_cons_self).symm
  exact hkeys (s.regs.pend.filter (fun p => sel p.1)) s (fun p hp hk => by simp [List.mem_filter, hk, h] at hp)

end Sys2Proof.Machine
end

section
/-! SUPPORT. Registering, activating and retiring images (07 R200 to R203). -/
namespace Sys2Proof.Machine
open Sys2Proof.Safety

/-! ### MODEL_REGISTER (07 R200) -/

/-- Registration `g` entered in slot `k`. -/
def Fold.registered (k : Nat) (g : Registration) (x : Fold) : Fold := { x with registering := setN x.registering k g }
/-- The registration in slot `k` begun. -/
def Fold.begun (k : Nat) (x : Fold) : Fold := { x with registering := modN x.registering k (fun g => { g with begun := true }) }

theorem begun_eq (k : Nat) :
    (fun x : Fold => { x with registering := modN x.registering k (fun g => { g with begun := true }) }) = Fold.begun k := rfl

/-- The sheets of the registration in slot `k`: of its own share, of its understudy share, how many. -/
def Fold.placed (k : Nat) (a b : List Nat) (n : Nat) (x : Fold) : Fold :=
  { x with registering := modN x.registering k (fun g => { g with image := { g.image with ownSheets := a, understudySheets := b }, total := n }) }
/-- The registration in slot `k` done: its image is `img`. -/
def Fold.recorded (k : Nat) (img : Image) (x : Fold) : Fold := { x with registering := delN x.registering k, images := setN x.images k img }

theorem finishRegistration_some {f k : Nat} {g : Registration} {s : State} (h : getN (s.fold f).registering k = some g) :
    finishRegistration f k s = complete opModelRegister g.desc stOk 0 (leBytes 4 g.total) (s.modFold f (Fold.recorded k g.image)) := by
  unfold finishRegistration
  rw [h]
  rfl

theorem recorded_image {f k : Nat} {img : Image} (s : State) :
    (s.modFold f (Fold.recorded k img)).image f k = some img ∧ hasN ((s.modFold f (Fold.recorded k img)).fold f).registering k = false := by
  simp [State.image, Fold.recorded, hasN]

theorem begun_registering {f k : Nat} {g : Registration} (b : State) :
    getN ((((b.modFold f (Fold.registered k g)).modFold f (Fold.begun k))).fold f).registering k = some { g with begun := true } := by
  simp [Fold.begun, Fold.registered, getN_modN_self]

/-- A registration whose sheets are all in T2 is finished. -/
theorem runRegistration_stored {f k : Nat} {d : Desc} {b v : State} {c payload : List Byte} {img : Image} {g : Registration} {own under : List Nat × State}
    (hc : b.hostRead f (descNum d 16 6) (descNum d 24 8) = .ok c) (hstore : img.store = 2)
    (hg : g = { desc := d, container := c, image := img, begun := false, left := [], total := 0 })
    (hv : v = (b.modFold f (Fold.registered k g)).modFold f (Fold.begun k)) (hpayload : registerPayload f c img v = .ok payload)
    (hown : weightSheets f ((shareHeads img (ownShare v f img) k 0).zip (shareContents (ownShare v f img) payload)) v = .ok own)
    (hunder : weightSheets f ((shareHeads img (understudyShare v f img) k 1).zip (shareContents (understudyShare v f img) payload)) own.2 = .ok under) :
    ∃ w, runRegistration f k (b.modFold f (Fold.registered k g)) =
        complete opModelRegister d stOk 0 (leBytes 4 (shareCount (ownShare v f img) + shareCount (understudyShare v f img))) w ∧
      w.image f k = some { img with ownSheets := own.1, understudySheets := under.1 } ∧ hasN (w.fold f).registering k = false := by
  have hentered : getN ((b.modFold f (Fold.registered k g)).fold f).registering k = some g := by simp [Fold.registered]
  have hwork : SheetWork v under.2 := (weightSheets_sheetWork _ v own hown).trans (weightSheets_sheetWork _ own.2 under hunder)
  have hbegun : getN (under.2.fold f).registering k = some { g with begun := true } := by
    rw [hwork.registering, hv]
    exact begun_registering b
  obtain ⟨n, hn⟩ : ∃ n, n = shareCount (ownShare v f img) + shareCount (understudyShare v f img) := ⟨_, rfl⟩
  obtain ⟨u, hu⟩ : ∃ u, u = under.2.modFold f (Fold.placed k own.1 under.1 n) := ⟨_, rfl⟩
  have hplaced : getN (u.fold f).registering k =
      some { g with begun := true, image := { img with ownSheets := own.1, understudySheets := under.1 }, total := n } := by
    rw [hu, State.fold_modFold, Fold.placed, getN_modN_self, hbegun, hg]
    rfl
  have hread : (b.modFold f (Fold.registered k g)).hostRead f (descNum d 16 6) (descNum d 24 8) = .ok c := hc
  have hfinished := finishRegistration_some hplaced
  refine ⟨u.modFold f (Fold.recorded k { img with ownSheets := own.1, understudySheets := under.1 }), Eq.trans ?_ (hfinished.trans ?_), recorded_image u⟩
  · have hdesc : g.desc = d := by rw [hg]
    have hcontainer : g.container = c := by rw [hg]
    have himage : g.image = img := by rw [hg]
    unfold runRegistration
    rw [hentered]
    dsimp only
    rw [hdesc, hread, hcontainer, himage]
    dsimp only
    rw [List.take_append_drop, begun_eq, ← hv, hpayload]
    dsimp only
    rw [if_pos hstore, hown, andThen_ok, hunder]
    dsimp only
    rw [if_pos hstore, hu, hn]
    rfl
  · rw [hg, hn]

/-! ### MODEL_REGISTER's rows -/

theorem next_modelRegister {d : Desc} {s b t : State} {f k store : Nat} {c : List Byte} {r : Image × Bool × State} (hf : f = s.ringOwner d.ring)
    (hk : k = descByte d 32) (hb : b = beginDesc opModelRegister d s) (hadm : Admitted opModelRegister false d s)
    (hres : bodyReserved d [(16, 21), (24, 33)] = true) (hslot : k ≤ 31) (hstore : store = descByte d 33)
    (hwhere : store = 2 ∨ (store = 3 ∧ (s.fold f).ns.state ≠ nsAbsent)) (hfree : hasN (s.fold f).images k = false)
    (hidle : hasN (s.fold f).registering k = false) (hc : s.hostRead f (descNum d 16 6) (descNum d 24 8) = .ok c)
    (hchecks : registerChecks f store c b = .ok r)
    (ht : t = if r.2.1 = true then r.2.2.modFold f (Fold.registered k { desc := d, container := c, image := r.1, begun := false, left := [], total := 0 })
      else runRegistration f k (r.2.2.modFold f (Fold.registered k { desc := d, container := c, image := r.1, begun := false, left := [], total := 0 }))) :
    exec (.modelRegister d) s = .next t := by
  subst hb hf hk hstore ht
  refine next_descriptor hadm hres ?_
  dsimp only [beginDesc_descFold]
  have hplace : ¬(decide (31 < descByte d 32) || !(descByte d 33 == 2 || descByte d 33 == 3 &&
      ((beginDesc opModelRegister d s).fold (s.ringOwner d.ring)).ns.state != nsAbsent)) = true := by
    rcases hwhere with h | ⟨h, hthere⟩
    · simp [h]
      omega
    · simp [h, hthere]
      omega
  have hempty : ¬(hasN ((beginDesc opModelRegister d s).fold (s.ringOwner d.ring)).images (descByte d 32) ||
      hasN ((beginDesc opModelRegister d s).fold (s.ringOwner d.ring)).registering (descByte d 32)) = true := by
    have hfold : (beginDesc opModelRegister d s).fold (s.ringOwner d.ring) = s.fold (s.ringOwner d.ring) := rfl
    simp [hfold, hfree, hidle]
  refine (if_neg hplace).trans ((if_neg hempty).trans ?_)
  rw [beginDesc_hostRead, hc]
  dsimp only
  rw [hchecks, andThen_ok]
  rfl

/-! ### MODEL_ACTIVATE (07 R201) -/

theorem mem_insertBy {α : Type} {le : α → α → Bool} {a b : α} {l : List α} : b ∈ insertBy le a l ↔ b = a ∨ b ∈ l := by
  induction l with
  | nil => simp [insertBy]
  | cons c l ih =>
    unfold insertBy
    split <;> simp [ih]
    exact or_left_comm

/-- A request for the same session, class and place in line. -/
def AdmitReq.same (q r : AdmitReq) : Prop := r.session = q.session ∧ r.lc = q.lc ∧ r.arrival = q.arrival

/-- Sequences, memory and sessions are as they were, and no request for admission is lost. -/
def AdmissionKept (f : Nat) (s t : State) : Prop :=
  (t.fold f).seqs = (s.fold f).seqs ∧ t.mem = s.mem ∧ t.sessions = s.sessions ∧ ∀ q ∈ (s.fold f).queue, q ∈ (t.fold f).queue

theorem AdmissionKept.trans {f : Nat} {s t u : State} (h : AdmissionKept f s t) (k : AdmissionKept f t u) : AdmissionKept f s u :=
  ⟨k.1.trans h.1, k.2.1.trans h.2.1, k.2.2.1.trans h.2.2.1, fun q hq => k.2.2.2 q (h.2.2.2 q hq)⟩

theorem admissionKept_of_sends {f : Nat} {s t : State} (h : SendsOnly s t) : AdmissionKept f s t :=
  ⟨by rw [h.fold], h.mem, h.sessions, fun q hq => by rw [h.fold]; exact hq⟩

theorem postDeferred_kept (f : Nat) (x : W64) (lc : Bool) (reason ahead : Nat) (tag : W16) (op : Nat) (s : State) :
    AdmissionKept f s (postDeferred f x lc reason ahead tag op s) := by
  have hposted : ∀ sp, RecordsOnly s (postSession evAdmitDeferred x stDeferred 0 tag op sp s) := fun sp => postSession_records _ _ _ _ _ _ sp s
  have hfold : ∀ sp, (postSession evAdmitDeferred x stDeferred 0 tag op sp s).fold f = s.fold f := fun sp => by
    rw [State.fold, State.fold, hposted sp]
  unfold postDeferred modClass
  refine ⟨?_, ?_, ?_, fun q hq => ?_⟩
  · rw [State.fold_modFold, hfold]
    split <;> rfl
  · rw [State.modFold, State.setFold, hposted]
  · rw [State.modFold, State.setFold, hposted]
  · rw [State.fold_modFold, hfold]
    split <;> exact hq

theorem announce_kept (f : Nat) (x : W64) (reason ahead : Nat) (s : State) : AdmissionKept f s (announce f x reason ahead s) := by
  unfold announce
  split
  · exact postDeferred_kept _ _ _ _ _ _ _ _
  · split
    · exact postDeferred_kept _ _ _ _ _ _ _ _
    · exact ⟨rfl, rfl, rfl, fun q hq => hq⟩

theorem putReq_kept (f : Nat) (q : AdmitReq) (s : State) : AdmissionKept f s (putReq f q s) ∧ q ∈ ((putReq f q s).fold f).queue := by
  unfold putReq
  refine ⟨⟨by rw [State.fold_modFold], rfl, rfl, fun r hr => ?_⟩, ?_⟩
  · rw [State.fold_modFold]
    exact mem_insertBy.mpr (.inr hr)
  · rw [State.fold_modFold]
    exact mem_insertBy.mpr (.inl rfl)

/-- Requests put back one after the other: all that were there stay, and each that is put back is there. -/
theorem foldl_admissionKept {f : Nat} {step : State → AdmitReq → State} {back : AdmitReq → AdmitReq}
    (hstep : ∀ s q, AdmissionKept f s (step s q) ∧ back q ∈ ((step s q).fold f).queue) (l : List AdmitReq) (s : State) :
    AdmissionKept f s (l.foldl step s) ∧ ∀ q ∈ l, back q ∈ ((l.foldl step s).fold f).queue := by
  induction l generalizing s with
  | nil => exact ⟨⟨rfl, rfl, rfl, fun q hq => hq⟩, fun q hq => by simp at hq⟩
  | cons a l ih =>
    obtain ⟨hkept, hback⟩ := ih (step s a)
    refine ⟨(hstep s a).1.trans hkept, fun q hq => ?_⟩
    rcases List.mem_cons.mp hq with rfl | hq
    · exact hkept.2.2.2 _ (hstep s q).2
    · exact hback q hq

/-- Admission that stops loses no request: a promised slot becomes a request in line. -/
theorem stopAdmission_kept (f : Nat) (s : State) :
    ((stopAdmission f s).fold f).seqs = (s.fold f).seqs ∧ (stopAdmission f s).mem = s.mem ∧ (stopAdmission f s).sessions = s.sessions ∧
      ∀ q ∈ (s.fold f).queue, ∃ r ∈ ((stopAdmission f s).fold f).queue, q.same r := by
  unfold stopAdmission
  extract_lets room g s₁
  have hput : ∀ s (q : AdmitReq), AdmissionKept f s (putReq f { q with granted := false } (match q.owner with
      | none => announce f q.session 1 ((s.fold f).ahead q.lc q.arrival) s
      | some d => mailTo f (.deferred q.session 1 ((s.fold f).ahead q.lc q.arrival)) d s)) ∧
      { q with granted := false } ∈ ((putReq f { q with granted := false } (match q.owner with
      | none => announce f q.session 1 ((s.fold f).ahead q.lc q.arrival) s
      | some d => mailTo f (.deferred q.session 1 ((s.fold f).ahead q.lc q.arrival)) d s)).fold f).queue := by
    intro s q
    obtain ⟨hkept, hthere⟩ := putReq_kept f { q with granted := false } (match q.owner with
      | none => announce f q.session 1 ((s.fold f).ahead q.lc q.arrival) s
      | some d => mailTo f (.deferred q.session 1 ((s.fold f).ahead q.lc q.arrival)) d s)
    refine ⟨AdmissionKept.trans ?_ hkept, hthere⟩
    split
    · exact announce_kept _ _ _ _ _
    · exact admissionKept_of_sends (mailTo_sends _ _ _ _)
  obtain ⟨⟨hseqs, hmem, hsessions, hkept⟩, hback⟩ := foldl_admissionKept hput g s₁
  refine ⟨hseqs.trans (by simp [s₁]), hmem, hsessions, fun q hq => ?_⟩
  by_cases hg : q ∈ g
  · exact ⟨_, hback q hg, rfl, rfl, rfl⟩
  · refine ⟨q, hkept q ?_, rfl, rfl, rfl⟩
    simp [s₁, hq, hg]

/-- Drain `q` under way, or none. -/
def Fold.draining (q : Option Drain) (x : Fold) : Fold := { x with drain := q }

theorem draining_eq (q : Option Drain) : (fun x : Fold => { x with drain := q }) = Fold.draining q := rfl

theorem leadDrain_eq (f : Nat) (q : Drain) (s : State) : leadDrain f q s = (stopAdmission f s).modFold f (Fold.draining (some q)) := rfl

/-- The root's drain: it runs, and admission has stopped without losing a request. -/
theorem leadDrain_kept (f : Nat) (q : Drain) (s : State) :
    ((leadDrain f q s).fold f).drain = some q ∧ ((leadDrain f q s).fold f).seqs = (s.fold f).seqs ∧ (leadDrain f q s).mem = s.mem ∧
      (leadDrain f q s).sessions = s.sessions ∧ ∀ r ∈ (s.fold f).queue, ∃ t ∈ ((leadDrain f q s).fold f).queue, r.same t := by
  obtain ⟨hseqs, hmem, hsessions, hqueue⟩ := stopAdmission_kept f s
  rw [leadDrain_eq, State.fold_modFold]
  exact ⟨rfl, hseqs, hmem, hsessions, hqueue⟩

/-- Window depth of 07 R201 taken: registers alone change, and no register that tells the root. -/
theorem takeDepth_regs_only (f : Nat) (s : State) : takeDepth f s = { s with regs := (takeDepth f s).regs } := applyPend_regs_only _ s

theorem takeDepth_isRoot (f : Nat) (s : State) : (takeDepth f s).isRoot f = s.isRoot f :=
  isRoot_of_act (act_applyPend s (by simp only [rFabFoldMember, rScrWindowDepth, beq_eq_false_iff_ne]; omega))
    (act_applyPend s (by simp only [rFabFoldDrove, rScrWindowDepth, beq_eq_false_iff_ne]; omega))
    (act_applyPend s (by simp only [rFabSelf, rScrWindowDepth, beq_eq_false_iff_ne]; omega))

theorem next_modelActivate {d : Desc} {s b : State} {f : Nat} {img : Image} (hf : f = s.ringOwner d.ring)
    (hb : b = takeDepth f (beginDesc opModelActivate d s)) (hadm : Admitted opModelActivate false d s)
    (hres : bodyReserved d [(32, 32), (36, 39)] = true) (hslot : descByte d 32 < 32) (himg : s.image f (descByte d 32) = some img)
    (hdrain : (s.fold f).drain = none) (hroot : s.isRoot f = true) (hpinned : img.pinnedSlots (b.act (rScrWindowDepth f)) ≤ 96)
    (hroom : poolExcess (s.fold f) (img.pinnedSlots (b.act (rScrWindowDepth f))) ≤ b.room f 2) :
    exec (.modelActivate d) s = .next (leadDrain f
      { kind := 1, deadline := s.now + descNum d 36 4, desc := d, arg := descByte d 32, loading := false, boundary := 0
        depth := b.act (rScrWindowDepth f) } b) := by
  have hregs : b = { beginDesc opModelActivate d s with regs := b.regs } := by
    rw [hb]
    exact takeDepth_regs_only _ _
  have hfold : b.fold f = s.fold f := by
    rw [hregs]
    rfl
  have hnow : b.now = s.now := by
    rw [hregs]
    rfl
  have hdesc : (beginDesc opModelActivate d s).descFold d = f := hf.symm
  refine next_descriptor hadm hres ?_
  dsimp only
  rw [hdesc, beginDesc_image, if_pos hslot, himg]
  dsimp only
  rw [← hb, hfold]
  refine (if_neg (by simp [hdrain])).trans ((if_neg (by omega)).trans ((if_neg (by omega)).trans ?_))
  unfold startDrain
  rw [if_pos (by rw [hb, takeDepth_isRoot]; exact hroot), hnow]

/-! ### The load at the boundary (07 R201, R202) -/

/-- Steps that leave the folds alone, one after the other. -/
theorem foldl_folds {α : Type} {g : State → α → State} (hg : ∀ s a, (g s a).folds = s.folds) (l : List α) (s : State) :
    (l.foldl g s).folds = s.folds := by
  induction l generalizing s with
  | nil => rfl
  | cons a l ih => exact (ih _).trans (hg s a)

theorem putBytes_folds (a : Nat) (l : List Byte) (bad : Bool) (s : State) : (putBytes a l bad s).folds = s.folds := by
  rw [putBytes_memory a l bad s]

theorem loadLayer_folds (n : Nat) (s : State) : (loadLayer n s).folds = s.folds := by
  unfold loadLayer
  split
  · rfl
  · split
    · rfl
    · extract_lets layers j gs g hold tiles base s₁
      split
      · rfl
      · exact foldl_folds (fun s t => putBytes_folds _ _ _ s) _ s

theorem fillPen_folds (f n : Nat) (img : Image) (s : State) : (fillPen f n img s).folds = s.folds := rfl

/-- Loading leaves the fold's image active. -/
theorem loadImage_active {f slot depth : Nat} {img : Image} {s t : State} (h : loadImage f slot depth img s = .ok t) :
    (t.fold f).active = some slot := by
  unfold loadImage at h
  obtain ⟨a, -, h⟩ := andThen_eq_ok h
  obtain ⟨b, -, h⟩ := andThen_eq_ok h
  obtain ⟨c, -, h⟩ := andThen_eq_ok h
  obtain ⟨w, hw⟩ : ∃ w, w = c.modFold f (fun x => { x with active := some slot, faulted := false }) := ⟨_, rfl⟩
  have hactive : (w.fold f).active = some slot := by rw [hw, State.fold_modFold]
  rw [← hw] at h
  have hfolds : t.folds = w.folds := by
    rw [← Except.ok.inj h]
    exact (foldl_folds (fun s n => foldl_folds (fun s _ => loadLayer_folds n s) _ s) _ _).trans (foldl_folds (fun s n => fillPen_folds f n _ s) _ w)
  rw [State.fold, hfolds]
  exact hactive

/-- What the load `t` leaves at the end of drain `q`. -/
def endLoad (f : Nat) (q : Drain) (t : Tried State) : State := match t with
  | .ok s => endDrain q stOk (leBytes 8 q.boundary) s
  | .error e => endDrain q e.1 [] (dropExpanded f e.2)

/-- The load's own answer ends the drain that it was for; a failure anywhere leaves the fold without an image. -/
theorem next_activateLoadComplete {f : Nat} {q : Drain} {img : Image} {st : W16} {s : State} (hready : s.ready = true)
    (hdrain : (s.fold f).drain = some q) (hloading : q.loading = true) (hkind : q.kind = 1) (himg : s.image f q.arg = some img) :
    exec (.activateLoadComplete f st) s = .next (endLoad f q
      (if (st == stOk) = true then loadImage f q.arg q.depth img (s.modFold f (Fold.draining none))
        else .error (st, s.modFold f (Fold.draining none)))) := by
  have himg' : (s.modFold f (Fold.draining none)).image f q.arg = some img := by
    rw [State.image, State.fold_modFold]
    exact himg
  have hload : andThen (loadImage f q.arg q.depth img (s.modFold f (Fold.draining none))) .ok =
      loadImage f q.arg q.depth img (s.modFold f (Fold.draining none)) := by
    cases loadImage f q.arg q.depth img (s.modFold f (Fold.draining none)) <;> rfl
  refine next_serve hready ?_
  rw [hdrain]
  dsimp only
  have hone : ¬(1 : Nat) = 2 := by decide
  rw [if_neg (by simp [hloading]), hkind, if_neg hone, draining_eq, himg']
  dsimp only
  rw [if_neg hone, hload]
  rfl

theorem endDrain_folds (q : Drain) (st : W16) (sp : List Byte) (s : State) : (endDrain q st sp s).folds = s.folds := by
  unfold endDrain
  split
  · rfl
  · exact complete_folds _ _ _ _ _ _

theorem dropExpanded_fold (f : Nat) (s : State) :
    ((dropExpanded f s).fold f).active = none ∧ ((dropExpanded f s).fold f).expanded = [] ∧ ((dropExpanded f s).fold f).drain = (s.fold f).drain := by
  unfold dropExpanded
  rw [State.fold_modFold]
  exact ⟨rfl, rfl, (discardAll_sheetWork f _ s).drain f⟩

/-! ### MODEL_RETIRE (07 R203) -/

/-- The image in slot `k` taken out. -/
def Fold.withoutImage (k : Nat) (x : Fold) : Fold := { x with images := delN x.images k }

theorem withoutImage_image {f k : Nat} (s : State) : (s.modFold f (Fold.withoutImage k)).image f k = none := by
  rw [State.image, State.fold_modFold]
  exact getN_delN_self _ k

theorem next_modelRetire {d : Desc} {s : State} {f : Nat} {img : Image} (hf : f = s.ringOwner d.ring) (hadm : Admitted opModelRetire false d s)
    (hres : bodyReserved d [(32, 32)] = true) (hslot : descByte d 32 < 32) (himg : s.image f (descByte d 32) = some img)
    (hidle : hasN (s.fold f).registering (descByte d 32) = false) (hactive : (s.fold f).active ≠ some (descByte d 32))
    (hdrain : (s.fold f).drain = none)
    (hunused : ∀ p ∈ s.sessions, p.2.fold = f → (p.2.isOwner = true ∨ p.2.record.state = stateStranded) →
      p.2.record.imageSlot = descByte d 32 → p.2.record.state = stateClosed) :
    exec (.modelRetire d) s = .next (complete opModelRetire d stOk 0 []
      ((discardAll f (img.ownSheets ++ img.understudySheets) (beginDesc opModelRetire d s)).modFold f (Fold.withoutImage (descByte d 32)))) := by
  have hdesc : (beginDesc opModelRetire d s).descFold d = f := hf.symm
  have hfold : (beginDesc opModelRetire d s).fold f = s.fold f := rfl
  refine next_descriptor hadm hres ?_
  dsimp only
  rw [hdesc, beginDesc_image, hfold, if_pos hslot, himg]
  refine (if_neg (by simp [hidle])).trans ?_
  dsimp only
  refine (if_neg ?_).trans rfl
  have hnone : (s.sessions.any fun p => p.2.fold == f && (p.2.isOwner || p.2.record.state == stateStranded) &&
      p.2.record.imageSlot == descByte d 32 && p.2.record.state != stateClosed) = false := by
    rw [List.any_eq_false]
    intro p hp hused
    simp only [Bool.and_eq_true, beq_iff_eq, Bool.or_eq_true, bne_iff_ne] at hused
    obtain ⟨⟨⟨hfold, hheld⟩, hslot⟩, hopen⟩ := hused
    exact hopen (hunused p hp hfold hheld hslot)
  simp [hactive, hdrain, hnone]

/-! ### The statement -/

/-- Settles O17: registration is `runRegistration_stored`; the root's drain loses no request since a promised slot becomes a request in line. -/
theorem registeringAndActivatingImages : Obligations.RegisteringAndActivatingImages := by
  unfold Obligations.RegisteringAndActivatingImages
  refine ⟨?_, ?_, ?_, ?_, ?_, ?_⟩
  · intro d s b v f k c payload img g own under hf hk hb hadm hres hslot htwo hfree hidle hc hchecks hstore hg hv hpayload hown hunder
    have hread : b.hostRead f (descNum d 16 6) (descNum d 24 8) = .ok c := by rw [hb]; exact hc
    obtain ⟨w, hrun, himage, hdone⟩ := runRegistration_stored hread hstore hg hv hpayload hown hunder
    refine ⟨_, w, ?_, rfl, himage, hdone⟩
    refine next_modelRegister hf hk hb hadm hres hslot htwo.symm (.inl rfl) hfree hidle hc hchecks ?_
    rw [← hrun, hg]
    exact (if_neg Bool.false_ne_true).symm
  · intro d s b f k c img hf hk hb hadm hres hslot hthree hns hfree hidle hc hchecks
    refine next_modelRegister hf hk hb hadm hres hslot hthree.symm (.inr ⟨rfl, by rw [hns]; decide⟩) hfree hidle hc hchecks ?_
    exact (if_pos rfl).symm
  · intro d s b f img hf hb hadm hres hslot himg hdrain hroot hpinned hroom
    obtain ⟨q, hq⟩ : ∃ q : Drain, q = { kind := 1, deadline := s.now + descNum d 36 4, desc := d, arg := descByte d 32, loading := false
                                        boundary := 0, depth := b.act (rScrWindowDepth f) } := ⟨_, rfl⟩
    have hexec := next_modelActivate hf hb hadm hres hslot himg hdrain hroot hpinned hroom
    have hregs : b = { beginDesc opModelActivate d s with regs := b.regs } := by rw [hb]; exact takeDepth_regs_only _ _
    have hfold : b.fold f = s.fold f := by rw [hregs]; rfl
    have hmem : b.mem = s.mem := by rw [hregs]; rfl
    have hsessions : b.sessions = s.sessions := by rw [hregs]; rfl
    rw [← hq] at hexec ⊢
    obtain ⟨hnow, hseqs, hkeptmem, hkeptsess, hqueue⟩ := leadDrain_kept f q b
    rw [hfold] at hseqs hqueue
    exact ⟨_, hexec, hnow, hqueue, hseqs, hkeptmem.trans hmem, hkeptsess.trans hsessions⟩
  · intro f q img s t hready hdrain hloading hkind hissuer himg hload
    refine ⟨loadImage_active hload, ?_⟩
    rw [next_activateLoadComplete hready hdrain hloading hkind himg]
    rw [draining_eq] at hload
    rw [if_pos (by simp), hload]
    simp only [endLoad, endDrain, hissuer, hkind]
    rfl
  · intro f q img st s hready hdrain hloading hkind himg hst
    refine ⟨_, next_activateLoadComplete hready hdrain hloading hkind himg, ?_⟩
    rw [if_neg (by simpa using hst)]
    unfold endLoad
    obtain ⟨hactive, hexpanded, hgone⟩ := dropExpanded_fold f (s.modFold f (Fold.draining none))
    rw [State.fold, endDrain_folds]
    exact ⟨hactive, hgone.trans (by rw [State.fold_modFold]; rfl), hexpanded⟩
  · intro d s f img hf hadm hres hslot himg hidle hactive hdrain hunused
    refine ⟨_, next_modelRetire hf hadm hres hslot himg hidle hactive hdrain hunused, ?_, ?_, ?_⟩
    · rw [State.image, State.fold, complete_folds]
      exact withoutImage_image _
    · rw [complete_sessions]
      exact (discardAll_sheetWork f _ _).sessions
    · rw [complete_mem]
      rfl

end Sys2Proof.Machine
end

section
/-! SUPPORT. Snapshots: the cut, the drain into the store, the shard's report, the end at a member, and the restore of one session (14). -/
namespace Sys2Proof.Machine
open Sys2Proof.Safety

/-! ### A location in T2 where not all are used (02 R37) -/

theorem firstFrom_exists {p : Nat → Bool} {j : Nat} : ∀ {n r : Nat}, j < n → p (r + j) = true → ∃ k, firstFrom p n r = some k := by
  induction j with
  | zero =>
    intro n r hj hp
    obtain ⟨n, rfl⟩ : ∃ m, n = m + 1 := ⟨n - 1, by omega⟩
    exact ⟨r, if_pos hp⟩
  | succ j ih =>
    intro n r hj hp
    obtain ⟨n, rfl⟩ : ∃ m, n = m + 1 := ⟨n - 1, by omega⟩
    unfold firstFrom
    split
    · exact ⟨r, rfl⟩
    · exact ih (by omega) (by rw [show r + 1 + j = r + (j + 1) by omega]; exact hp)

/-- The channels of pens `l`. -/
def channelsOf (l : List Nat) : List Nat := l.flatMap (fun p => [4 * p, 4 * p + 1, 4 * p + 2, 4 * p + 3])
/-- T2 location `k` of `chans`, channel after channel. -/
def channelLoc (chans : List Nat) (k : Nat) : Nat := chans.getD (k % chans.length) 0 + k / chans.length * 256

theorem channelsOf_length (l : List Nat) : (channelsOf l).length = 4 * l.length := by
  induction l with
  | nil => rfl
  | cons p l ih =>
    rw [channelsOf, List.flatMap_cons, List.length_append, ← channelsOf, ih]
    simp only [List.length_cons, List.length_nil]
    omega

theorem mem_channelsOf {l : List Nat} {c : Nat} : c ∈ channelsOf l ↔ c / 4 ∈ l := by
  simp only [channelsOf, List.mem_flatMap, List.mem_cons, List.not_mem_nil, or_false]
  constructor
  · rintro ⟨p, hp, hc⟩
    rwa [show c / 4 = p by omega]
  · exact fun h => ⟨c / 4, h, by omega⟩

theorem channelsOf_nodup {l : List Nat} (h : l.Nodup) : (channelsOf l).Nodup := by
  induction l with
  | nil => exact List.nodup_nil
  | cons p l ih =>
    obtain ⟨hnew, hrest⟩ := List.nodup_cons.mp h
    rw [channelsOf, List.flatMap_cons, ← channelsOf, List.nodup_append]
    refine ⟨by simp, ih hrest, fun a ha b hb => ?_⟩
    have hquarter : a / 4 = p := by simp at ha; omega
    rintro rfl
    exact hnew (hquarter ▸ mem_channelsOf.mp hb)

theorem penList_nodup (x : Fold) : x.penList.Nodup := List.nodup_range.filter _

theorem penList_lt {x : Fold} {p : Nat} (h : p ∈ x.penList) : p < 64 := List.mem_range.mp (List.mem_filter.mp h).1

/-- Different numbers are different locations. -/
theorem channelLoc_injective {chans : List Nat} (hnodup : chans.Nodup) (hlt : ∀ c ∈ chans, c < 256) (hne : 0 < chans.length) {a b : Nat}
    (h : channelLoc chans a = channelLoc chans b) : a = b := by
  have hget : ∀ k, chans.getD (k % chans.length) 0 = chans[k % chans.length]'(Nat.mod_lt k hne) :=
    fun k => getD_of_lt _ (Nat.mod_lt k hne)
  have hsmall : ∀ k, chans.getD (k % chans.length) 0 < 256 := fun k => by
    rw [hget]
    exact hlt _ (List.getElem_mem _)
  unfold channelLoc at h
  have ha := hsmall a
  have hb := hsmall b
  have hchan : chans.getD (a % chans.length) 0 = chans.getD (b % chans.length) 0 := by omega
  have hrow : a / chans.length = b / chans.length := by omega
  rw [hget, hget] at hchan
  have hcol := (List.getElem_inj hnodup).mp hchan
  rw [← Nat.div_add_mod a chans.length, ← Nat.div_add_mod b chans.length, hrow, hcol]

/-- Where fewer locations are used than there are, one is found from any start on. -/
theorem firstFrom_free {loc : Nat → Nat} {used : List Nat} {total : Nat} (hinj : ∀ a b, loc a = loc b → a = b) (hroom : used.length < total) (r : Nat) :
    ∃ k, firstFrom (fun k => !used.contains (loc (k % total))) (used.length + 1) r = some k := by
  refine Classical.byContradiction fun hnone => ?_
  have hused : ∀ j < used.length + 1, loc ((r + j) % total) ∈ used := fun j hj =>
    Classical.byContradiction fun hfree => hnone (firstFrom_exists hj (by simpa using hfree))
  have hnodup : ((List.range (used.length + 1)).map (fun j => loc ((r + j) % total))).Nodup := by
    rw [List.nodup_iff_pairwise_ne, List.pairwise_map]
    refine List.pairwise_lt_range.imp_of_mem fun {a b} ha hb hlt hab => ?_
    rw [List.mem_range] at ha hb
    have hmod := Nat.sub_mod_eq_zero_of_mod_eq (hinj _ _ hab).symm
    rw [Nat.mod_eq_of_lt (by omega)] at hmod
    omega
  have hsub : (List.range (used.length + 1)).map (fun j => loc ((r + j) % total)) ⊆ used := fun a ha => by
    obtain ⟨j, hj, rfl⟩ := List.mem_map.mp ha
    exact hused j (List.mem_range.mp hj)
  have hle := hnodup.length_le_of_subset hsub
  simp only [List.length_map, List.length_range] at hle
  omega

theorem chooseLoc_two {f : Nat} {s : State} (h : ((s.fold f).usedLocs 2).length < 131072 * (s.fold f).penList.length) :
    ∃ l, chooseLoc f 2 none s = some (l, s.draw.2) := by
  obtain ⟨chans, hchans⟩ : ∃ l, l = channelsOf (s.fold f).penList := ⟨_, rfl⟩
  have hlength : chans.length = 4 * (s.fold f).penList.length := by rw [hchans, channelsOf_length]
  have hinj : ∀ a b, channelLoc chans a = channelLoc chans b → a = b := fun a b hab =>
    channelLoc_injective (hchans ▸ channelsOf_nodup (penList_nodup _))
      (fun c hc => by have := penList_lt (mem_channelsOf.mp (hchans ▸ hc)); omega) (by omega) hab
  obtain ⟨k, hk⟩ := firstFrom_free hinj (used := (s.fold f).usedLocs 2) (total := chans.length * 32768) (by omega)
    (s.draw.1 % (chans.length * 32768))
  refine ⟨channelLoc chans (k % (chans.length * 32768)), ?_⟩
  have hchoice : chooseLoc f 2 none s = if chans.length * 32768 = 0 then none else
      (firstFrom (fun k => !((s.fold f).usedLocs 2).contains (channelLoc chans (k % (chans.length * 32768)))) (((s.fold f).usedLocs 2).length + 1)
        (s.draw.1 % (chans.length * 32768))).map (fun k => (channelLoc chans (k % (chans.length * 32768)), s.draw.2)) := by
    rw [hchans]
    rfl
  rw [hchoice, if_neg (by omega), hk]
  rfl

theorem noteThresholds_records (f : Nat) (s₀ s : State) : RecordsOnly s (noteThresholds f s₀ s) := by
  unfold noteThresholds
  generalize List.range 5 = l
  induction l generalizing s with
  | nil => exact .refl s
  | cons t l ih =>
    refine RecordsOnly.trans ?_ (ih _)
    dsimp only
    split
    · exact postFold_records _ _ _ _ _ s
    · exact .refl s

/-- A sheet with room in T2 is placed there: its entry, the draw and the records of thresholds are all that changes. -/
theorem placeSheet_two {f i kind : Nat} {wet : Bool} {s : State} (hquota : (s.fold f).use 2 < s.quota f 2)
    (hroom : ((s.fold f).usedLocs 2).length < 131072 * (s.fold f).penList.length) :
    ∃ e t, placeSheet f i 2 kind none false wet s = .ok t ∧ RecordsOnly (putEntry f i e s.draw.2) t := by
  obtain ⟨l, hl⟩ := chooseLoc_two hroom
  obtain ⟨e, he⟩ : ∃ e : Sheet, e =
      { tier := 2, keygen := s.draw.2.keygen f, snap := false, wet := wet, migrating := false, comp := 0, shuf := 0, kind := kind, refs := 1, len := 1024
        loc := l, lastAccess := s.draw.2.now, lastRead := (s.draw.2.fold f).stepNo } := ⟨_, rfl⟩
  refine ⟨e, noteThresholds f s (putEntry f i e s.draw.2), ?_, noteThresholds_records f s _⟩
  have htiers : [0, 1, 2].filter (fun t => decide (2 ≤ t)) = [2] := rfl
  unfold placeSheet
  dsimp only
  rw [if_neg Bool.false_ne_true, htiers, List.filterMap_cons, if_neg (by omega), if_neg (by decide), hl, he]
  rfl

/-! ### A store sheet written (14 R373) -/

/-- The move of sheet `i` to tier `t` asked for. -/
def Fold.asking (i t : Nat) (x : Fold) : Fold :=
  { x with requests := if x.requests.contains (i, t) then x.requests else x.requests ++ [(i, t)], moveFail := delN x.moveFail i
           quotaOut := delN x.quotaOut i }

theorem requestMove_eq (f i t : Nat) (s : State) : requestMove f i t s = s.modFold f (Fold.asking i t) := rfl

theorem mem_asking (i t : Nat) (x : Fold) : (i, t) ∈ (Fold.asking i t x).requests := by
  unfold Fold.asking
  dsimp only
  split
  · rename_i h
    exact List.contains_iff_mem.mp h
  · exact List.mem_append_right _ List.mem_cons_self

/-- Without a replica, a store sheet with room in T2 is there, and its move to T3 is asked for. -/
theorem storeSheet_two {f k o i : Nat} {l rep : List Byte} {s u : State} (hwrites : (s.fold f).ns.state ≠ nsReadOnly) (hi : i = s.slotBase f k + o)
    (hu : u = discardSheet f i s) (hquota : (u.fold f).use 2 < u.quota f 2)
    (hroom : ((u.fold f).usedLocs 2).length < 131072 * (u.fold f).penList.length) (halone : u.snapReplicate f = false) :
    ∃ t, storeSheet f k o l rep s = .ok t ∧ (i, 3) ∈ (t.fold f).requests ∧ (t.fold f).backed i = true := by
  obtain ⟨e, v, hv, hplaced⟩ := placeSheet_two (i := i) (kind := 0) (wet := false) hquota hroom
  obtain ⟨w, hw⟩ : ∃ w, w = requestMove f i 3 (pokeSheet f i 0 (padTo 65536 l) v) := ⟨_, rfl⟩
  have hstill : w.snapReplicate f = false := by
    rw [hw]
    show v.snapReplicate f = false
    rw [hplaced]
    exact halone
  have hfold : w.fold f = Fold.asking i 3 (v.fold f) := by
    rw [hw, requestMove_eq, State.fold_modFold]
    rfl
  have hback : (v.fold f).backed i = true := by
    rw [State.fold, hplaced]
    show ((putEntry f i e u.draw.2).fold f).backed i = true
    rw [putEntry, State.fold_modFold]
    exact hasN_setN_self _ i e
  refine ⟨w, ?_, ?_, ?_⟩
  · unfold storeSheet
    dsimp only
    rw [if_neg hwrites, ← hi, ← hu, hv, andThen_ok, ← hw, hstill]
    exact if_neg (by simp)
  · rw [hfold]
    exact mem_asking _ _ _
  · rw [hfold]
    exact hback

/-! ### SNAPSHOT_CUT (14 R366, R367) -/

theorem next_snapshotCut {d : Desc} {s b : State} {f c k : Nat} (hf : f = s.ringOwner d.ring) (hb : b = beginDesc opSnapshotCut d s)
    (hk : k = b.cutSlot f) (hadm : Admitted opSnapshotCut false d s) (hres : bodyReserved d [(16, 19)] = true) (hnot : descNum d 16 4 ≠ 1)
    (hmost : descNum d 16 4 ≤ 1024) (hns : (s.fold f).ns.state ≠ nsAbsent) (hslots : s.snapSlots f ≠ 0) (hidle : (s.fold f).snap.state = 0)
    (hdrain : (s.fold f).drain = none) (hc : c = (s.fold f).stepNo + (if descNum d 16 4 = 0 then 2 else descNum d 16 4)) :
    exec (.snapshotCut d) s = .next (complete opSnapshotCut d stDeferred 0 (leBytes 8 c ++ leBytes 1 k ++ [0, 0])
      (mailRoot f (.cut c k) (b.modFold f (fun x => { x with cutAt := some (c, k), snap := { x.snap with state := 1, slot := k, step := c } })))) := by
  have hdesc : (beginDesc opSnapshotCut d s).descFold d = f := hf.symm
  have hfold : (beginDesc opSnapshotCut d s).fold f = s.fold f := rfl
  have hfree : (beginDesc opSnapshotCut d s).snapBusy f = false := by
    rw [State.snapBusy, hfold, hidle]
    rfl
  have hstore : (beginDesc opSnapshotCut d s).snapSlots f = s.snapSlots f := rfl
  refine next_descriptor hadm hres ?_
  dsimp only
  rw [hdesc, hfold, hfree, hstore]
  refine (if_neg (by simp [hnot, hns, hslots]; omega)).trans ((if_neg (by simp [hdrain])).trans ?_)
  rw [hk, hb, hc]

/-! ### SNAPSHOT_DRAIN_SHEET (14 R370 to R376) -/

/-- A running shard, without a rate, whose next sheet is not its header and whose slot holds it. -/
def Draining (f : Nat) (q : Snap) (s : State) : Prop :=
  s.ready = true ∧ q = (s.fold f).snap ∧ q.state = 2 ∧ q.fail = none ∧ q.digest = none ∧ q.reported = false ∧ s.act (rSnapDrainRate f) = 0 ∧
    q.written < q.sheets ∧
    (q.written = 0 → q.sheets + (if s.isRoot f then manifestSheets (s.contributors f).length else 0) ≤ s.act (rSnapSlotSheets f))

/-- One more sheet of the shard written, in the ms of `now`. -/
def Snap.drained (now : Nat) (p : Snap) : Snap :=
  { p with written := p.written + 1, drainedMs := (now / 1000, if p.drainedMs.1 = now / 1000 then p.drainedMs.2 + 1 else 1) }

theorem modFold_ns {f : Nat} {g : Fold → Fold} (s : State) (hg : ∀ x, (g x).ns = x.ns) : ((s.modFold f g).fold f).ns = (s.fold f).ns := by
  rw [State.fold_modFold, hg]

theorem poisonEntry_ns (f j : Nat) (s : State) : ((poisonEntry f j s).fold f).ns = (s.fold f).ns := by
  unfold poisonEntry
  extract_lets k o v u
  have hu : (u.fold f).ns = (s.fold f).ns := modFold_ns s (fun _ => rfl)
  exact hu

theorem drainContent_ns (f n : Nat) (s : State) : ((drainContent f n s).2.fold f).ns = (s.fold f).ns := by
  have hdata : ∀ j, ((drainData f j s).2.2.fold f).ns = (s.fold f).ns := fun j => modFold_ns s (fun _ => rfl)
  unfold drainContent
  extract_lets q j r
  split
  · rfl
  · split
    · rfl
    · split
      · rfl
      · dsimp only
        split
        · exact (poisonEntry_ns f j _).trans (hdata j)
        · exact hdata j

theorem next_snapshotDrainSheet {f : Nat} {q : Snap} {s t : State} {c : List Byte × State} (h : Draining f q s)
    (hc : c = drainContent f q.written s) (ht : storeSheet f q.slot q.written c.1 c.1 c.2 = .ok t) :
    exec (.snapshotDrainSheet f) s = .next (t.modSnap f (Snap.drained t.now)) := by
  obtain ⟨hready, hq, hstate, hfail, hdigest, hreported, hrate, hmore, hlimit⟩ := h
  refine next_serve hready ?_
  dsimp only
  rw [← hq]
  refine (if_neg (by simp [hstate, hfail, hdigest, hreported, drainRate, hrate])).trans ((if_neg ?_).trans ?_)
  · simp only [Bool.and_eq_true, decide_eq_true_eq, not_and, Nat.not_lt]
    exact hlimit
  · rw [if_pos hmore, ← hc, ht]
    rfl

/-! ### SHARD_COMPLETE and the end at a member (14 R376, R378) -/

theorem next_shardComplete {f : Nat} {s t : State} (hready : s.ready = true) (hstate : (s.fold f).snap.state = 2)
    (hreported : (s.fold f).snap.reported = false) (hfail : (s.fold f).snap.fail = none) (hmoves : s.shardMoveFail f = none)
    (hdurable : s.shardDurable f = true) (ht : t = (s.count (rSnapShardsDone f) 1).modSnap f (fun q => { q with reported := true, fail := none })) :
    exec (.shardComplete f) s =
      .next (snapshotDone f 0 (t.memberIndex f) stOk (mailRoot f (.shard (t.fold f).snap.step (t.ownReport f)) t)) := by
  refine next_serve hready ?_
  dsimp only
  rw [if_neg (by simp [hstate, hreported]), hfail, hmoves]
  dsimp only
  rw [if_pos hdurable, ht]
  rfl

/-- The snapshot over, `last` the newest step that is complete. -/
def Snap.ended (last : W64) (q : Snap) : Snap :=
  { q with state := 0, marked := [], copies := [], dir := [], data := [], sessions := [], reported := false, digest := none, written := 0, fail := none
           reports := [], poisonedCopies := [], lastStep := last }

theorem endSnapshot_none {f : Nat} {good : Bool} {s : State} (h : (s.fold f).snap.sessions = []) :
    endSnapshot f good s =
      s.modSnap f (Snap.ended (if good then BitVec.ofNat 64 (s.fold f).snap.step else (s.fold f).snap.lastStep)) := by
  unfold endSnapshot
  dsimp only
  rw [h, List.foldl_nil, ite_self]
  rfl

/-! ### SNAPSHOT_RESTORE of one session (14 R380 to R383) -/

theorem restoreBody_named {d : Desc} {o : List MemberStore} {m : List (List Byte)} {s : State} (h : d.session ≠ 0) :
    ∃ t, restoreBody d o none m s = .ok t := by
  unfold restoreBody
  extract_lets f ms stores newest step c g r u key v
  split
  · exact ⟨_, rfl⟩
  · rw [if_neg h]
    split
    · exact ⟨_, rfl⟩
    · exact ⟨_, rfl⟩

theorem restoreNamed_elsewhere {d : Desc} {s : State} (hhome : sidDevice d.session ≠ s.selfNo) (hnone : s.sess d.session = none) :
    restoreNamed d s = stOk := by
  unfold restoreNamed
  rw [hnone]
  exact if_neg (by simp [hhome])

theorem next_snapshotRestore {d : Desc} {o : List MemberStore} {m : List (List Byte)} {s t : State} {f p : Nat} (hf : f = s.ringOwner d.ring)
    (hadm : Admitted opSnapshotRestore true d s) (hres : bodyReserved d [(16, 24), (32, 37), (40, 45)] = true) (hmode : descByte d 24 = 0)
    (hsession : d.session ≠ 0) (hhome : sidDevice d.session ≠ s.selfNo) (hnone : s.sess d.session = none)
    (hidle : hasN (s.fold f).snap.restores d.session.toNat = false) (hreport : s.hostPhys f (descNum d 40 6) 65536 0 = .ok p)
    (ht : restoreBody d o none m (beginDesc opSnapshotRestore d s) = .ok t) : exec (.snapshotRestore d o m) s = .next t := by
  have hdesc : (beginDesc opSnapshotRestore d s).descFold d = f := hf.symm
  have hfold : (beginDesc opSnapshotRestore d s).fold f = s.fold f := rfl
  have hnamed : restoreNamed d (beginDesc opSnapshotRestore d s) = stOk := restoreNamed_elsewhere hhome hnone
  have hnamedOne : ¬d.session = 0#64 := hsession
  refine next_descriptor hadm (by simp [hres, hmode, hnamedOne]) ?_
  dsimp only
  rw [hnamed, hdesc, hfold]
  refine (if_neg (by decide)).trans ((if_neg (by decide)).trans ((if_neg (by simp [hidle, hnamedOne])).trans ?_))
  rw [beginDesc_hostPhys, hreport]
  dsimp only
  rw [if_pos hmode, ht]

/-! ### The statement -/

/-- Settles O19: a store sheet with room in T2 is placed since fewer locations are used than there are, whichever is drawn. -/
theorem snapshotsAndRestores : Obligations.SnapshotsAndRestores := by
  unfold Obligations.SnapshotsAndRestores
  refine ⟨?_, ?_, ?_, ?_, ?_, ?_⟩
  · intro d s f c hf hadm hres hnot hmost hns hslots hidle hdrain hc
    exact next_snapshotCut hf rfl rfl hadm hres hnot hmost hns hslots hidle hdrain hc
  · intro f q s t c hready hq hstate hfail hdigest hreported hrate hmore hlimit hc ht
    exact next_snapshotDrainSheet ⟨hready, hq, hstate, hfail, hdigest, hreported, hrate, hmore, hlimit⟩ hc ht
  · intro f i q s u hready hq hstate hfail hdigest hreported hrate hmore hlimit hwrites hi hu _ hslot hquota hroom halone
    have hopen : ((drainContent f q.written s).2.fold f).ns.state ≠ nsReadOnly := by
      rw [drainContent_ns]
      exact hwrites
    obtain ⟨t, ht, hasked, hback⟩ := storeSheet_two (l := (drainContent f q.written s).1) (rep := (drainContent f q.written s).1) hopen
      (hi.trans (by rw [hslot])) hu hquota hroom halone
    refine ⟨_, next_snapshotDrainSheet ⟨hready, hq, hstate, hfail, hdigest, hreported, hrate, hmore, hlimit⟩ rfl ht, ?_⟩
    rw [State.modSnap, State.fold_modFold]
    exact ⟨hasked, hback⟩
  · intro f s hready hstate hreported hfail hmoves hdurable
    exact next_shardComplete hready hstate hreported hfail hmoves hdurable rfl
  · intro f l s hready hstate hreported hroot hfail hsessions
    refine ⟨endSnapshot f (l.all (fun r => r.status == stOk) && (s.fold f).snap.fail.isNone) s, next_serve hready ?_, ?_⟩
    · dsimp only
      rw [if_neg (by simp [hstate, hreported]), if_pos (by simp [hroot])]
    · rw [endSnapshot_none hsessions, hfail, Option.isNone_none, Bool.and_true, State.modSnap, State.fold_modFold]
      exact ⟨rfl, rfl, rfl⟩
  · intro d o m s f p hf hadm hres hmode hsession hhome hnone hidle hreport
    obtain ⟨t, ht⟩ := restoreBody_named (o := o) (m := m) (s := beginDesc opSnapshotRestore d s) hsession
    exact ⟨t, ht, next_snapshotRestore hf hadm hres hmode hsession hhome hnone hidle hreport ht⟩

end Sys2Proof.Machine
end

section
/-! SUPPORT. The drove's membership: join, its reports, commit and limit, leave, shrink and rebalance (14 R384 to R388, 18 R460 to R464). -/
namespace Sys2Proof.Machine
open Sys2Proof.Safety

/-! ### Joining (18 R460 to R463) -/

/-- Join `j` pending. -/
def Fold.joining (j : Join) (x : Fold) : Fold := { x with join := some j, joinOver := none }

theorem next_droveJoin {d : Desc} {s : State} {f a : Nat} {h b : List Byte} {j : Join} (hf : f = descByte d 16) (ha : a = descNum d 24 6)
    (hjoin : bitOf (descByte d 32) 0 = false) (hadm : Admitted opDroveJoin false d s) (hres : joinReserved d = true) (hformed : s.formed f = true)
    (hhead : s.hostRead mgmtPath a 128 = .ok h) (hblock : s.hostRead mgmtPath a (128 + 4 * min 262144 (leAt h 16 4)) = .ok b)
    (hlist : joinListOk s f b = true) (hfree : joinBusy s f = false) (hsame : joinMismatch s f b = 0)
    (hj : j = { desc := d, drove := BitVec.ofNat 32 (leAt b 12 4), members := joinDevices b, index := (joinDevices b).findIdx (· == s.selfNo)
                deadline := s.now + descNum d 20 4, reports := [((joinDevices b).findIdx (· == s.selfNo), stOk)] }) :
    exec (.droveJoin d) s = .next (if (joinDevices b).length = 1 then commitJoin f ((beginDesc opDroveJoin d s).modFold f (Fold.joining j))
      else sendReport f j.index stOk 0 b ((beginDesc opDroveJoin d s).modFold f (Fold.joining j))) := by
  have hformed' : (beginDesc opDroveJoin d s).formed f = true := hformed
  have hlist' : joinListOk (beginDesc opDroveJoin d s) f b = true := hlist
  have hfree' : joinBusy (beginDesc opDroveJoin d s) f = false := hfree
  have hsame' : joinMismatch (beginDesc opDroveJoin d s) f b = 0 := hsame
  refine next_ite_descriptor (by simp [hjoin]) hadm hres ?_
  dsimp only
  rw [← hf, ← ha]
  refine (if_neg (by simp [hformed'])).trans ?_
  rw [beginDesc_hostRead, hhead]
  dsimp only
  rw [beginDesc_hostRead, hblock]
  dsimp only
  refine (if_neg (by simp [hlist'])).trans ((if_neg (by simp [hfree'])).trans ((if_neg (by simp [hsame'])).trans ?_))
  rw [hj]
  rfl

theorem next_joinReport {f i : Nat} {j k : Join} {s t : State} (hready : s.ready = true) (hjoin : (s.fold f).join = some j) (hroot : j.index = 0)
    (hi : i < j.members.length) (hk : k = { j with reports := setN j.reports i stOk }) (ht : t = s.modFold f (fun x => { x with join := some k })) :
    exec (.joinReport f i stOk) s = .next (if k.reports.length = k.members.length then commitJoin f (sendVerdict f 0 stOk k t) else t) := by
  refine next_serve hready ?_
  rw [hjoin]
  dsimp only
  rw [if_neg (by simp [hroot])]
  unfold takeReport
  rw [if_neg (by omega)]
  refine (if_neg (by simp)).trans ?_
  rw [ht, hk]

/-- The fold in the drove of join `j`. -/
def Fold.joined (j : Join) (x : Fold) : Fold :=
  { x with join := none, members := j.members, stepNo := 0
           snap := { x.snap with absorbed := [], share := [], state := 0, halted := false, lostMember := none } }

theorem commitJoin_eq {f : Nat} {j : Join} {s : State} (h : (s.fold f).join = some j) :
    commitJoin f s = complete opDroveJoin j.desc stOk 0 (joinSpecific j.index j.members.length)
      (((s.setAct (rFabFoldDrove f) (j.drove.toNat + 2 ^ 32)).setAct (rFabFoldMember f)
        (j.index + j.members.length * 2 ^ 18 + j.members.headD 0 * 2 ^ 46)).modFold f (Fold.joined j)) := by
  unfold commitJoin
  rw [h]
  rfl

theorem commitJoin_registers {f : Nat} {j : Join} {s : State} (h : (s.fold f).join = some j) (hindex : j.index < 2 ^ 18)
    (hcount : j.members.length ≤ 2 ^ 18) (hroot : j.members.headD 0 < 2 ^ 18) :
    (commitJoin f s).act (rFabFoldDrove f) = j.drove.toNat + 2 ^ 32 ∧
      (commitJoin f s).act (rFabFoldMember f) = j.index + j.members.length * 2 ^ 18 + j.members.headD 0 * 2 ^ 46 := by
  have hdrove := j.drove.isLt
  have hne : rFabFoldDrove f ≠ rFabFoldMember f := by
    simp only [rFabFoldDrove, rFabFoldMember]
    omega
  have hact : ∀ k, (commitJoin f s).act k = ((s.setAct (rFabFoldDrove f) (j.drove.toNat + 2 ^ 32)).setAct (rFabFoldMember f)
      (j.index + j.members.length * 2 ^ 18 + j.members.headD 0 * 2 ^ 46)).act k := fun k => by
    rw [commitJoin_eq h]
    exact State.act_congr _ _ _ (complete_regs _ _ _ _ _ _)
  refine ⟨?_, ?_⟩
  · rw [hact, State.act_setAct_ne _ _ hne, State.act_setAct _ _ _ (by omega)]
  · rw [hact, State.act_setAct _ _ _ (by omega)]

theorem next_joinCommit {f : Nat} {j : Join} {s : State} (hready : s.ready = true) (hjoin : (s.fold f).join = some j)
    (hall : j.index ≠ 0 ∨ j.reports.length = j.members.length) : exec (.joinCommit f) s = .next (commitJoin f s) := by
  refine next_serve hready ?_
  rw [hjoin]
  exact if_pos (by simpa using hall)

theorem next_joinLimitExpiry {f i : Nat} {j : Join} {s : State} (hready : s.ready = true) (hjoin : (s.fold f).join = some j) (hroot : j.index = 0)
    (hlate : j.deadline ≤ s.now) (hmissing : j.reports.length ≠ j.members.length)
    (hi : (List.range j.members.length).find? (fun i => !hasN j.reports i) = some i) :
    exec (.joinLimitExpiry f) s = .next (dropJoin f i stPeerLost
      ((sendVerdict f i stPeerLost j s).modFold f (fun x => { x with joinOver := some (j.drove, stPeerLost, i) }))) := by
  refine next_serve hready ?_
  rw [hjoin]
  dsimp only
  rw [if_neg (by simp [hroot, hmissing]; omega), hi, refuseJoin, hjoin]
  rfl

/-! ### Leaving and rebalancing (18 R464, 14 R388) -/

theorem startDrain_root {f kind limit arg : Nat} {d : Desc} {s : State} (h : s.isRoot f = true) :
    startDrain f kind limit d arg s = .ok (leadDrain f
      { kind := kind, deadline := s.now + limit, desc := d, arg := arg, loading := false, boundary := 0, depth := s.act (rScrWindowDepth f) } s) := by
  unfold startDrain
  rw [if_pos h]

theorem next_droveLeave {d : Desc} {s t : State} {f : Nat} (hf : f = descByte d 16) (hleave : bitOf (descByte d 32) 0 = true)
    (hadm : Admitted opDroveJoin false d s) (hres : joinReserved d = true) (hformed : s.formed f = true) (hdrove : (s.drove f).isSome = true)
    (hdrain : (s.fold f).drain = none) (ht : startDrain f 3 (descNum d 20 4) d 0 (beginDesc opDroveJoin d s) = .ok t) :
    exec (.droveLeave d) s = .next t := by
  have hformed' : (beginDesc opDroveJoin d s).formed f = true := hformed
  have hdrove' : (beginDesc opDroveJoin d s).drove f = s.drove f := rfl
  have hfold : (beginDesc opDroveJoin d s).fold f = s.fold f := rfl
  refine next_ite_descriptor (by simp [hleave]) hadm hres ?_
  dsimp only
  rw [← hf, hformed', hdrove', hfold]
  exact (if_neg (by simp [Option.isNone_eq_false_iff.mpr hdrove])).trans ((if_neg (by simp [hdrain])).trans ht)

/-- A drove that a second loss has halted goes on. -/
def Snap.resumed (q : Snap) : Snap := if q.halted && q.lostMember.isNone then { q with halted := false, state := 0 } else q

theorem next_droveRebalance {d : Desc} {s t : State} {f : Nat} {img : Image} (hf : f = descByte d 16) (hadm : Admitted opDroveRebalance false d s)
    (hres : bodyReserved d [(16, 17), (20, 23)] = true) (hformed : s.formed f = true) (hslot : descByte d 17 < 32)
    (himg : s.image f (descByte d 17) = some img) (hmembers : img.members = s.droveSize f)
    (hpinned : img.pinnedSlots (s.act (rScrWindowDepth f)) ≤ 96) (hdrain : (s.fold f).drain = none)
    (hroom : poolExcess (s.fold f) (img.pinnedSlots (s.act (rScrWindowDepth f))) ≤ (beginDesc opDroveRebalance d s).room f 2)
    (ht : startDrain f 2 (descNum d 20 4) d (descByte d 17) ((beginDesc opDroveRebalance d s).modSnap f Snap.resumed) = .ok t) :
    exec (.droveRebalance d) s = .next t := by
  have hformed' : (beginDesc opDroveRebalance d s).formed f = true := hformed
  have hsize : (beginDesc opDroveRebalance d s).droveSize f = s.droveSize f := rfl
  have hfold : (beginDesc opDroveRebalance d s).fold f = s.fold f := rfl
  refine next_descriptor hadm hres ?_
  dsimp only
  rw [← hf, hformed', hsize, hfold, beginDesc_image, beginDesc_act, if_pos (by simp [hslot]), himg]
  refine (if_neg (by simp [hmembers]; omega)).trans ((if_neg (by simp [hdrain])).trans ((if_neg (by omega)).trans ht))

/-! ### Shrinking (14 R384, R385) -/

theorem next_droveShrink {d : Desc} {s : State} {f : Nat} (hf : f = descByte d 16) (hadm : Admitted opDroveShrink false d s)
    (hres : bodyReserved d [(16, 16), (20, 23)] = true) (hindex : descNum d 20 4 < 2 ^ 18) (hformed : s.formed f = true)
    (hlost : s.shrinkable f (descNum d 20 4) = true) (hhere : s.predecessor f (descNum d 20 4) = s.memberIndex f) (hidle : (s.fold f).snap.state ≠ 4) :
    exec (.droveShrink d) s = .next ((beginDesc opDroveShrink d s).modSnap f
      (fun q => { q with state := 4, job := some d, lostMember := some (descNum d 20 4) })) := by
  have hformed' : (beginDesc opDroveShrink d s).formed f = true := hformed
  have hlost' : (beginDesc opDroveShrink d s).shrinkable f (descNum d 20 4) = true := hlost
  have hhere' : (beginDesc opDroveShrink d s).predecessor f (descNum d 20 4) = (beginDesc opDroveShrink d s).memberIndex f := hhere
  have hidle' : ((beginDesc opDroveShrink d s).fold f).snap.state ≠ 4 := hidle
  refine next_descriptor hadm (by rw [hres, decide_eq_true hindex]; rfl) ?_
  dsimp only
  rw [← hf]
  exact (if_neg (by simp [hformed', hlost'])).trans ((if_neg (by simp [hhere'])).trans (if_neg hidle'))

theorem next_shrinkComplete_elsewhere {f l : Nat} {s : State} (hready : s.ready = true) (hlost : (s.fold f).snap.lostMember = some l)
    (helsewhere : s.predecessor f l ≠ s.memberIndex f) : exec (.shrinkComplete f) s = .next (finishShrink f l s) := by
  refine next_serve hready ?_
  dsimp only
  rw [hlost]
  exact if_pos (by simpa using helsewhere)

/-- The shrink that `job` asked for, if one did, completed. -/
def endShrink (f : Nat) (job : Option Desc) (v : State) : State := match job with
  | some d => complete opDroveShrink d stOk 0 (leBytes 8 (v.fold f).stepNo) v
  | none => v

theorem next_shrinkComplete {f l : Nat} {s t u v : State} (hready : s.ready = true) (hlost : (s.fold f).snap.lostMember = some l)
    (hhere : s.predecessor f l = s.memberIndex f) (hstate : (s.fold f).snap.state = 4)
    (ht : takeSlice f (s.modSnap f (fun q => { q with job := none, share := [] })) = .ok t) (hu : takeShare f l t = .ok u)
    (hv : v = (finishShrink f l (tellShrunk f l u)).count (rSnapShrinks f) 1) :
    exec (.shrinkComplete f) s = .next (endShrink f (s.fold f).snap.job v) := by
  refine next_serve hready ?_
  dsimp only
  rw [hlost]
  refine (if_neg (by simp [hhere])).trans ((if_neg (by simp [hstate])).trans ?_)
  rw [ht, andThen_ok, hu, hv]
  cases (s.fold f).snap.job <;> rfl

/-! ### The statement -/

/-- Settles O20: each command is the one way its checks leave, the join's registers read back since their fields fit. -/
theorem drovesJoinLeaveAndShrink : Obligations.DrovesJoinLeaveAndShrink := by
  unfold Obligations.DrovesJoinLeaveAndShrink
  refine ⟨?_, ?_, ?_, ?_, ?_, ?_, ?_, ?_, ?_⟩
  · intro d s f a h b j hf ha hjoin hadm hres hformed hhead hblock hlist hfree hsame hj
    exact next_droveJoin hf ha hjoin hadm hres hformed hhead hblock hlist hfree hsame hj
  · intro f i j k s t hready hjoin hroot hi hk ht
    exact next_joinReport hready hjoin hroot hi hk ht
  · intro f j s hready hjoin hall hindex hcount hroot
    obtain ⟨hdrove, hmember⟩ := commitJoin_registers hjoin hindex hcount hroot
    refine ⟨commitJoin f s, next_joinCommit hready hjoin hall, hdrove, hmember, ?_⟩
    rw [State.fold, commitJoin_eq hjoin, complete_folds, ← State.fold, State.fold_modFold]
    exact ⟨rfl, rfl, rfl⟩
  · intro f i j s hready hjoin hroot hlate hmissing hi
    exact next_joinLimitExpiry hready hjoin hroot hlate hmissing hi
  · intro d s f hf hleave hadm hres hformed hdrove hdrain
    exact ⟨fun hroot => next_droveLeave hf hleave hadm hres hformed hdrove hdrain (startDrain_root hroot),
      fun _ t ht => next_droveLeave hf hleave hadm hres hformed hdrove hdrain ht⟩
  · intro d s f hf hadm hres hindex hformed hlost hhere hidle
    exact next_droveShrink hf hadm hres hindex hformed hlost hhere hidle
  · intro f l s hready hlost helsewhere
    exact next_shrinkComplete_elsewhere hready hlost helsewhere
  · intro f l s t u hready hlost hhere hstate ht hu
    exact next_shrinkComplete hready hlost hhere hstate ht hu rfl
  · intro d s f img hf hadm hres hformed hslot himg hmembers hpinned hdrain hroom u hu
    subst hu
    exact ⟨fun hroot => next_droveRebalance hf hadm hres hformed hslot himg hmembers hpinned hdrain hroom (startDrain_root hroot),
      fun _ t ht => next_droveRebalance hf hadm hres hformed hslot himg hmembers hpinned hdrain hroom ht⟩

end Sys2Proof.Machine
end

section
/-! SUPPORT. Messages between the members of a drove: their words read back (log entry 134), and what heeding one does (05, 04, 09, 14, 18). -/
namespace Sys2Proof.Machine
open Sys2Proof.Safety

/-! ### Words of eight bytes -/

theorem leBytes_ofLe (l : List Byte) : leBytes l.length (ofLe l) = l := by
  induction l with
  | nil => rfl
  | cons b l ih =>
    have hb := b.isLt
    have hlow : BitVec.ofNat 8 (b.toNat + 256 * ofLe l) = b := BitVec.eq_of_toNat_eq (by rw [BitVec.toNat_ofNat]; omega)
    have hhigh : (b.toNat + 256 * ofLe l) / 256 = ofLe l := by omega
    rw [List.length_cons, ofLe, leBytes, hlow, hhigh, ih]

theorem takeWords_packWords {l : List Nat} (h : ∀ v ∈ l, v < 2 ^ 64) : takeWords l.length (packWords l) = l := by
  induction l with
  | nil => rfl
  | cons v l ih =>
    have hv : ofLe (leBytes 8 v) = v := ofLe_leBytes (h v List.mem_cons_self)
    rw [packWords, List.flatMap_cons, ← packWords, List.length_cons, takeWords, List.take_left' (length_leBytes 8 v),
      List.drop_left' (length_leBytes 8 v), hv, ih (fun w hw => h w (List.mem_cons_of_mem v hw))]

theorem length_packWords (l : List Nat) : (packWords l).length = 8 * l.length := by
  induction l with
  | nil => rfl
  | cons v l ih =>
    rw [packWords, List.flatMap_cons, ← packWords, List.length_append, length_leBytes, ih, List.length_cons]
    omega

theorem wordsOf_packWords {l : List Nat} (h : ∀ v ∈ l, v < 2 ^ 64) : wordsOf (packWords l) = l := by
  have hcount : ceilDiv (packWords l).length 8 = l.length := by
    rw [length_packWords, ceilDiv]
    omega
  rw [wordsOf, hcount, takeWords_packWords h]

@[simp] theorem length_takeWords (n : Nat) (l : List Byte) : (takeWords n l).length = n := by
  induction n generalizing l with
  | zero => rfl
  | succ n ih => rw [takeWords, List.length_cons, ih]

theorem packWords_takeWords {n : Nat} {l : List Byte} (h : l.length = 8 * n) : packWords (takeWords n l) = l := by
  induction n generalizing l with
  | zero => exact (List.length_eq_zero_iff.mp h).symm
  | succ n ih =>
    have hword : leBytes 8 (ofLe (l.take 8)) = l.take 8 := by
      have := leBytes_ofLe (l.take 8)
      rwa [List.length_take, Nat.min_eq_left (by omega)] at this
    rw [takeWords, packWords, List.flatMap_cons, ← packWords, ih (by rw [List.length_drop]; omega), hword, List.take_append_drop]

/-- Bytes that fill `n` words are those words packed. -/
theorem packWords_wordsOf {n : Nat} {l : List Byte} (h : l.length = 8 * n) : packWords (wordsOf l) = l ∧ (wordsOf l).length = n := by
  have hcount : ceilDiv l.length 8 = n := by
    rw [h, ceilDiv]
    omega
  rw [wordsOf, hcount]
  exact ⟨packWords_takeWords h, length_takeWords n l⟩

/-! ### Lists in a message -/

theorem chunksOf_cons {α : Type} {k : Nat} {r l : List α} (hr : r.length = k) (hk : 0 < k) : chunksOf k (r ++ l) = r :: chunksOf k l := by
  have hcount : ceilDiv (r ++ l).length k = ceilDiv l.length k + 1 := by
    rw [ceilDiv, ceilDiv, List.length_append, hr, show k + l.length + k - 1 = l.length + k - 1 + k by omega, Nat.add_div_right _ hk]
  rw [chunksOf, hcount, List.range_succ_eq_map, List.map_cons, List.map_map, chunksOf]
  congr 1
  · rw [Nat.zero_mul, List.drop_zero, List.take_left' hr]
  · refine List.map_congr_left fun i _ => ?_
    have hdrop : (r ++ l).drop ((i + 1) * k) = l.drop (i * k) := by
      rw [show (i + 1) * k = r.length + i * k by rw [hr, Nat.add_mul, Nat.one_mul, Nat.add_comm], List.drop_length_add_append]
    rw [Function.comp_apply, hdrop]

theorem chunksOf_flatten {α : Type} {k : Nat} {l : List (List α)} (hk : 0 < k) (h : ∀ r ∈ l, r.length = k) : chunksOf k l.flatten = l := by
  induction l with
  | nil => simp [chunksOf, ceilDiv, Nat.div_eq_of_lt (Nat.sub_lt hk Nat.one_pos)]
  | cons r l ih => rw [List.flatten_cons, chunksOf_cons (h r List.mem_cons_self) hk, ih (fun q hq => h q (List.mem_cons_of_mem r hq))]

/-- Rows put into a message are taken off it again. -/
theorem takeRows_putRows {k : Nat} {l : List (List Nat)} (w : List Nat) (hk : 0 < k) (h : ∀ r ∈ l, r.length = k) :
    takeRows k (putRows l ++ w) = (l, w) := by
  have hlength : l.flatten.length = l.length * k := by
    rw [List.length_flatten, List.map_congr_left h, List.map_const', List.sum_replicate_nat]
  rw [putRows, List.cons_append, takeRows, List.tail_cons, List.headD_cons, List.take_left' hlength, List.drop_left' hlength, chunksOf_flatten hk h]

/-- Entries put as rows of `k` words and read back one by one. -/
theorem takeRows_map {α : Type} {k : Nat} {g : α → List Nat} (l : List α) (w : List Nat) (hk : 0 < k) (hg : ∀ a, (g a).length = k) :
    takeRows k (putRows (l.map g) ++ w) = (l.map g, w) :=
  takeRows_putRows w hk (fun r hr => by obtain ⟨a, -, rfl⟩ := List.mem_map.mp hr; exact hg a)

theorem map_map_back {α β : Type} {g : α → β} {h : β → α} (hback : ∀ a, h (g a) = a) (l : List α) : (l.map g).map h = l := by
  rw [List.map_map, show h ∘ g = id from funext hback, List.map_id]

/-- A value that may be missing as a word: 0, or one more than it. -/
theorem option_word (o : Option Nat) : (if o.elim 0 (· + 1) = 0 then none else some (o.elim 0 (· + 1) - 1)) = o := by
  cases o <;> rfl

@[simp] theorem b2n_bne_zero (b : Bool) : (b2n b != 0) = b := by cases b <;> rfl

/-! ### Each kind of message -/

theorem prefixOp_words (o : PrefixOp) : PrefixOp.ofWords o.words = o := by
  cases o <;> simp [PrefixOp.words, PrefixOp.ofWords]

theorem posting_words (p : Posting) : Posting.ofWords p.words = p := by
  have hops : ∀ o : PrefixOp, o.words.length = 4 := fun o => by cases o <;> rfl
  have hdrained := takeRows_map (k := 4) (g := fun d : Nat × Nat × Nat × Nat => [d.1, d.2.1, d.2.2.1, d.2.2.2]) p.drained.toList [] (by decide) (fun _ => rfl)
  rw [List.append_nil] at hdrained
  unfold Posting.ofWords Posting.words
  simp only [List.append_assoc, List.cons_append, List.nil_append, List.drop_succ_cons, List.drop_zero]
  simp [takeRows_map, hops, hdrained, Function.comp_def, option_word, prefixOp_words]

theorem takeVerdicts_words (vs : List SeqVerdict) : takeVerdicts vs.length (vs.flatMap verdictWords) = vs := by
  induction vs with
  | nil => rfl
  | cons v vs ih =>
    have hdry : (v.dry.map fun t => (⟨t.token, t.forced⟩ : DryToken)) = v.dry := List.map_id' v.dry
    rw [List.length_cons, takeVerdicts, List.flatMap_cons, verdictWords]
    simp [takeRows_map, Function.comp_def, option_word, ih]

theorem takeSlices_words (rows : List (Nat × Nat × Bool × List W32)) :
    takeSlices rows.length (rows.flatMap (fun r => [r.1, r.2.1, b2n r.2.2.1] ++ putRows (r.2.2.2.map (fun v => [v.toNat])))) = rows := by
  induction rows with
  | nil => rfl
  | cons r rows ih =>
    rw [List.length_cons, takeSlices, List.flatMap_cons]
    simp only [List.cons_append, List.nil_append, List.drop_succ_cons, List.drop_zero] at ih ⊢
    simp [takeRows_map, Function.comp_def, ih]

/-- The word of a share's flags and step, taken apart. -/
theorem seatFlags (rebuild handoff : Bool) (n : Nat) : bitOf (b2n rebuild + 2 * b2n handoff + 4 * n) 0 = rebuild ∧
    bitOf (b2n rebuild + 2 * b2n handoff + 4 * n) 1 = handoff ∧ (b2n rebuild + 2 * b2n handoff + 4 * n) / 4 = n := by
  refine ⟨?_, ?_, ?_⟩
  · rw [bitOf, Nat.testBit_zero]
    cases rebuild <;> cases handoff <;> simp [b2n] <;> omega
  · rw [bitOf, Nat.testBit_succ, Nat.testBit_zero]
    cases rebuild <;> cases handoff <;> simp [b2n] <;> omega
  · cases rebuild <;> cases handoff <;> simp only [b2n] <;> simp <;> omega

theorem drop_append_add {α : Type} {a b : List α} {n : Nat} (h : a.length = n) (m : Nat) : (a ++ b).drop (n + m) = b.drop m := by
  rw [← h, List.drop_length_add_append]

theorem seat_words {b : Seat} (hrecord : b.record.inRange = true) (hparams : b.params.length = 65536) (hcounts : b.counts.length = 65536) :
    Seat.ofWords b.words = b := by
  obtain ⟨hback, hlength⟩ := sessionRecordBytesRoundTrip b.record hrecord
  obtain ⟨hr, hrn⟩ := packWords_wordsOf (n := 64) hlength
  obtain ⟨hp, hpn⟩ := packWords_wordsOf (n := 8192) hparams
  obtain ⟨hc, hcn⟩ := packWords_wordsOf (n := 8192) hcounts
  obtain ⟨hrebuild, hhandoff, hstep⟩ := seatFlags b.rebuild b.handoff (b.step.elim 0 (· + 1))
  obtain ⟨x, hx⟩ : ∃ x, x = b2n b.rebuild + 2 * b2n b.handoff + 4 * b.step.elim 0 (· + 1) := ⟨_, rfl⟩
  obtain ⟨e, he⟩ : ∃ e, e = b.entries.map (·.toNat) := ⟨_, rfl⟩
  have hentries : e.map (BitVec.ofNat 64) = b.entries := by
    rw [he]
    exact map_map_back (fun w => by simp) _
  have hwords : b.words = b.kvNext :: x :: (wordsOf (recordBytes b.record) ++ (wordsOf b.params ++ (wordsOf b.counts ++ e))) := by
    rw [Seat.words, hx, he]
    simp only [List.append_assoc, List.cons_append, List.nil_append]
  rw [← hx] at hrebuild hhandoff hstep
  have hword : b.words.getD 1 0 = x := by rw [hwords]; rfl
  have hnext : b.words.getD 0 0 = b.kvNext := by rw [hwords]; rfl
  have hrecordWords : (b.words.drop 2).take 64 = wordsOf (recordBytes b.record) := by
    rw [hwords, List.drop_succ_cons, List.drop_succ_cons, List.drop_zero, List.take_left' hrn]
  have hparamWords : (b.words.drop 66).take 8192 = wordsOf b.params := by
    rw [hwords, List.drop_succ_cons, List.drop_succ_cons, List.drop_left' hrn, List.take_left' hpn]
  have hcountWords : (b.words.drop 8258).take 8192 = wordsOf b.counts := by
    rw [hwords, List.drop_succ_cons, List.drop_succ_cons, drop_append_add hrn 8192, List.drop_left' hpn, List.take_left' hcn]
  have hentryWords : b.words.drop 16450 = e := by
    rw [hwords, List.drop_succ_cons, List.drop_succ_cons, drop_append_add hrn 16384, drop_append_add hpn 8192, List.drop_left' hcn]
  unfold Seat.ofWords
  rw [hword, hnext, hrecordWords, hparamWords, hcountWords, hentryWords, hr, hp, hc, hback, hrebuild, hhandoff, hstep, hentries, option_word]

theorem mail_words {m : Mail} (hseat : ∀ b, m = .seat b → b.record.inRange = true ∧ b.params.length = 65536 ∧ b.counts.length = 65536)
    (hlogits : ∀ n, m = .logits n → n.source = 0) (hshard : ∀ c r, m = .shard c r → r.digest.length = 48) :
    Mail.ofWords m.words.1 m.words.2 = some m := by
  cases m
  case seat b =>
    obtain ⟨hrecord, hparams, hcounts⟩ := hseat b rfl
    exact congrArg (fun b => some (Mail.seat b)) (seat_words hrecord hparams hcounts)
  case list p => exact congrArg (fun p => some (Mail.list p)) (posting_words p)
  case logits n =>
    obtain ⟨source, step, attempt, rows⟩ := n
    obtain rfl : source = 0 := hlogits _ rfl
    exact congrArg (fun l => some (Mail.logits ⟨0, step, attempt, l⟩)) (takeSlices_words rows)
  case record c a vs => exact congrArg (fun l => some (Mail.record c a l)) (takeVerdicts_words vs)
  case shard c r =>
    obtain ⟨hdigest, -⟩ := packWords_wordsOf (n := 6) (hshard c r rfl)
    simp [Mail.words, Mail.ofWords, hdigest]
  all_goals simp [Mail.words, Mail.ofWords]

/-! ### A message arrives (05 R126) -/

/-- A message all here is heeded, and answered with what heeding it gives. -/
theorem heedWhole_gathered {p : Packet} {f : Nat} {l : List Packet} {m : Mail} {s t : State} {r : W16 × State} (hall : gathered p s = (some l, t))
    (hmail : mailOf p (l.flatMap (·.payload)) = some m) (hr : r = if p.issuer = issSys then heedJoin f p.src p.drove m t else heed f p.src m t) :
    heedWhole f p s = respond p r.1 [] [] r.2 := by
  unfold heedWhole
  rw [hall]
  dsimp only
  rw [hmail, hr]

theorem orHeed_mail {p : Packet} {f : Nat} {s : State} {go : State → State} (h : s.mailFold p = some f) :
    orHeed p go (taken p s) = heedWhole f p (taken p s) := by
  have htaken : (taken p s).mailFold p = some f := h
  rw [orHeed, htaken]

/-! ### The statement -/

/-- Settles O60: every list in a message says its length, so its rows are taken off one after the other; each message has its one way to be heeded. -/
theorem messagesBetweenMembers : Obligations.MessagesBetweenMembers := by
  unfold Obligations.MessagesBetweenMembers
  refine ⟨?readBack, ?pack, ?arrive, ?askSlot, ?drain, ?list, ?seat, ?cut, ?logits, ?record, ?shard, ?verdict⟩
  case readBack => exact fun m hseat hlogits hshard => mail_words hseat hlogits hshard
  case pack => exact fun l h => wordsOf_packWords h
  case arrive =>
    intro p f l m s t hfold hall hmail r hr
    have hheeded := heedWhole_gathered (f := f) hall hmail hr
    exact ⟨fun hdel => next_request hdel ((orHeed_mail hfold).trans hheeded), fun hdel => next_request hdel ((orHeed_mail hfold).trans hheeded)⟩
  case askSlot =>
    intro f src x lc s
    refine ⟨fun hroot => if_pos (by simp [hroot]), fun hroot hdrain hslot => (if_neg (by simp [hroot])).trans ?_⟩
    unfold placeRequest
    rw [if_neg (by simp [hdrain]), if_pos hslot]
  case drain =>
    intro f src k a l depth s hroot
    refine ⟨fun hdrain => ?_, fun hdrain => ?_⟩
    · obtain ⟨q, hq⟩ : ∃ q : Drain, q =
          { kind := k, deadline := s.now + l, desc := { ring := 0, flags := 0, tag := 0, epoch := 0, session := 0, body := [] }, arg := a, loading := false
            boundary := 0, depth := depth, issuer := some src } := ⟨_, rfl⟩
      have hasked : drainAsked f k a l depth src s = some (leadDrain f q s) := by
        rw [hq]
        exact if_neg (by simp [hdrain])
      refine ⟨q, leadDrain f q s, ?_, (leadDrain_kept f q s).1, by simp [hq]⟩
      refine (if_pos hroot).trans ?_
      rw [hasked]
    · have hasked : drainAsked f k a l depth src s = none := if_pos hdrain
      refine (if_pos hroot).trans ?_
      rw [hasked]
  case list =>
    intro f src p s
    refine ⟨fun hsrc => if_neg hsrc, fun hsrc hempty hold => (if_pos hsrc).trans ?_, fun hsrc hempty hnow hbetween => (if_pos hsrc).trans ?_⟩
    · unfold listArrives
      rw [if_pos hempty, if_pos hold]
    · unfold listArrives
      rw [if_pos hempty, if_neg (by omega), if_pos (by simp [hnow, hbetween])]
  case seat => exact fun f src b s h => if_neg h
  case cut =>
    intro f src c k s hcut hidle
    refine congrArg (Prod.mk stOk) ?_
    unfold takeCutNews
    exact if_neg (by simp [hcut, hidle])
  case logits =>
    intro f src n s
    exact ⟨fun hroot => if_pos hroot, fun hroot => if_neg (by simp [hroot])⟩
  case record =>
    intro f src c a st vs s hstep
    refine ⟨fun hsrc => if_neg hsrc, fun hsrc => ?_⟩
    have hheeded : heed f src (.record c a vs) s = (stOk, recordArrives f c a vs s) := if_pos hsrc
    rw [hheeded, recordArrives, State.fold_modFold]
    dsimp only
    rw [hstep]
    simp
  case shard =>
    intro f src c r s hroot hstep hstate
    refine (if_pos hroot).trans (congrArg (Prod.mk stOk) ?_)
    exact if_pos (by simp [hstep, hstate])
  case verdict =>
    intro f src i st drove j s hjoin hindex hdrove hroot
    refine congrArg (Prod.mk stOk) ?_
    unfold verdictArrives
    rw [hjoin]
    refine (if_pos (by simp [hindex, hdrove, hroot])).trans ?_
    simp

end Sys2Proof.Machine
end
